-- ==== Sys2Proof/Word.lean ====
section
/-! DEFINITION. The byte of a frame and the plain saturating arithmetic of the manual's conventions
(00_scope, "Arithmetic"). -/

namespace Sys2Proof

/-- One byte of a frame. -/
abbrev Byte := BitVec 8

/-- The top of a 32-bit quantity. -/
abbrev top32 : Nat := 4294967295

/-- The top of the pumped volume (R65). -/
abbrev top48 : Nat := 281474976710655

/-- A saturating sum: it stops at the top of its range (00_scope, "Arithmetic"). -/
def satAdd (top a b : Nat) : Nat := min top (a + b)

/-- A difference of two cumulative readings, modulo 2^32 (00_scope, "Arithmetic"). -/
def diff32 (now last : Nat) : Nat := (now + 4294967296 - last % 4294967296) % 4294967296

/-- A cumulative counter advanced by one, modulo 2^32. -/
def next32 (n : Nat) : Nat := (n + 1) % 4294967296

end Sys2Proof
end

