-- ==== Sys2Proof/Syntax.lean ====
section
/-! DEFINITION. The commands: one constructor of `Instr` for each row of spec/opcode_table.json, in the
table's order. The table gives no row any bits; the operands are those the rule of each row names. -/

namespace Sys2Proof

/-- The start straps as a start reads them (section 2.1, R19). -/
structure Straps where
  number : Nat
  pump : Bool
  head : Bool
  rod : Bool
  record : Bool
  fastLink : Bool
  pitSensor : Bool
  deriving DecidableEq, Repr

/-- The two pump channels. -/
inductive PumpId where
  | a
  | b
  deriving DecidableEq, Repr

/-- The three threshold channels (R45). -/
inductive ThresholdId where
  | pressure
  | pit
  | ret
  deriving DecidableEq, Repr

/-- An edge of a stroke input (R48). -/
inductive Edge where
  | rising
  | falling
  deriving DecidableEq, Repr

/-- The two blocks that issue requests to peers: the sequencer (SPIN) and the rod unit (STRING_READ), R13. -/
inductive Issuer where
  | sequencer
  | rodUnit
  deriving DecidableEq, Repr

/-- Who sent a request, whether it was sent to 31, and its tag (R12, R173). -/
structure ReqHead where
  source : Nat
  toAll : Bool
  tag : Byte
  deriving DecidableEq, Repr

/-- The commands of the block. A Bool operand named `level` is the level an input has after its change
(log 8); `torn` says that an image was being written at that moment (log 11); `now` is a reading of the
station's millisecond clock (log 4). Request operands are as wide as section 11.4 sends them. -/
inductive Instr where
  | powerStart (straps : Straps)
  | pinStart (straps : Straps)
  | resetAssert (torn : Bool)
  | supplyLoss (torn : Bool)
  | lineQuiet (trailing : Bool)
  | frameReceived (bytes : List Byte)
  | accessDelayExpiry
  | deferral
  | collision
  | frameSent
  | rodEventJoin
  | lineStuck
  | statusPeriodExpiry
  | unknownRequest (rq : ReqHead) (code : Byte)
  | requestEntry (issuer : Issuer)
  | answerTimeout (tag : Byte)
  | peerStale (station : Nat)
  | identify (rq : ReqHead)
  | configSet (rq : ReqHead) (key : Bool) (item index : Byte) (value : BitVec 32)
  | configLock (rq : ReqHead)
  | statusRead (rq : ReqHead) (part : Byte)
  | faultClear (rq : ReqHead)
  | claimClear (rq : ReqHead) (station : Byte)
  | pumpRate (rq : ReqHead) (pump rate : Byte)
  | rackLoad (rq : ReqHead) (slot : Byte) (rod : BitVec 16)
  | rackUnload (rq : ReqHead) (slot : Byte)
  | stringRead (rq : ReqHead) (page : Byte)
  | rodOp (rq : ReqHead) (kind count : Byte)
  | rodAbort (rq : ReqHead)
  | rodResume (rq : ReqHead)
  | rodConfirm (rq : ReqHead) (rod : BitVec 16) (place slot hold : Byte)
  | spin (rq : ReqHead) (kind : Byte)
  | describe (rq : ReqHead) (interval : BitVec 16) (lithology cls source : Byte)
  | recordRead (rq : ReqHead) (selector : Byte) (index : BitVec 16)
  | downBegin (rq : ReqHead) (cause : Byte)
  | downEnd (rq : ReqHead)
  | additive (rq : ReqHead) (kind : Byte) (units : BitVec 16)
  | statementRead (rq : ReqHead) (part : Byte)
  | jobClose (rq : ReqHead) (mode : Byte)
  | jobClear (rq : ReqHead)
  | alarmAck (rq : ReqHead) (condition : Byte)
  | settleExpiry
  | listenWindowEnd
  | thresholdSample (channel : ThresholdId) (first second third fourth : Nat)
  | strokeEdge (pump : PumpId) (edge : Edge) (now : Nat)
  | strokeStoppedExpiry (pump : PumpId)
  | startTimerExpiry (pump : PumpId)
  | pwmPeriod (pump : PumpId)
  | strokesHoldoffExpiry (pump : PumpId)
  | waterPulse
  | balanceEvaluation
  | encoderCount (up : Bool)
  | topLimit (level : Bool)
  | rotationPulse (now : Nat)
  | rotationIdleTimeout
  | headHoldoffExpiry
  | clampClosed (level : Bool)
  | clampOpen (level : Bool)
  | slotCode (code : Nat)
  | rodPresented (level : Bool)
  | gripped (level : Bool)
  | slotOccupied (level : Bool)
  | stepTimerExpiry
  | spinDoneInput (level : Bool)
  | spinTimerExpiry
  | jobSecond
  | lineBusy
  | stopBitMissing
  | backupSupplyExhausted
  deriving DecidableEq, Repr

end Sys2Proof
end

