-- ==== Sys2Proof/Decode.lean ====
section
/-! DEFINITION. The table gives no row any bits (spec/opcode_table.json), so no word spells a command. -/

namespace Sys2Proof

/-- The command a word spells by the table's bits: none, since no row has bits (log 6). -/
def decodeTableWord (_ _ : Nat) : Option Instr := none

end Sys2Proof
end

