-- ==== Sys2Proof/Machine/Bytes.lean ====
section
/-! DEFINITION. Byte order (R172) and the 16-bit check (R6). -/

namespace Sys2Proof.Machine

/-- The low byte of a number. -/
def byteOf (n : Nat) : Byte := BitVec.ofNat 8 n

/-- `count` bytes of a number, low byte first (R172). -/
def leBytes : Nat → Nat → List Byte
  | 0, _ => []
  | count + 1, n => byteOf n :: leBytes count (n / 256)

/-- The number whose bytes these are, low byte first (R172). -/
def leNat : List Byte → Nat
  | [] => 0
  | b :: rest => b.toNat + 256 * leNat rest

/-- A flag: 1 when set (R172). -/
def bit (b : Bool) : Nat := if b then 1 else 0

/-- An absent optional field of `count` bytes: every bit one (R172). -/
def leOption (count : Nat) (n : Option Nat) : List Byte :=
  leBytes count (n.getD (256 ^ count - 1))

/-- One bit of the check: generator 0x1021, most significant bit first (R6). -/
def crcBit (crc : Nat) : Nat :=
  if crc < 32768 then crc * 2 else (crc * 2 % 65536) ^^^ 0x1021

/-- One byte of the check, taken most significant bit first (R6). -/
def crcByte (crc : Nat) (b : Nat) : Nat :=
  crcBit (crcBit (crcBit (crcBit (crcBit (crcBit (crcBit (crcBit (crc ^^^ (b * 256)))))))))

/-- The check carried on over bytes. The match has each byte's check computed before the next is taken, which keeps
it in the kernel's reach for a whole image. -/
def crcOver (crc : Nat) : List Byte → Nat
  | [] => crc
  | b :: rest =>
    match crcByte crc b.toNat with
    | 0 => crcOver 0 rest
    | n + 1 => crcOver (n + 1) rest

/-- The check over bytes in the order they are sent: starting value 0xFFFF, no reflection and no final
inversion (R6). -/
def crc16 (bytes : List Byte) : Nat := crcOver 0xFFFF bytes

/-- The bits of `n` from `lo` upward, `width` of them. -/
def field (lo width n : Nat) : Nat := n / 2 ^ lo % 2 ^ width

/-- The byte at a position, 0 beyond the end. -/
def byteAt (bytes : List Byte) (i : Nat) : Nat := ((bytes[i]?).getD 0).toNat

/-- The number of `count` bytes from a position, low byte first. -/
def natAt (bytes : List Byte) (i count : Nat) : Nat := leNat ((bytes.drop i).take count)

end Sys2Proof.Machine
end

