-- ==== Sys2Proof/Machine/Items.lean ====
section
/-! DEFINITION. The configuration items: the table of R24, their store, and the config digest (R25). -/

namespace Sys2Proof.Machine

/-- One entry of the store: an item code, an index and a value. -/
structure ItemValue where
  code : Nat
  index : Nat
  value : Nat
  deriving DecidableEq, Repr

/-- A row of R24's table: its index range, its value range and whether it is marked D. -/
structure ItemRow where
  indexLo : Nat
  indexHi : Nat
  lo : Nat
  hi : Nat
  digest : Bool
  deriving DecidableEq, Repr

namespace Item
/-! Item codes, numbered 1 to 51 in the order of the rows of R24 (R172). -/
abbrev statusPeriod : Nat := 1
abbrev answerTimeout : Nat := 2
abbrev accessLimitOff : Nat := 3
abbrev kindClass : Nat := 4
abbrev weight : Nat := 5
abbrev intervalLength : Nat := 6
abbrev collarDepth : Nat := 7
abbrev depthLimit : Nat := 8
abbrev assemblyLength : Nat := 9
abbrev rodDisplacement : Nat := 10
abbrev clampHeight : Nat := 11
abbrev mastTravel : Nat := 12
abbrev sectionCount : Nat := 13
abbrev sectionBottom : Nat := 14
abbrev holeCapacity : Nat := 15
abbrev annularCapacity : Nat := 16
abbrev typeCount : Nat := 17
abbrev typeLength : Nat := 18
abbrev typeWear : Nat := 19
abbrev typeCharge : Nat := 20
abbrev inventoryCount : Nat := 21
abbrev inventoryRod : Nat := 22
abbrev inventoryType : Nat := 23
abbrev inventoryTurns : Nat := 24
abbrev rackSlot : Nat := 25
abbrev feedPerCount : Nat := 26
abbrev pulsesPerTurn : Nat := 27
abbrev fitted : Nat := 28
abbrev strokeVolume : Nat := 29
abbrev yieldPercent : Nat := 30
abbrev startDuty : Nat := 31
abbrev pressureLimit : Nat := 32
abbrev edgePolarity : Nat := 33
abbrev pwmPeriod : Nat := 34
abbrev pitStep : Nat := 35
abbrev waterPerPulse : Nat := 36
abbrev lossThreshold : Nat := 37
abbrev gainThreshold : Nat := 38
abbrev totalLossConfirm : Nat := 39
abbrev jobNumber : Nat := 40
abbrev classRate : Nat := 41
abbrev bandCount : Nat := 42
abbrev bandBottom : Nat := 43
abbrev bandRate : Nat := 44
abbrev classPercent : Nat := 45
abbrev defaultClass : Nat := 46
abbrev additivePrice : Nat := 47
abbrev waterPrice : Nat := 48
abbrev ceiling : Nat := 49
abbrev conditionEnabled : Nat := 50
abbrev alarmDestination : Nat := 51
end Item

/-- R24's table: index range, value range and mark D of items 1 to 51, in order. An item without an index
has index 0 (R172). Enumerated values are coded in the order the table lists them (R172). -/
def itemRows : List ItemRow :=
  [⟨0, 0, 100, 2000, false⟩, ⟨0, 0, 100, 2000, false⟩, ⟨0, 0, 0, 1, false⟩, ⟨0, 3, 0, 1, false⟩,
   ⟨0, 2, 1, 8, false⟩,
   ⟨0, 0, 250, 5000, true⟩, ⟨0, 0, 0, 999000, true⟩, ⟨0, 0, 1, 1000000, true⟩, ⟨0, 0, 300, 20000, true⟩,
   ⟨0, 0, 100, 20000, true⟩, ⟨0, 0, 200, 2000, true⟩, ⟨0, 0, 1000, 15000, true⟩, ⟨0, 0, 1, 6, true⟩,
   ⟨1, 6, 1, 1000000, true⟩, ⟨1, 6, 1000, 250000, true⟩, ⟨1, 6, 500, 250000, true⟩,
   ⟨0, 0, 1, 4, true⟩, ⟨1, 4, 1000, 9000, true⟩, ⟨1, 4, 1, 65535, true⟩, ⟨1, 4, 0, 1000000, true⟩,
   ⟨0, 0, 0, 160, true⟩, ⟨1, 160, 1, 4095, true⟩, ⟨1, 160, 1, 4, true⟩, ⟨1, 160, 0, 4294967295, true⟩,
   ⟨0, 63, 0, 4095, true⟩] ++
  [⟨0, 0, 1, 20, false⟩, ⟨0, 0, 1, 8, false⟩,
   ⟨0, 1, 0, 1, false⟩, ⟨0, 1, 500, 40000, false⟩, ⟨0, 1, 50, 100, false⟩, ⟨0, 1, 1, 255, false⟩,
   ⟨0, 1, 1, 13, false⟩, ⟨0, 1, 0, 1, false⟩, ⟨0, 1, 20, 500, false⟩,
   ⟨0, 0, 1000, 200000, false⟩, ⟨0, 0, 1, 100000, false⟩, ⟨0, 0, 1000, 1000000, false⟩,
   ⟨0, 0, 1000, 1000000, false⟩, ⟨0, 0, 5, 60, false⟩,
   ⟨0, 0, 1, 65535, false⟩, ⟨0, 7, 0, 1000000, false⟩, ⟨0, 0, 1, 6, false⟩, ⟨1, 6, 1, 1000000, false⟩,
   ⟨1, 6, 0, 1000000, false⟩, ⟨1, 4, 50, 400, false⟩, ⟨0, 0, 1, 4, false⟩, ⟨0, 7, 0, 1000000, false⟩,
   ⟨0, 0, 0, 1000000, false⟩, ⟨0, 0, 0, 4294967295, false⟩,
   ⟨0, 14, 0, 1, false⟩, ⟨0, 0, 1, 31, false⟩]

/-- The row of an item code, or none for an unknown code. -/
def itemRow (code : Nat) : Option ItemRow := if code = 0 then none else itemRows[code - 1]?

/-- COLD values of items 1 to 51 that are the same at every index (R24); those of items 5 and 22 depend on
the index. -/
def coldValues : List Nat :=
  [250, 500, 0, 1, 0, 1000, 0, 1000000, 3000, 1450, 800, 7000, 1, 1000000, 31400, 25200, 1, 6000, 20000, 0,
   0, 0, 1, 0, 0, 1, 1, 0, 10000, 100, 64, 13, 0, 200, 25000, 10000, 30000, 30000, 20, 1, 0, 1, 1000000, 0,
   100, 1, 0, 0, 0, 1, 31]

/-- The value an item takes at a COLD start (R24). -/
def coldValue (code index : Nat) : Nat :=
  if code = Item.weight then (if index = 0 then 4 else if index = 1 then 2 else 1)
  else if code = Item.inventoryRod then index
  else coldValues.getD (code - 1) 0

/-- The store of items lists, in ascending order of code and index, the entries that differ from their COLD
value; every other entry holds its COLD value. -/
abbrev Items := List ItemValue

/-- The value of an entry. -/
def itemGet : Items → Nat → Nat → Nat
  | [], code, index => coldValue code index
  | e :: rest, code, index =>
    if e.code = code ∧ e.index = index then e.value else itemGet rest code index

/-- Whether an entry stands before another in the store. -/
def ItemValue.before (e : ItemValue) (code index : Nat) : Bool :=
  e.code < code || (e.code == code && e.index < index)

/-- An entry removed, so that it holds its COLD value. -/
def itemDrop (items : Items) (code index : Nat) : Items :=
  items.filter fun e => !(e.code == code && e.index == index)

/-- An entry placed in order. -/
def itemInsert : Items → ItemValue → Items
  | [], v => [v]
  | e :: rest, v => if e.before v.code v.index then e :: itemInsert rest v else v :: e :: rest

/-- An entry set to a value; setting the COLD value drops the entry. -/
def itemSet (items : Items) (code index value : Nat) : Items :=
  let dropped := itemDrop items code index
  if value = coldValue code index then dropped else itemInsert dropped ⟨code, index, value⟩

/-- How R23 takes an item: unknown code, outside a range, or taken. -/
inductive ItemCheck where
  | unknown
  | outside
  | taken
  deriving DecidableEq, Repr

/-- R23's tests of one item. -/
def itemCheck (code index value : Nat) : ItemCheck :=
  match itemRow code with
  | none => .unknown
  | some r =>
    if r.indexLo ≤ index ∧ index ≤ r.indexHi ∧ r.lo ≤ value ∧ value ≤ r.hi then .taken else .outside

/-- The entries of an item that are in use: of a counted set those up to its count (R23, R25). -/
def indicesInUse (items : Items) (code : Nat) (row : ItemRow) : List Nat :=
  if row.indexHi = 0 then [0]
  else if Item.sectionBottom ≤ code ∧ code ≤ Item.annularCapacity then
    (List.range (itemGet items Item.sectionCount 0)).map (· + 1)
  else if Item.typeLength ≤ code ∧ code ≤ Item.typeCharge then
    (List.range (itemGet items Item.typeCount 0)).map (· + 1)
  else if Item.inventoryRod ≤ code ∧ code ≤ Item.inventoryTurns then
    (List.range (itemGet items Item.inventoryCount 0)).map (· + 1)
  else (List.range (row.indexHi + 1 - row.indexLo)).map (· + row.indexLo)

/-- The bytes of one item in the digest: each entry in use, ascending, 4 bytes low byte first (R172). -/
def itemBytes (items : Items) (code : Nat) : List Byte :=
  match itemRow code with
  | none => []
  | some row =>
    if row.digest then (indicesInUse items code row).flatMap fun i => leBytes 4 (itemGet items code i) else []

/-- The config digest (R25): the check of R6 over the items marked D, in order of item code (R172). -/
def configDigest (items : Items) : Nat :=
  crc16 ((List.range 51).flatMap fun k => itemBytes items (k + 1))

/-- The digest of the COLD values; `coldDigest_eq` (Laws/Items.lean) shows that it is. -/
def coldDigest : Nat := 49732

end Sys2Proof.Machine
end

