-- ==== Sys2Proof/Machine/State.lean ====
section
/-! DEFINITION. Everything the manual gives the station, as plain data, and the station before its first
start. `ret` is the retained state (R20); the other blocks are not retained. A timer is the time it was set
to, or none while it does not run; its running out is a command (log 3). -/

namespace Sys2Proof.Machine

/-- A timer: the time it was set to (ms unless said otherwise), or none while stopped. -/
abbrev Timer := Option Nat

/-! ## Names of the manual -/

/-- The top-level states of chapter 2, and the two in which the station does not run: no main supply (R20)
and the reset line held asserted (R19). -/
inductive Mode where
  | off
  | resetHeld
  | startFault
  | config
  | run
  deriving DecidableEq, Repr

/-- R21. -/
inductive StartKind where
  | cold
  | warm
  deriving DecidableEq, Repr

/-- R21. -/
inductive StartSource where
  | power
  | pin
  deriving DecidableEq, Repr

/-- R146: NONE, OPEN, CLOSING, CLOSED. -/
inductive JobState where
  | noJob
  | opened
  | closing
  | closed
  deriving DecidableEq, Repr

/-- R146: NONE, PROCESSING, COMPLETE. -/
inductive CloseState where
  | noClose
  | processing
  | complete
  deriving DecidableEq, Repr

/-- R146. -/
inductive CloseKind where
  | normal
  | abrupt
  | timedOut
  deriving DecidableEq, Repr

/-- R30. -/
inductive ClaimKind where
  | connection
  | still
  deriving DecidableEq, Repr

/-- R30. -/
inductive ClaimPhase where
  | none
  | pending
  | active
  deriving DecidableEq, Repr

/-- A claim; with phase NONE it is no claim, whatever kind it names (R30). -/
structure Claim where
  kind : ClaimKind
  phase : ClaimPhase
  deriving DecidableEq, Repr

/-- No claim. -/
def Claim.absent : Claim := ⟨.connection, .none⟩

/-- R92: the string hangs from the head, or stands in the clamp. -/
inductive Hold where
  | hung
  | clamped
  deriving DecidableEq, Repr

/-- R92. -/
inductive HeadLatch where
  | free
  | latched
  deriving DecidableEq, Repr

/-- The string hold record (R92); `above` is a, the rods above the clamp, 0 or 1. -/
structure HoldRec where
  hold : Hold
  head : HeadLatch
  above : Bool
  deriving DecidableEq, Repr

/-- R52. -/
inductive PumpState where
  | stopped
  | starting
  | running
  | stopping
  | held
  | stalled
  deriving DecidableEq, Repr

/-- Section 5.4.1. -/
inductive BalState where
  | suspended
  | balanced
  | losing
  | totalLoss
  | gaining
  | flowing
  deriving DecidableEq, Repr

/-- R118. -/
inductive SpinState where
  | idle
  | running
  | done
  | failed
  | abandoned
  deriving DecidableEq, Repr

/-- R117. -/
inductive SpinKind where
  | make
  | break
  | latch
  | unlatch
  deriving DecidableEq, Repr

/-- R106. -/
inductive OpKind where
  | makeUp
  | breakOut
  deriving DecidableEq, Repr

/-- R124. -/
inductive OpResult where
  | complete
  | empty
  | aborted
  | confirmed
  | dropped
  deriving DecidableEq, Repr

/-- Hold and fault causes in the order of their codes (section 11.2). -/
inductive StopCause where
  | aborted
  | claimConflict
  | interrupted
  | silenced
  | pumpsNotDown
  | position
  | clamp
  | carousel
  | loader
  | grip
  | spin
  | noRod
  | stringFull
  | rackFull
  deriving DecidableEq, Repr

/-- Sequencer states as STATUS shows them (R124). -/
inductive SeqShown where
  | idle
  | waitClaim
  | claiming
  | waitPumps
  | waitPosition
  | clamp
  | fetch
  | spin
  | grip
  | store
  | release
  | hold
  | fault
  deriving DecidableEq, Repr

/-- R90. -/
inductive RodState where
  | offRig
  | rack
  | string
  | loader
  | retired
  deriving DecidableEq, Repr

/-- R96. -/
inductive RodEventKind where
  | added
  | removed
  | rackLoaded
  | rackUnloaded
  | retired
  | holdChanged
  | confirmed
  deriving DecidableEq, Repr

/-- The place a ROD_CONFIRM names (R122, section 11.3). -/
inductive Place where
  | offRig
  | slot
  | loader
  | stringTop
  deriving DecidableEq, Repr

/-- R7, section 11.1. -/
inductive FrameKind where
  | status
  | strokes
  | head
  | rodEvent
  | claim
  | alarm
  | request
  | answer
  deriving DecidableEq, Repr

/-- The result codes of section 1.5, in order. -/
inductive ResultCode where
  | done
  | accepted
  | busy
  | claimed
  | noRole
  | range
  | state
  | locked
  | full
  | notFound
  | unknown
  deriving DecidableEq, Repr

/-- R16. -/
inductive FaultKind where
  | collision
  | duplicateStation
  | accessDrop
  | lineStuck
  | urgentDrop
  | requestTimeout
  | configMismatch
  deriving DecidableEq, Repr

/-- The fifteen alarm conditions, in the order of section 10.1. -/
inductive AlarmCond where
  | loss
  | totalLoss
  | water
  | pressureHigh
  | pumpStall
  | sequenceHold
  | claimConflict
  | staleClaim
  | linkFault
  | configMismatch
  | rodViewUnsure
  | sampleUntracked
  | depthLimit
  | ceilingNear
  | ceilingReached
  deriving DecidableEq, Repr

/-- Sample states of an interval (R128). -/
inductive SampleState where
  | none
  | inTransit
  | surfaced
  | lost
  | untracked
  deriving DecidableEq, Repr

/-- Who described an interval (R136). -/
inductive DescSource where
  | driller
  | sample
  deriving DecidableEq, Repr

/-- Zone kinds (R138). -/
inductive ZoneKind where
  | loss
  | totalLoss
  | water
  deriving DecidableEq, Repr

/-- Mark kinds (R138). -/
inductive MarkKind where
  | powerGap
  | service
  | downBegin
  | downEnd
  | close
  deriving DecidableEq, Repr

/-- The transmit queues (R8). -/
inductive QueueId where
  | urgent
  | rig
  | exchange
  | bulk
  deriving DecidableEq, Repr

/-! ## Contents of frames -/

/-- The role set. -/
structure Roles where
  pump : Bool
  head : Bool
  rod : Bool
  record : Bool
  deriving DecidableEq, Repr

/-- R63. -/
structure PumpSummary where
  state : PumpState
  fitted : Bool
  stopped : Bool
  target : Nat
  spm : Nat
  deriving DecidableEq, Repr

/-- R83: the figures only a pit station's STATUS carries. -/
structure BalanceFigures where
  state : BalState
  ret : Option Nat
  lost : Nat
  gained : Nat
  deriving DecidableEq, Repr

/-- R124: the last-op record. -/
structure LastOp where
  kind : OpKind
  result : OpResult
  requester : Option Nat
  queued : Option Nat
  deriving DecidableEq, Repr

/-- R124: count remaining and requester of the op queue's head entry. -/
structure HeadEntry where
  count : Nat
  requester : Nat
  deriving DecidableEq, Repr

/-- What a STATUS frame carries (R7, section 11.2). -/
structure StatusMsg where
  roles : Roles
  startKind : StartKind
  startSource : StartSource
  job : JobState
  digest : Nat
  pumpA : PumpSummary
  pumpB : PumpSummary
  lastOp : Option LastOp
  balance : Option BalanceFigures
  seq : SeqShown
  step : Option Nat
  cause : Option StopCause
  entries : Nat
  headEntry : Option HeadEntry
  claim : Claim
  eventNo : Nat
  stringCount : Nat
  stringLength : Nat
  hold : HoldRec
  water : Nat
  active : Nat
  pending : Nat
  unitKind : Option OpKind
  deriving DecidableEq, Repr

/-- What a STROKES frame carries (R62). -/
structure StrokesMsg where
  pump : PumpId
  count : Nat
  volume : Nat
  spm : Nat
  deriving DecidableEq, Repr

/-- What a HEAD frame carries (R88, section 11.3). -/
structure HeadMsg where
  h : Nat
  known : Bool
  permit : Bool
  spin : SpinState
  turns : Nat
  spinTurns : Nat
  rpm : Nat
  number : Nat
  owner : Option Nat
  kind : Option SpinKind
  deriving DecidableEq, Repr

/-- What a ROD_EVENT frame carries (R95, section 11.3). -/
structure RodEventMsg where
  number : Nat
  kind : RodEventKind
  rod : Option Nat
  slot : Option Nat
  place : Option Place
  count : Nat
  length : Nat
  hold : HoldRec
  deriving DecidableEq, Repr

/-! ## Link unit and peer table -/

/-- A frame handed to the link unit: its counts and its sequence number travel with it (R2, R3). `pump` is
the pump of a STROKES frame, by which R9 merges. -/
structure TxFrame where
  kind : FrameKind
  dest : Nat
  urgent : Bool
  pump : Option PumpId
  payload : List Byte
  attempts : Nat
  collisions : Nat
  seq : Option Nat
  deriving DecidableEq, Repr

/-- The frame in hand (R2, R10): its queue, whether it is being sent, and its access delay in slots while
that delay runs. -/
structure InHand where
  queue : QueueId
  frame : TxFrame
  sending : Bool
  delay : Timer
  deriving DecidableEq, Repr

/-- What the receiver has gathered since the line was QUIET (R1). -/
inductive RxPhase where
  | idle
  | gathering
  | complete
  | trailing
  deriving DecidableEq, Repr

/-- A request in the intake queue (R12, R173): its argument bytes are kept as received. -/
structure Request where
  source : Nat
  toAll : Bool
  tag : Nat
  code : Nat
  args : List Byte
  deriving DecidableEq, Repr

/-- An entry of the outstanding request table (R13). -/
structure OutEntry where
  dest : Nat
  tag : Nat
  code : Nat
  issued : Nat
  deriving DecidableEq, Repr

/-- The fields of a latched fault record (R16). -/
structure FaultFields where
  kind : FaultKind
  peer : Option Nat
  frame : Option FrameKind
  seqTag : Option Nat
  jobTime : Nat
  deriving DecidableEq, Repr

/-- The count for each fault kind, 0 to 255, saturating (R16). -/
structure FaultCounts where
  collision : Nat
  duplicateStation : Nat
  accessDrop : Nat
  lineStuck : Nat
  urgentDrop : Nat
  requestTimeout : Nat
  configMismatch : Nat
  deriving DecidableEq, Repr

/-- The link unit (chapter 1). -/
structure Link where
  lineBusy : Bool
  stuck : Bool
  rx : RxPhase
  urgent : List TxFrame
  rig : List TxFrame
  exchange : List TxFrame
  bulk : List TxFrame
  rodWait : List TxFrame
  inHand : Option InHand
  arbQueue : QueueId
  arbCount : Nat
  ownSeq : Nat
  tagCounter : Nat
  intake : List Request
  outstanding : List OutEntry
  rxErrors : Nat
  answerDrops : Nat
  unmatched : Nat
  fault : Option FaultFields
  more : Bool
  counts : FaultCounts
  listenOnly : Bool
  statusTimer : Timer
  deriving DecidableEq, Repr

/-- The stored count and credit baseline of one peer pump (R15, R67). -/
structure PeerStrokes where
  last : Option Nat
  baseline : Bool
  deriving DecidableEq, Repr

/-- The entry of a heard peer (R14, R15). `headFresh`: a HEAD frame came since it last became fresh (R89).
`differed`: its last compared digest differed from the own (log 17). -/
structure PeerEntry where
  station : Nat
  stale : Bool
  lastSeq : Nat
  gaps : Nat
  silence : Timer
  status : Option StatusMsg
  claim : Claim
  strokesA : PeerStrokes
  strokesB : PeerStrokes
  head : Option HeadMsg
  headFresh : Bool
  differed : Bool
  deriving DecidableEq, Repr

/-! ## The other blocks -/

/-- The claim unit, but for the own claim, which is retained (R31, R32, R40). `listen` is the window's
length in ms. -/
structure ClaimUnit where
  takeRequest : Bool
  settle : Timer
  listen : Timer
  deriving DecidableEq, Repr

/-- One threshold channel (R45, R46). -/
structure Threshold where
  last : Option Nat
  accepted : Nat
  known : Bool
  timer : Timer
  deriving DecidableEq, Repr

/-- The threshold inputs. -/
structure Thresholds where
  pressure : Threshold
  pit : Threshold
  ret : Threshold
  deriving DecidableEq, Repr

/-- One pump channel (R48 to R62). `lastEdge` is the time of the last accepted edge and `refValid` its mark
as a period reference; `high` is the high time of the present PWM period in tenths of a ms; `holdoff` is the
200 ms since the last STROKES frame, `callKept` a kept call; `limit` is the pressure limit step in force, taken
at the last period capture or on entry to RUN (R28, R60). -/
structure PumpChannel where
  state : PumpState
  target : Nat
  applied : Nat
  staged : Nat
  high : Nat
  startTimer : Timer
  highCount : Nat
  pressureHigh : Bool
  spm : Nat
  period : Nat
  lastEdge : Option Nat
  refValid : Bool
  strokeStopped : Bool
  stoppedTimer : Timer
  holdoff : Timer
  callKept : Bool
  effVolume : Nat
  limit : Nat
  deriving DecidableEq, Repr

/-- The pump unit. -/
structure Pumps where
  a : PumpChannel
  b : PumpChannel
  deriving DecidableEq, Repr

/-- The reference of the balance (R75). -/
structure BalRef where
  pit : Nat
  water : Nat
  hole : Nat
  bit : Nat
  deriving DecidableEq, Repr

/-- The trackers (R76). `noReturn` is the time in seconds the no-return timer has run. -/
structure Trackers where
  lossRun : Nat
  gainRun : Nat
  noReturn : Option Nat
  flow : Nat
  restore : Nat
  dry : Nat
  quiet : Nat
  deriving DecidableEq, Repr

/-- Circulation accounting, but for its retained state (R70, R73, R76). -/
structure CircUnit where
  heardReturn : Option Nat
  heardSource : Option Nat
  heardStale : Bool
  evalTimer : Timer
  trackers : Trackers
  deriving DecidableEq, Repr

/-- The depth unit, but for its retained state (R86 to R94, R101). `lastHanded` is the position in the last
HEAD frame handed. -/
structure DepthUnit where
  h : Nat
  headKnown : Bool
  pulses : Nat
  turnRef : Option Nat
  rpm : Nat
  idleTimer : Timer
  holdoff : Timer
  callKept : Bool
  lastHanded : Option Nat
  bitDepth : Option Nat
  onBottom : Bool
  headSource : Option Nat
  wear : Option (Nat × Nat)
  deriving DecidableEq, Repr

/-- One rod record (R90). `slot` is a rack slot as location; a string position is the rod's place in
`Retained.string`. -/
structure Rod where
  id : Nat
  type : Nat
  turns : Nat
  state : RodState
  due : Bool
  slot : Option Nat
  deriving DecidableEq, Repr

/-- The page request of a resynchronisation (R100): none, waiting for room (R13), or issued; `drop` marks
one whose answer is to be discarded. -/
inductive PageRequest where
  | none
  | waiting (dest page : Nat)
  | sent (dest tag : Nat) (drop : Bool)
  deriving DecidableEq, Repr

/-- The resynchronisation (R100). `again`: it begins again at the next status period. -/
structure Resync where
  nextPage : Nat
  scratch : List Nat
  firstEvent : Option Nat
  again : Bool
  request : PageRequest
  deriving DecidableEq, Repr

/-- The rod unit's view state (R97, R98), used at a station without the ROD role. -/
structure RodUnit where
  sure : Bool
  source : Option Nat
  lagCount : Nat
  held : List RodEventMsg
  resync : Resync
  deriving DecidableEq, Repr

/-- An entry of the op queue (R106). -/
structure OpEntry where
  kind : OpKind
  count : Nat
  requester : Nat
  queued : Nat
  deriving DecidableEq, Repr

/-- The sequencer's state (R107, R119). -/
inductive SeqState where
  | idle
  | waitClaim
  | claiming
  | running
  | hold (cause : StopCause)
  | fault (cause : StopCause)
  deriving DecidableEq, Repr

/-- The phase of the running step: its first phase, its second (FETCH, STORE), or waiting for its frames to
join a queue (R9, R113, R115). -/
inductive StepPhase where
  | first
  | second
  | ending
  deriving DecidableEq, Repr

/-- The spin request of a SPIN step (R116). -/
inductive SpinRequest where
  | none
  | waiting (dest : Nat) (kind : SpinKind)
  | sent (dest tag : Nat)
  | accepted (station number : Nat)
  deriving DecidableEq, Repr

/-- The unit record (R125). `moved`: a step of this unit has driven the clamp (R120, log 22). -/
structure UnitRec where
  kind : OpKind
  step : Nat
  rod : Option Nat
  slot : Option Nat
  moved : Bool
  deriving DecidableEq, Repr

/-- The sequencer, but for the unit record and the maintained outputs, which are retained. `aborted`: the
unit is marked aborted (R120); `emptied`: ROD_ABORT emptied the queue during the unit (R107). Neither mark is retained
(log 22). -/
structure Sequencer where
  queue : List OpEntry
  state : SeqState
  phase : StepPhase
  timer : Timer
  spin : SpinRequest
  index : Bool
  present : Bool
  store : Bool
  retract : Bool
  aborted : Bool
  emptied : Bool
  lastOp : Option LastOp
  deriving DecidableEq, Repr

/-- The SPIN service and the rotation permit output (R118, R42). -/
structure SpinService where
  state : SpinState
  number : Nat
  owner : Option Nat
  kind : Option SpinKind
  timer : Timer
  makeOut : Bool
  breakOut : Bool
  permit : Bool
  deriving DecidableEq, Repr

/-- A last effective volume (R141). -/
structure LastVolume where
  station : Nat
  pump : PumpId
  volume : Nat
  deriving DecidableEq, Repr

/-- The strata unit, but for its records. -/
structure StrataUnit where
  lastVolumes : List LastVolume
  deriving DecidableEq, Repr

/-- The billing unit, but for its retained state (R147, R157). -/
structure BillingUnit where
  jobTimer : Timer
  near : Bool
  reached : Bool
  deriving DecidableEq, Repr

/-- The active and pending flags of the alarm unit, bit n for condition n (R166, section 11.2). -/
structure AlarmUnit where
  active : BitVec 15
  pending : BitVec 15
  deriving DecidableEq, Repr

/-- The flags of an interval (R130). -/
structure IntervalFlags where
  inLoss : Bool
  totalLoss : Bool
  water : Bool
  gap : Bool
  coarse : Bool
  afterWarm : Bool
  depthUnsure : Bool
  deriving DecidableEq, Repr

/-- An interval record (R128). -/
structure Interval where
  index : Nat
  closedTime : Option Nat
  seconds : Nat
  turns : Nat
  rop : Option Nat
  meanRpm : Option Nat
  loss : Nat
  gain : Nat
  flags : IntervalFlags
  sample : SampleState
  sampleTime : Option Nat
  lithology : Option Nat
  cls : Option Nat
  source : Option DescSource
  provisional : Option Nat
  current : Option Nat
  deriving DecidableEq, Repr

/-- A tag of the lag queue (R134). -/
structure LagTag where
  index : Nat
  mark : Nat
  depth : Nat
  time : Nat
  deriving DecidableEq, Repr

/-- An entry of the zone-and-mark list (R138). An open zone has no bottom. -/
inductive ZoneEntry where
  | zone (kind : ZoneKind) (top : Nat) (bottom : Option Nat) (openTime : Nat) (closeTime : Option Nat)
      (volume : Nat)
  | mark (kind : MarkKind) (depth time code : Nat)
  deriving DecidableEq, Repr

/-- An adjustment (R153). -/
structure Adjustment where
  index : Nat
  oldClass : Nat
  newClass : Nat
  oldCharge : Nat
  newCharge : Nat
  time : Nat
  describer : Nat
  afterClose : Bool
  deriving DecidableEq, Repr

/-- The figures of the statement (R163), but those that stay live in CLOSED. -/
structure Statement where
  jobNumber : Nat
  job : JobState
  close : CloseState
  closeKind : Option CloseKind
  closingSeconds : Nat
  jobTime : Nat
  meters : List Nat
  unsure : Nat
  down : Bool
  timeCharges : List Nat
  closedFootage : Nat
  sumProvisional : Nat
  sumCurrent : Nat
  overFootage : Nat
  overCharge : Nat
  units : List Nat
  additiveCharge : Nat
  billedWater : Nat
  waterCharge : Nat
  retirements : List Nat
  retirementCharge : Nat
  total : Nat
  ceiling : Nat
  near : Bool
  reached : Bool
  overCeiling : Bool
  deriving DecidableEq, Repr

/-- The straps recorded at CONFIG_LOCK (R27). -/
structure Recorded where
  number : Nat
  roles : Roles
  pit : Bool
  deriving DecidableEq, Repr

/-- The retained state: what one image holds (R20). -/
structure Retained where
  recorded : Option Recorded
  items : Items
  digest : Nat
  claim : Claim
  strokesA : Nat
  strokesB : Nat
  pumped : Nat
  water : Nat
  lost : Nat
  gained : Nat
  balState : BalState
  reference : Option BalRef
  turns : Nat
  spinTurns : Nat
  hole : Nat
  rods : List Rod
  string : List Nat
  hold : HoldRec
  eventNo : Nat
  carousel : Nat
  unit : Option UnitRec
  clampOut : Bool
  gripOut : Bool
  intervals : List Interval
  lag : List LagTag
  zones : List ZoneEntry
  unrecorded : Nat
  job : JobState
  close : CloseState
  closeKind : Option CloseKind
  closingSeconds : Nat
  jobTime : Nat
  meters : List Nat
  unsure : Nat
  down : Bool
  closedFootage : Nat
  sumProvisional : Nat
  sumCurrent : Nat
  adjustments : List Adjustment
  droppedAdj : Nat
  units : List Nat
  billedWater : Nat
  retirements : List Nat
  additions : Nat
  reductions : Nat
  overCeiling : Bool
  frozen : Option Statement
  deriving DecidableEq, Repr

/-- One of the two images (R20): a complete copy of the retained state, its number and its check value
(log 11). -/
structure Image where
  content : Retained
  number : Nat
  check : Nat
  deriving DecidableEq, Repr

/-- R20. -/
inductive ImageId where
  | first
  | second
  deriving DecidableEq, Repr

/-- The input pins that keep a level (section 11.7). -/
structure Pins where
  serviceKey : Bool
  clampClosed : Bool
  clampOpen : Bool
  slotCode : Nat
  rodPresented : Bool
  gripped : Bool
  slotOccupied : Bool
  topLimit : Bool
  spinDone : Bool
  deriving DecidableEq, Repr

/-- The field outputs (section 11.7); `driveA` and `driveB` are the high times of the present PWM period. -/
structure Outputs where
  driveA : Nat
  driveB : Nat
  permit : Bool
  makeDir : Bool
  breakDir : Bool
  clamp : Bool
  grip : Bool
  index : Bool
  present : Bool
  store : Bool
  retract : Bool
  horn : Bool
  deriving DecidableEq, Repr

end Sys2Proof.Machine

namespace Sys2Proof.Machine

/-- The machine. `pending` is the queue of waiting commands; `clockMs` the latest time stamp (log 4);
`lastWrite` the image the step before wrote, after a COLD start the second (logs 11, 73). -/
structure State where
  pending : List Instr
  mode : Mode
  clockMs : Nat
  lastWrite : Option ImageId
  straps : Straps
  startKind : StartKind
  startSource : StartSource
  pins : Pins
  outs : Outputs
  first : Image
  second : Image
  ret : Retained
  link : Link
  peers : List PeerEntry
  claims : ClaimUnit
  thresholds : Thresholds
  pumps : Pumps
  circ : CircUnit
  depth : DepthUnit
  rod : RodUnit
  seq : Sequencer
  spin : SpinService
  strata : StrataUnit
  billing : BillingUnit
  alarm : AlarmUnit
  deriving DecidableEq, Repr

/-- No command stops the machine with a fault: what the manual calls faults are records and states of the
station (INVENTORY, Faults). The type has no constructor. -/
inductive Fault where
  deriving DecidableEq, Repr

/-- The refusals. -/
inductive Refusal where
  /-- Raised by `exec` for a command without a meaning; no command is left so. Safe: the machine stops. -/
  | notModelled (mnemonic : String)
  deriving DecidableEq, Repr

/-! ## Start values -/

/-- Eight zero counts. -/
def zeros8 : List Nat := [0, 0, 0, 0, 0, 0, 0, 0]

/-- The retained state of COLD defaults with job state NONE (R21, R24, R43, R64, R85, R105, R126, R145,
R165). The hold record before a lock is the model's (log 2). -/
def Retained.cold : Retained where
  recorded := none
  items := []
  digest := coldDigest
  claim := .absent
  strokesA := 0
  strokesB := 0
  pumped := 0
  water := 0
  lost := 0
  gained := 0
  balState := .suspended
  reference := none
  turns := 0
  spinTurns := 0
  hole := 0
  rods := []
  string := []
  hold := ⟨.clamped, .free, false⟩
  eventNo := 0
  carousel := 0
  unit := none
  clampOut := false
  gripOut := false
  intervals := []
  lag := []
  zones := []
  unrecorded := 0
  job := .noJob
  close := .noClose
  closeKind := none
  closingSeconds := 0
  jobTime := 0
  meters := zeros8
  unsure := 0
  down := false
  closedFootage := 0
  sumProvisional := 0
  sumCurrent := 0
  adjustments := []
  droppedAdj := 0
  units := zeros8
  billedWater := 0
  retirements := [0, 0, 0, 0]
  additions := 0
  reductions := 0
  overCeiling := false
  frozen := none

/-- The link unit after any start (R18); the status period timer is started by the start. -/
def Link.start : Link where
  lineBusy := true
  stuck := false
  rx := .idle
  urgent := []
  rig := []
  exchange := []
  bulk := []
  rodWait := []
  inHand := none
  arbQueue := .rig
  arbCount := 0
  ownSeq := 0
  tagCounter := 0
  intake := []
  outstanding := []
  rxErrors := 0
  answerDrops := 0
  unmatched := 0
  fault := none
  more := false
  counts := ⟨0, 0, 0, 0, 0, 0, 0⟩
  listenOnly := false
  statusTimer := none

/-- R43. -/
def ClaimUnit.start : ClaimUnit := ⟨false, none, none⟩

/-- R47. -/
def Threshold.start : Threshold := ⟨none, 0, false, none⟩

/-- R64; the effective volume and the limit in force are computed on entry to RUN (log 31), and the period is
0 before the first capture (log 47). -/
def PumpChannel.start : PumpChannel where
  state := .stopped
  target := 0
  applied := 0
  staged := 0
  high := 0
  startTimer := none
  highCount := 0
  pressureHigh := false
  spm := 0
  period := 0
  lastEdge := none
  refValid := false
  strokeStopped := true
  stoppedTimer := none
  holdoff := none
  callKept := false
  effVolume := 0
  limit := 0

/-- R76: every tracker clear. -/
def Trackers.clear : Trackers := ⟨0, 0, none, 0, 0, 0, 0⟩

/-- R85. -/
def CircUnit.start : CircUnit := ⟨none, none, false, none, .clear⟩

/-- R105. -/
def DepthUnit.start : DepthUnit where
  h := 0
  headKnown := false
  pulses := 0
  turnRef := none
  rpm := 0
  idleTimer := none
  holdoff := none
  callKept := false
  lastHanded := none
  bitDepth := none
  onBottom := false
  headSource := none
  wear := none

/-- R100: a resynchronisation that begins. -/
def Resync.begin : Resync := ⟨0, [], none, false, .none⟩

/-- R98, R105. -/
def RodUnit.start : RodUnit := ⟨false, none, 0, [], .begin⟩

/-- R126. -/
def Sequencer.start : Sequencer :=
  ⟨[], .idle, .first, none, .none, false, false, false, false, false, false, none⟩

/-- R118. -/
def SpinService.start : SpinService := ⟨.idle, 0, none, none, none, false, false, false⟩

/-- Every field output de-asserted (R19, R22). -/
def Outputs.off : Outputs :=
  ⟨0, 0, false, false, false, false, false, false, false, false, false, false⟩

/-- The station before its first start: no main supply has come up, and neither retained image is good
(log 1). A run begins with POWER_START. -/
def State.reset : State where
  pending := []
  mode := .off
  clockMs := 0
  lastWrite := none
  straps := ⟨0, false, false, false, false, false, false⟩
  startKind := .cold
  startSource := .power
  pins := ⟨false, false, false, 0, false, false, false, false, false⟩
  outs := .off
  first := ⟨.cold, 0, 0⟩
  second := ⟨.cold, 0, 0⟩
  ret := .cold
  link := .start
  peers := []
  claims := .start
  thresholds := ⟨.start, .start, .start⟩
  pumps := ⟨.start, .start⟩
  circ := .start
  depth := .start
  rod := .start
  seq := .start
  spin := .start
  strata := ⟨[]⟩
  billing := ⟨none, false, false⟩
  alarm := ⟨0, 0⟩

end Sys2Proof.Machine
end

