-- ==== Sys2Proof/Machine/Codes.lean ====
section
/-! DEFINITION. The codes of enumerated fields: from 0 upward in the order the manual lists the values, but
where section 11 gives others (R172). `ofCode` answers none for a code that names none of the values. -/

namespace Sys2Proof.Machine

def pumpCode : PumpId → Nat
  | .a => 0
  | .b => 1

def pumpOfCode : Nat → Option PumpId
  | 0 => some .a
  | 1 => some .b
  | _ => none

def StartKind.code : StartKind → Nat
  | .cold => 0
  | .warm => 1

def StartKind.ofCode (n : Nat) : StartKind := if n = 0 then .cold else .warm

def StartSource.code : StartSource → Nat
  | .power => 0
  | .pin => 1

def StartSource.ofCode (n : Nat) : StartSource := if n = 0 then .power else .pin

def JobState.code : JobState → Nat
  | .noJob => 0
  | .opened => 1
  | .closing => 2
  | .closed => 3

def JobState.ofCode : Nat → Option JobState
  | 0 => some .noJob
  | 1 => some .opened
  | 2 => some .closing
  | 3 => some .closed
  | _ => none

def CloseState.code : CloseState → Nat
  | .noClose => 0
  | .processing => 1
  | .complete => 2

def CloseKind.code : CloseKind → Nat
  | .normal => 0
  | .abrupt => 1
  | .timedOut => 2

def ClaimKind.code : ClaimKind → Nat
  | .connection => 0
  | .still => 1

def ClaimKind.ofCode : Nat → Option ClaimKind
  | 0 => some .connection
  | 1 => some .still
  | _ => none

def ClaimPhase.code : ClaimPhase → Nat
  | .none => 0
  | .pending => 1
  | .active => 2

def ClaimPhase.ofCode : Nat → Option ClaimPhase
  | 0 => some .none
  | 1 => some .pending
  | 2 => some .active
  | _ => Option.none

def Hold.code : Hold → Nat
  | .hung => 0
  | .clamped => 1

def Hold.ofCode (n : Nat) : Hold := if n = 0 then .hung else .clamped

def HeadLatch.code : HeadLatch → Nat
  | .free => 0
  | .latched => 1

def HeadLatch.ofCode (n : Nat) : HeadLatch := if n = 0 then .free else .latched

/-- The hold record in three bits: hold, head, rods above clamp (section 11.2). -/
def HoldRec.code (r : HoldRec) : Nat := r.hold.code + 2 * r.head.code + 4 * bit r.above

def HoldRec.ofCode (n : Nat) : HoldRec :=
  ⟨.ofCode (field 0 1 n), .ofCode (field 1 1 n), field 2 1 n == 1⟩

def PumpState.code : PumpState → Nat
  | .stopped => 0
  | .starting => 1
  | .running => 2
  | .stopping => 3
  | .held => 4
  | .stalled => 5

def PumpState.ofCode : Nat → Option PumpState
  | 0 => some .stopped
  | 1 => some .starting
  | 2 => some .running
  | 3 => some .stopping
  | 4 => some .held
  | 5 => some .stalled
  | _ => none

def BalState.code : BalState → Nat
  | .suspended => 0
  | .balanced => 1
  | .losing => 2
  | .totalLoss => 3
  | .gaining => 4
  | .flowing => 5

def BalState.ofCode : Nat → Option BalState
  | 0 => some .suspended
  | 1 => some .balanced
  | 2 => some .losing
  | 3 => some .totalLoss
  | 4 => some .gaining
  | 5 => some .flowing
  | _ => none

def SpinState.code : SpinState → Nat
  | .idle => 0
  | .running => 1
  | .done => 2
  | .failed => 3
  | .abandoned => 4

def SpinState.ofCode : Nat → Option SpinState
  | 0 => some .idle
  | 1 => some .running
  | 2 => some .done
  | 3 => some .failed
  | 4 => some .abandoned
  | _ => none

def SpinKind.code : SpinKind → Nat
  | .make => 0
  | .break => 1
  | .latch => 2
  | .unlatch => 3

def SpinKind.ofCode : Nat → Option SpinKind
  | 0 => some .make
  | 1 => some .break
  | 2 => some .latch
  | 3 => some .unlatch
  | _ => none

def OpKind.code : OpKind → Nat
  | .makeUp => 0
  | .breakOut => 1

def OpKind.ofCode : Nat → Option OpKind
  | 0 => some .makeUp
  | 1 => some .breakOut
  | _ => none

def OpResult.code : OpResult → Nat
  | .complete => 0
  | .empty => 1
  | .aborted => 2
  | .confirmed => 3
  | .dropped => 4

def OpResult.ofCode : Nat → Option OpResult
  | 0 => some .complete
  | 1 => some .empty
  | 2 => some .aborted
  | 3 => some .confirmed
  | 4 => some .dropped
  | _ => none

def StopCause.code : StopCause → Nat
  | .aborted => 0
  | .claimConflict => 1
  | .interrupted => 2
  | .silenced => 3
  | .pumpsNotDown => 4
  | .position => 5
  | .clamp => 6
  | .carousel => 7
  | .loader => 8
  | .grip => 9
  | .spin => 10
  | .noRod => 11
  | .stringFull => 12
  | .rackFull => 13

def StopCause.ofCode : Nat → Option StopCause
  | 0 => some .aborted
  | 1 => some .claimConflict
  | 2 => some .interrupted
  | 3 => some .silenced
  | 4 => some .pumpsNotDown
  | 5 => some .position
  | 6 => some .clamp
  | 7 => some .carousel
  | 8 => some .loader
  | 9 => some .grip
  | 10 => some .spin
  | 11 => some .noRod
  | 12 => some .stringFull
  | 13 => some .rackFull
  | _ => none

def SeqShown.code : SeqShown → Nat
  | .idle => 0
  | .waitClaim => 1
  | .claiming => 2
  | .waitPumps => 3
  | .waitPosition => 4
  | .clamp => 5
  | .fetch => 6
  | .spin => 7
  | .grip => 8
  | .store => 9
  | .release => 10
  | .hold => 11
  | .fault => 12

def SeqShown.ofCode : Nat → Option SeqShown
  | 0 => some .idle
  | 1 => some .waitClaim
  | 2 => some .claiming
  | 3 => some .waitPumps
  | 4 => some .waitPosition
  | 5 => some .clamp
  | 6 => some .fetch
  | 7 => some .spin
  | 8 => some .grip
  | 9 => some .store
  | 10 => some .release
  | 11 => some .hold
  | 12 => some .fault
  | _ => none

def RodEventKind.code : RodEventKind → Nat
  | .added => 0
  | .removed => 1
  | .rackLoaded => 2
  | .rackUnloaded => 3
  | .retired => 4
  | .holdChanged => 5
  | .confirmed => 6

def RodEventKind.ofCode : Nat → Option RodEventKind
  | 0 => some .added
  | 1 => some .removed
  | 2 => some .rackLoaded
  | 3 => some .rackUnloaded
  | 4 => some .retired
  | 5 => some .holdChanged
  | 6 => some .confirmed
  | _ => none

def Place.code : Place → Nat
  | .offRig => 0
  | .slot => 1
  | .loader => 2
  | .stringTop => 3

def Place.ofCode : Nat → Option Place
  | 0 => some .offRig
  | 1 => some .slot
  | 2 => some .loader
  | 3 => some .stringTop
  | _ => none

def FrameKind.code : FrameKind → Nat
  | .status => 0
  | .strokes => 1
  | .head => 2
  | .rodEvent => 3
  | .claim => 4
  | .alarm => 5
  | .request => 6
  | .answer => 7

def FrameKind.ofCode : Nat → Option FrameKind
  | 0 => some .status
  | 1 => some .strokes
  | 2 => some .head
  | 3 => some .rodEvent
  | 4 => some .claim
  | 5 => some .alarm
  | 6 => some .request
  | 7 => some .answer
  | _ => none

def ResultCode.code : ResultCode → Nat
  | .done => 0
  | .accepted => 1
  | .busy => 2
  | .claimed => 3
  | .noRole => 4
  | .range => 5
  | .state => 6
  | .locked => 7
  | .full => 8
  | .notFound => 9
  | .unknown => 10

def FaultKind.code : FaultKind → Nat
  | .collision => 0
  | .duplicateStation => 1
  | .accessDrop => 2
  | .lineStuck => 3
  | .urgentDrop => 4
  | .requestTimeout => 5
  | .configMismatch => 6

def AlarmCond.code : AlarmCond → Nat
  | .loss => 0
  | .totalLoss => 1
  | .water => 2
  | .pressureHigh => 3
  | .pumpStall => 4
  | .sequenceHold => 5
  | .claimConflict => 6
  | .staleClaim => 7
  | .linkFault => 8
  | .configMismatch => 9
  | .rodViewUnsure => 10
  | .sampleUntracked => 11
  | .depthLimit => 12
  | .ceilingNear => 13
  | .ceilingReached => 14

/-- The fifteen conditions in the order of section 10.1. -/
def AlarmCond.all : List AlarmCond :=
  [.loss, .totalLoss, .water, .pressureHigh, .pumpStall, .sequenceHold, .claimConflict, .staleClaim,
   .linkFault, .configMismatch, .rodViewUnsure, .sampleUntracked, .depthLimit, .ceilingNear, .ceilingReached]

def AlarmCond.ofCode (n : Nat) : Option AlarmCond := AlarmCond.all[n]?

/-- In the order of R90. -/
def RodState.code : RodState → Nat
  | .offRig => 0
  | .rack => 1
  | .string => 2
  | .loader => 3
  | .retired => 4

def SampleState.code : SampleState → Nat
  | .none => 0
  | .inTransit => 1
  | .surfaced => 2
  | .lost => 3
  | .untracked => 4

def DescSource.code : DescSource → Nat
  | .driller => 0
  | .sample => 1

def DescSource.ofCode : Nat → Option DescSource
  | 0 => some .driller
  | 1 => some .sample
  | _ => none

def ZoneKind.code : ZoneKind → Nat
  | .loss => 0
  | .totalLoss => 1
  | .water => 2

/-- Marks follow the zones in the entry kinds of section 11.5. -/
def MarkKind.code : MarkKind → Nat
  | .powerGap => 3
  | .service => 4
  | .downBegin => 5
  | .downEnd => 6
  | .close => 7

/-- The role set in four bits: PUMP, HEAD, ROD, RECORD (section 11.2). -/
def Roles.code (r : Roles) : Nat := bit r.pump + 2 * bit r.head + 4 * bit r.rod + 8 * bit r.record

def Roles.ofCode (n : Nat) : Roles :=
  ⟨field 0 1 n == 1, field 1 1 n == 1, field 2 1 n == 1, field 3 1 n == 1⟩

/-- The flags of an interval, bits 0 to 6 in the order of R128 (section 11.5). -/
def IntervalFlags.code (f : IntervalFlags) : Nat :=
  bit f.inLoss + 2 * bit f.totalLoss + 4 * bit f.water + 8 * bit f.gap + 16 * bit f.coarse +
    32 * bit f.afterWarm + 64 * bit f.depthUnsure

end Sys2Proof.Machine
end

