-- ==== Sys2Proof/Machine/Images.lean ====
section
/-! DEFINITION. The bytes of the records of section 11.5, and the check value of a retained image (R20). The
manual gives the check and not the layout of an image: the bytes an image is checked over are the model's own
(log 11). -/

namespace Sys2Proof.Machine

/-! ## Records (section 11.5) -/

/-- An interval record, 40 bytes. -/
def Interval.data (iv : Interval) : List Byte :=
  leBytes 2 iv.index ++ leOption 4 iv.closedTime ++ leBytes 2 iv.seconds ++ leBytes 4 iv.turns ++
    leOption 3 iv.rop ++ leOption 2 iv.meanRpm ++ leBytes 4 iv.loss ++ leBytes 4 iv.gain ++
    [byteOf iv.flags.code,
     byteOf (iv.sample.code + 8 * iv.cls.getD 7 + 64 * (iv.source.map (·.code)).getD 3)] ++
    leOption 1 iv.lithology ++ leOption 4 iv.sampleTime ++ leOption 4 iv.provisional ++ leOption 4 iv.current

/-- An entry's bytes 4 to 26. -/
def ZoneEntry.data : ZoneEntry → List Byte
  | .zone kind top bottom opened closed volume =>
    [byteOf kind.code, byteOf (bit bottom.isNone)] ++ leBytes 4 top ++ leBytes 4 opened ++
      leOption 4 bottom ++ leOption 4 closed ++ leBytes 4 volume ++ [0]
  | .mark kind depth time code =>
    [byteOf kind.code, 255] ++ leBytes 4 depth ++ leBytes 4 time ++ leOption 4 none ++ leOption 4 none ++
      leBytes 4 code ++ [0]

/-! ## The bytes of an image (log 11) -/

/-- A list: its length and its entries. -/
def listBytes {α : Type} (f : α → List Byte) (l : List α) : List Byte := leBytes 2 l.length ++ l.flatMap f

/-- What may be absent: a mark, and the bytes when it is there. -/
def someBytes {α : Type} (f : α → List Byte) : Option α → List Byte
  | none => [0]
  | some a => byteOf 1 :: f a

def Recorded.bytes (r : Recorded) : List Byte := [byteOf r.number, byteOf (r.roles.code + 16 * bit r.pit)]

def ItemValue.bytes (v : ItemValue) : List Byte := [byteOf v.code, byteOf v.index] ++ leBytes 4 v.value

def BalRef.bytes (b : BalRef) : List Byte := leBytes 4 b.pit ++ leBytes 4 b.water ++ leBytes 4 b.hole ++ leBytes 4 b.bit

def Rod.bytes (d : Rod) : List Byte :=
  leBytes 2 d.id ++ [byteOf d.type] ++ leBytes 4 d.turns ++ [byteOf (d.state.code + 8 * bit d.due)] ++ leOption 1 d.slot

def UnitRec.bytes (u : UnitRec) : List Byte :=
  [byteOf (u.kind.code + 2 * bit u.moved), byteOf u.step] ++ leOption 2 u.rod ++ leOption 1 u.slot

def LagTag.bytes (t : LagTag) : List Byte :=
  leBytes 2 t.index ++ leBytes 6 t.mark ++ leBytes 4 t.depth ++ leBytes 4 t.time

def Adjustment.bytes (a : Adjustment) : List Byte :=
  leBytes 2 a.index ++ [byteOf (a.oldClass + 8 * a.newClass + 64 * bit a.afterClose)] ++ leBytes 4 a.oldCharge ++
    leBytes 4 a.newCharge ++ leBytes 4 a.time ++ [byteOf a.describer]

def Statement.bytes (f : Statement) : List Byte :=
  leBytes 2 f.jobNumber ++
    [byteOf (f.job.code + 4 * f.close.code + 16 * (f.closeKind.map (·.code)).getD 3 + 64 * bit f.down)] ++
    leBytes 2 f.closingSeconds ++ leBytes 4 f.jobTime ++ f.meters.flatMap (leBytes 4) ++ leBytes 4 f.unsure ++
    f.timeCharges.flatMap (leBytes 4) ++ leBytes 4 f.closedFootage ++ leBytes 4 f.sumProvisional ++
    leBytes 4 f.sumCurrent ++ leBytes 4 f.overFootage ++ leBytes 4 f.overCharge ++ f.units.flatMap (leBytes 4) ++
    leBytes 4 f.additiveCharge ++ leBytes 4 f.billedWater ++ leBytes 4 f.waterCharge ++
    f.retirements.flatMap (leBytes 2) ++ leBytes 4 f.retirementCharge ++ leBytes 4 f.total ++ leBytes 4 f.ceiling ++
    [byteOf (bit f.near + 2 * bit f.reached + 4 * bit f.overCeiling)]

/-- The retained state, field by field in the order of `Retained`. -/
def Retained.bytes (r : Retained) : List Byte :=
  someBytes Recorded.bytes r.recorded ++ listBytes ItemValue.bytes r.items ++ leBytes 2 r.digest ++
    [byteOf (r.claim.kind.code + 2 * r.claim.phase.code)] ++ leBytes 4 r.strokesA ++ leBytes 4 r.strokesB ++
    leBytes 6 r.pumped ++ leBytes 4 r.water ++ leBytes 4 r.lost ++ leBytes 4 r.gained ++ [byteOf r.balState.code] ++
    someBytes BalRef.bytes r.reference ++ leBytes 4 r.turns ++ leBytes 4 r.spinTurns ++ leBytes 4 r.hole ++
    listBytes Rod.bytes r.rods ++ listBytes (leBytes 2) r.string ++ [byteOf r.hold.code] ++ leBytes 2 r.eventNo ++
    [byteOf r.carousel] ++ someBytes UnitRec.bytes r.unit ++ [byteOf (bit r.clampOut + 2 * bit r.gripOut)] ++
    listBytes Interval.data r.intervals ++ listBytes LagTag.bytes r.lag ++ listBytes ZoneEntry.data r.zones ++
    leBytes 2 r.unrecorded ++
    [byteOf (r.job.code + 4 * r.close.code + 16 * (r.closeKind.map (·.code)).getD 3 + 64 * bit r.down)] ++
    leBytes 2 r.closingSeconds ++ leBytes 4 r.jobTime ++ r.meters.flatMap (leBytes 4) ++ leBytes 4 r.unsure ++
    leBytes 4 r.closedFootage ++ leBytes 4 r.sumProvisional ++ leBytes 4 r.sumCurrent ++
    listBytes Adjustment.bytes r.adjustments ++ leBytes 2 r.droppedAdj ++ r.units.flatMap (leBytes 4) ++
    leBytes 4 r.billedWater ++ r.retirements.flatMap (leBytes 2) ++ leBytes 4 r.additions ++ leBytes 4 r.reductions ++
    [byteOf (bit r.overCeiling)] ++ someBytes Statement.bytes r.frozen

/-! ## The check value (R20) -/

/-- The check value of an image: the check of R6 over its number and its content. -/
def imageCheck (content : Retained) (number : Nat) : Nat := crc16 (leBytes 2 number ++ content.bytes)

/-- An image whose check value has been written (R20). -/
def Image.written (content : Retained) (number : Nat) : Image := ⟨content, number, imageCheck content number⟩

/-- A good image: its check value agrees (R20). -/
def Image.good (i : Image) : Bool := i.check == imageCheck i.content i.number

/-- An image whose write was cut off, or that the backup supply did not hold: its check value fails (R20). The
value that then stands there is the model's (log 11). -/
def Image.failed (i : Image) : Image := { i with check := (imageCheck i.content i.number + 1) % 65536 }

end Sys2Proof.Machine
end

