-- ==== Sys2Proof/Config.lean ====
section
/-! DEFINITION. What silicon revision 3 fixes (R29) and the capacities the manual gives its lists. The
settings a rig chooses are the configuration items (R24, Machine/Items.lean), which are State. The manual
leaves no result value undefined, so there is no free value here. -/

namespace Sys2Proof.Config

/-- R29. -/
abbrev vendorCode : Nat := 0x0A3D
/-- R29. -/
abbrev partCode : Nat := 0x0410
/-- R29. -/
abbrev siliconRevision : Nat := 3

/-- R8. -/
abbrev urgentRoom : Nat := 8
/-- R8. -/
abbrev rigRoom : Nat := 16
/-- R8. -/
abbrev exchangeRoom : Nat := 8
/-- R8. -/
abbrev bulkRoom : Nat := 4
/-- R12. -/
abbrev intakeRoom : Nat := 8
/-- R13. -/
abbrev outstandingRoom : Nat := 4
/-- R106. -/
abbrev opRoom : Nat := 8
/-- R91. -/
abbrev stringRoom : Nat := 128
/-- R91. -/
abbrev rackSlots : Nat := 64
/-- R98. -/
abbrev heldRoom : Nat := 8
/-- R134. -/
abbrev lagRoom : Nat := 32
/-- R138. -/
abbrev zoneRoom : Nat := 96
/-- R153. -/
abbrev adjustmentRoom : Nat := 128

end Sys2Proof.Config
end

