-- ==== Sys2Proof/Machine/Frames.lean ====
section
/-! DEFINITION. The byte layouts of frames (sections 11.1 to 11.4): what each kind's payload holds, the
payload read back, and the tests of R6 that make a received frame good. The reading of the absent codes
R6 tests is log 16; a field whose own range reaches the all-ones code has no absent form and is taken as it stands
(DESIGN CHOICE, log 62). -/

namespace Sys2Proof.Machine

/-! ## STATUS (section 11.2) -/

/-- State, fitted and stroke-stopped of a pump summary, bits 0 to 4. -/
def PumpSummary.bits (p : PumpSummary) : Nat := p.state.code + 8 * bit p.fitted + 16 * bit p.stopped

def PumpSummary.ofBits (n target spm : Nat) : Option PumpSummary :=
  (PumpState.ofCode (field 0 3 n)).map fun st => ⟨st, field 3 1 n == 1, field 4 1 n == 1, target, spm⟩

/-- Bytes 11 to 13 as one number. -/
def StatusMsg.bits11 (m : StatusMsg) : Nat :=
  (m.headEntry.map (·.count)).getD 63 + 2 ^ 6 * (m.headEntry.map (·.requester)).getD 31 +
    2 ^ 11 * ((m.lastOp.bind (·.requester)).getD 31) + 2 ^ 16 * ((m.balance.bind (·.ret)).getD 31) +
    2 ^ 21 * m.claim.phase.code + 2 ^ 23 * m.claim.kind.code

/-- The payload of a STATUS frame. -/
def encodeStatus (m : StatusMsg) : List Byte :=
  [byteOf (m.roles.code + 16 * m.startKind.code + 32 * m.startSource.code + 64 * m.job.code)] ++
  leBytes 2 m.digest ++
  [byteOf (m.pumpA.bits + 32 * (m.lastOp.map (·.result.code)).getD 7),
   byteOf m.pumpA.target, byteOf m.pumpA.spm,
   byteOf (m.pumpB.bits + 32 * (m.balance.map (·.state.code)).getD 7),
   byteOf m.pumpB.target, byteOf m.pumpB.spm,
   byteOf (m.seq.code + 16 * m.step.getD 15),
   byteOf ((m.cause.map (·.code)).getD 15 + 16 * m.entries)] ++
  leBytes 3 m.bits11 ++
  leOption 4 (m.lastOp.bind (·.queued)) ++
  leBytes 2 m.eventNo ++
  [byteOf m.stringCount] ++
  leBytes 3 (m.stringLength + 2 ^ 21 * m.hold.code) ++
  leOption 4 (m.balance.map (·.lost)) ++ leOption 4 (m.balance.map (·.gained)) ++
  leBytes 4 m.water ++
  leBytes 2 (m.active + 2 ^ 15 * (m.unitKind.map (·.code)).getD 1) ++
  leBytes 2 (m.pending + 2 ^ 15 * (m.lastOp.map (·.kind.code)).getD 1)

/-- The last-op record of a payload: absent with result 7; a result that names no value is an error. -/
def decodeLastOp (p : List Byte) : Option (Option LastOp) :=
  let result := field 5 3 (byteAt p 3)
  let requester := field 11 5 (natAt p 11 3)
  if result = 7 then some none
  else
    match OpResult.ofCode result, OpKind.ofCode (field 15 1 (natAt p 38 2)) with
    | some r, some k =>
      if requester = 31 then some (some ⟨k, r, none, none⟩)
      else some (some ⟨k, r, some requester, some (natAt p 14 4)⟩)
    | _, _ => none

/-- The balance figures of a payload: absent with balance state 7 (R83). -/
def decodeBalance (p : List Byte) : Option (Option BalanceFigures) :=
  let state := field 5 3 (byteAt p 6)
  let ret := field 16 5 (natAt p 11 3)
  if state = 7 then some none
  else (BalState.ofCode state).map fun st =>
    some ⟨st, if ret = 31 then none else some ret, natAt p 24 4, natAt p 28 4⟩

/-- The step number: absent when IDLE; it may be absent in HOLD, and nowhere else (log 16). -/
def decodeStep (seq : SeqShown) (n : Nat) : Option (Option Nat) :=
  if seq = .idle then some none
  else if n = 15 then (if seq = .hold then some none else none)
  else some (some n)

/-- The hold or fault cause: present in HOLD and FAULT only (R124). -/
def decodeCause (seq : SeqShown) (n : Nat) : Option (Option StopCause) :=
  if seq = .hold ∨ seq = .fault then (StopCause.ofCode n).map some
  else if n = 15 ∨ (StopCause.ofCode n).isSome then some none
  else none

/-- The head entry: absent when the number of entries is 0. The number of entries cannot be absent. -/
def decodeHeadEntry (entries count requester : Nat) : Option (Option HeadEntry) :=
  if entries = 0 then some none
  else if entries = 15 ∨ count = 63 ∨ requester = 31 then none
  else some (some ⟨count, requester⟩)

/-- A STATUS payload read back; none when R6 fails it. DESIGN CHOICE (log 62): a digest of 0xFFFF, a measured spm of
255, an event number of 65,535 and totals of 2^32 − 1 are values. -/
def decodeStatus (p : List Byte) : Option StatusMsg :=
  if p.length ≠ 40 ∨ byteAt p 4 = 255 ∨ byteAt p 7 = 255 ∨ byteAt p 20 = 255 ∨
      field 0 21 (natAt p 21 3) = 2097151 then none
  else do
    let job ← JobState.ofCode (field 6 2 (byteAt p 0))
    let pumpA ← PumpSummary.ofBits (field 0 5 (byteAt p 3)) (byteAt p 4) (byteAt p 5)
    let pumpB ← PumpSummary.ofBits (field 0 5 (byteAt p 6)) (byteAt p 7) (byteAt p 8)
    let lastOp ← decodeLastOp p
    let balance ← decodeBalance p
    let seq ← SeqShown.ofCode (field 0 4 (byteAt p 9))
    let step ← decodeStep seq (field 4 4 (byteAt p 9))
    let cause ← decodeCause seq (field 0 4 (byteAt p 10))
    let entries := field 4 4 (byteAt p 10)
    let headEntry ← decodeHeadEntry entries (field 0 6 (natAt p 11 3)) (field 6 5 (natAt p 11 3))
    let phase ← ClaimPhase.ofCode (field 21 2 (natAt p 11 3))
    let kind ← ClaimKind.ofCode (field 23 1 (natAt p 11 3))
    let unitBit ← OpKind.ofCode (field 15 1 (natAt p 36 2))
    pure
      { roles := Roles.ofCode (field 0 4 (byteAt p 0))
        startKind := StartKind.ofCode (field 4 1 (byteAt p 0))
        startSource := StartSource.ofCode (field 5 1 (byteAt p 0))
        job := job
        digest := natAt p 1 2
        pumpA := pumpA
        pumpB := pumpB
        lastOp := lastOp
        balance := balance
        seq := seq
        step := step
        cause := cause
        entries := entries
        headEntry := headEntry
        claim := ⟨kind, phase⟩
        eventNo := natAt p 18 2
        stringCount := byteAt p 20
        stringLength := field 0 21 (natAt p 21 3)
        hold := HoldRec.ofCode (field 21 3 (natAt p 21 3))
        water := natAt p 32 4
        active := field 0 15 (natAt p 36 2)
        pending := field 0 15 (natAt p 38 2)
        unitKind := if step.isSome then some unitBit else none }

/-! ## STROKES, HEAD, ROD_EVENT, CLAIM, ALARM (section 11.3) -/

/-- The payload of a STROKES frame. -/
def encodeStrokes (m : StrokesMsg) : List Byte :=
  [byteOf (pumpCode m.pump)] ++ leBytes 4 m.count ++ leBytes 2 m.volume ++ [byteOf m.spm]

/-- A STROKES payload read back; the effective volume cannot be absent (the other fields: log 62). -/
def decodeStrokes (p : List Byte) : Option StrokesMsg :=
  if p.length ≠ 8 ∨ natAt p 5 2 = 65535 then none
  else (pumpOfCode (byteAt p 0)).map fun pump => ⟨pump, natAt p 1 4, natAt p 5 2, byteAt p 7⟩

/-- The payload of a HEAD frame. -/
def encodeHead (m : HeadMsg) : List Byte :=
  leBytes 2 m.h ++ [byteOf (bit m.known + 2 * bit m.permit + 4 * m.spin.code)] ++
  leBytes 4 m.turns ++ leBytes 4 m.spinTurns ++
  [byteOf m.rpm, byteOf m.number, byteOf (m.owner.getD 31), byteOf ((m.kind.map (·.code)).getD 255)]

/-- The spin kind: absent at IDLE, and only there. -/
def decodeSpinKind (spin : SpinState) (n : Nat) : Option (Option SpinKind) :=
  if n = 255 then (if spin = .idle then some none else none)
  else (SpinKind.ofCode n).map fun k => if spin = .idle then none else some k

/-- A HEAD payload read back; h, rpm (0 to 254) and the spin owner (31 for none) cannot be absent (turns and spin
number: log 62). -/
def decodeHead (p : List Byte) : Option HeadMsg :=
  if p.length ≠ 15 ∨ natAt p 0 2 = 65535 ∨ byteAt p 11 = 255 ∨ byteAt p 13 = 255 then none
  else do
    let spin ← SpinState.ofCode (field 2 3 (byteAt p 2))
    let kind ← decodeSpinKind spin (byteAt p 14)
    pure
      { h := natAt p 0 2
        known := field 0 1 (byteAt p 2) == 1
        permit := field 1 1 (byteAt p 2) == 1
        spin := spin
        turns := natAt p 3 4
        spinTurns := natAt p 7 4
        rpm := byteAt p 11
        number := byteAt p 12
        owner := if byteAt p 13 = 31 then none else some (byteAt p 13)
        kind := kind }

/-- The payload of a ROD_EVENT frame. -/
def encodeRodEvent (m : RodEventMsg) : List Byte :=
  leBytes 2 m.number ++ [byteOf m.kind.code] ++ leOption 2 m.rod ++ leOption 1 m.slot ++
  [byteOf ((m.place.map (·.code)).getD 255), byteOf m.count] ++ leBytes 3 m.length ++ [byteOf m.hold.code]

/-- The place: read for CONFIRMED only, where it may be absent only with the rod absent (DESIGN CHOICE, log 65). -/
def decodePlace (kind : RodEventKind) (rod : Option Nat) (n : Nat) : Option (Option Place) :=
  if n = 255 then (if kind = .confirmed ∧ rod.isSome then none else some none)
  else (Place.ofCode n).map fun p => if kind = .confirmed then some p else none

/-- Whether each field of the event that cannot be absent is present (R95, R96, log 16). -/
def eventFieldsPresent (kind : RodEventKind) (rod slot : Option Nat) (place : Option Place) : Bool :=
  match kind with
  | .added => rod.isSome
  | .removed => rod.isSome
  | .rackLoaded => rod.isSome && slot.isSome
  | .rackUnloaded => rod.isSome && slot.isSome
  | .retired => rod.isSome
  | .holdChanged => true
  | .confirmed => rod.isNone || place != some .slot || slot.isSome

/-- A ROD_EVENT payload read back; the event number can be any (log 62). A hold record outside R92 is no failure
here (R172, R97). -/
def decodeRodEvent (p : List Byte) : Option RodEventMsg :=
  if p.length ≠ 12 ∨ byteAt p 7 = 255 ∨ natAt p 8 3 = 16777215 then none
  else do
    let kind ← RodEventKind.ofCode (byteAt p 2)
    let rod := if natAt p 3 2 = 65535 then none else some (natAt p 3 2)
    let slot := if byteAt p 5 = 255 then none else some (byteAt p 5)
    let place ← decodePlace kind rod (byteAt p 6)
    if eventFieldsPresent kind rod slot place then
      pure
        { number := natAt p 0 2
          kind := kind
          rod := rod
          slot := slot
          place := place
          count := byteAt p 7
          length := natAt p 8 3
          hold := HoldRec.ofCode (field 0 3 (byteAt p 11)) }
    else none

/-- The payload of a CLAIM frame. -/
def encodeClaim (c : Claim) : List Byte := [byteOf c.kind.code, byteOf c.phase.code]

/-- A CLAIM payload read back. -/
def decodeClaim (p : List Byte) : Option Claim :=
  if p.length ≠ 2 then none
  else do
    let kind ← ClaimKind.ofCode (byteAt p 0)
    let phase ← ClaimPhase.ofCode (byteAt p 1)
    pure ⟨kind, phase⟩

/-- The payload of an ALARM frame: condition, RAISED 0 or CLEARED 1, H and job time. -/
def encodeAlarm (c : AlarmCond) (raised : Bool) (hole jobTime : Nat) : List Byte :=
  [byteOf c.code, byteOf (if raised then 0 else 1)] ++ leBytes 4 hole ++ leBytes 4 jobTime

/-- Whether an ALARM payload is one: its condition and state name values, and H is present (the job time: log 62). -/
def alarmPayloadGood (p : List Byte) : Bool :=
  p.length == 10 && decide (byteAt p 0 < 15) && decide (byteAt p 1 < 2) && natAt p 2 4 != 4294967295

/-! ## The frame (section 11.1) -/

/-- The body of a good frame. -/
inductive RxBody where
  | status (m : StatusMsg)
  | strokes (m : StrokesMsg)
  | head (m : HeadMsg)
  | rodEvent (m : RodEventMsg)
  | claim (c : Claim)
  | alarm
  | request (tag code : Nat) (args : List Byte)
  | answer (tag result : Nat) (data : List Byte)
  deriving DecidableEq, Repr

/-- A good frame. -/
structure RxFrame where
  source : Nat
  dest : Nat
  kind : FrameKind
  seq : Nat
  body : RxBody
  deriving DecidableEq, Repr

/-- The payload of a kind read back; for REQUEST and ANSWER at least 2 bytes (R6, R173). -/
def decodeBody (kind : FrameKind) (p : List Byte) : Option RxBody :=
  match kind with
  | .status => (decodeStatus p).map .status
  | .strokes => (decodeStrokes p).map .strokes
  | .head => (decodeHead p).map .head
  | .rodEvent => (decodeRodEvent p).map .rodEvent
  | .claim => (decodeClaim p).map .claim
  | .alarm => if alarmPayloadGood p then some .alarm else none
  | .request => if p.length < 2 then none else some (.request (byteAt p 0) (byteAt p 1) (p.drop 2))
  | .answer =>
    if p.length < 2 then none else some (.answer (byteAt p 0) (field 0 4 (byteAt p 1)) (p.drop 2))

/-- A frame as it goes on the line: header, payload and check, low byte first (R6, section 11.1). -/
def wireFrame (source : Nat) (f : TxFrame) (seq : Nat) : List Byte :=
  let body := [byteOf (if f.urgent then 0 else 1), byteOf source, byteOf f.dest, byteOf f.kind.code,
    byteOf seq, byteOf f.payload.length] ++ f.payload
  body ++ leBytes 2 (crc16 body)

/-- The tests of R6, with the frame's length against its payload-length field (R1). -/
def decodeFrame (bytes : List Byte) : Option RxFrame :=
  let n := byteAt bytes 5
  if n > 40 ∨ bytes.length ≠ n + 8 ∨ natAt bytes (n + 6) 2 ≠ crc16 (bytes.take (n + 6)) ∨
      byteAt bytes 1 = 0 ∨ byteAt bytes 1 > 30 ∨ byteAt bytes 2 = 0 ∨ byteAt bytes 2 > 31 then none
  else do
    let kind ← FrameKind.ofCode (byteAt bytes 3)
    let body ← decodeBody kind ((bytes.drop 6).take n)
    pure ⟨byteAt bytes 1, byteAt bytes 2, kind, byteAt bytes 4, body⟩

end Sys2Proof.Machine
end

