-- ==== Sys2Proof/Machine/Ops.lean ====
section
/-! DEFINITION. What every block reads (configuration, roles, the claim view) and the link unit: fault
record, transmit queues, arbiter, requests and answers (chapter 1). The link unit's operations act on `Link`
alone, so that a frame handed over changes nothing else. -/

namespace Sys2Proof.Machine

/-! ## What every block reads -/

/-- The value of a configuration item (R24). -/
def State.cfg (s : State) (item index : Nat) : Nat := itemGet s.ret.items item index

/-- The station's own status period in ms (R7). -/
def State.statusPeriod (s : State) : Nat := s.cfg Item.statusPeriod 0

/-- The station runs: CONFIG or RUN. -/
def State.powered (s : State) : Bool := s.mode == .config || s.mode == .run

/-- The station is in RUN. -/
def State.inRun (s : State) : Bool := s.mode == .run

/-- The strapped role set (R19). -/
def State.roles (s : State) : Roles := ⟨s.straps.pump, s.straps.head, s.straps.rod, s.straps.record⟩

/-- The pit station (R19). -/
def State.isPit (s : State) : Bool := s.straps.pump && s.straps.pitSensor

/-- The entry of a peer, if it is heard (R14). -/
def State.peer? (s : State) (station : Nat) : Option PeerEntry :=
  s.peers.find? fun p => p.station == station

/-- A peer holds a role when its last STATUS named it (R15). -/
def PeerEntry.has (p : PeerEntry) (f : Roles → Bool) : Bool := p.status.any fun m => f m.roles

/-- A claim of the view, with its station and stale mark (R37). -/
structure ViewClaim where
  station : Nat
  kind : ClaimKind
  phase : ClaimPhase
  stale : Bool
  deriving DecidableEq, Repr

/-- The claims of other stations in the view (R37). -/
def State.otherClaims (s : State) : List ViewClaim :=
  (s.peers.filter fun p => p.claim.phase != .none).map fun p =>
    ⟨p.station, p.claim.kind, p.claim.phase, p.stale⟩

/-- The claim view (R37): the own claim and every other station's last claim. -/
def State.claimView (s : State) : List ViewClaim :=
  (if s.ret.claim.phase = .none then []
   else [⟨s.straps.number, s.ret.claim.kind, s.ret.claim.phase, false⟩]) ++ s.otherClaims

/-- The view holds a claim (R37). -/
def State.viewHolds (s : State) : Bool := !s.claimView.isEmpty

/-- Job time for the fault record: 0 when there is no open job (R16). DESIGN CHOICE (log 55): *no open job* is job
state NONE, so a record that latches in CLOSED takes the job time at which the job ended. -/
def State.faultTime (s : State) : Nat := if s.ret.job = .noJob then 0 else s.ret.jobTime

/-! ## The link unit -/

/-- What the link unit reads of the station: its number, the weights of R10, *access limit off* (R2) and the
job time for the fault record. -/
structure LinkEnv where
  own : Nat
  weightRig : Nat
  weightExchange : Nat
  weightBulk : Nat
  limitOff : Bool
  jobTime : Nat
  deriving DecidableEq, Repr

def State.linkEnv (s : State) : LinkEnv :=
  { own := s.straps.number
    weightRig := s.cfg Item.weight 0
    weightExchange := s.cfg Item.weight 1
    weightBulk := s.cfg Item.weight 2
    limitOff := s.cfg Item.accessLimitOff 0 == 1
    jobTime := s.faultTime }

/-- An operation of the link unit, applied to the station. -/
def State.onLink (s : State) (f : LinkEnv → Link → Link) : State :=
  { s with link := f s.linkEnv s.link }

/-- R16: a count increased by one, saturating at 255. -/
def FaultCounts.bump (c : FaultCounts) : FaultKind → FaultCounts
  | .collision => { c with collision := satAdd 255 c.collision 1 }
  | .duplicateStation => { c with duplicateStation := satAdd 255 c.duplicateStation 1 }
  | .accessDrop => { c with accessDrop := satAdd 255 c.accessDrop 1 }
  | .lineStuck => { c with lineStuck := satAdd 255 c.lineStuck 1 }
  | .urgentDrop => { c with urgentDrop := satAdd 255 c.urgentDrop 1 }
  | .requestTimeout => { c with requestTimeout := satAdd 255 c.requestTimeout 1 }
  | .configMismatch => { c with configMismatch := satAdd 255 c.configMismatch 1 }

/-- A fault is recorded (R16): its count rises; an unlatched record latches with these fields, a latched one
keeps them and sets MORE. -/
def Link.record (e : LinkEnv) (kind : FaultKind) (peer : Option Nat) (frame : Option FrameKind)
    (seqTag : Option Nat) (l : Link) : Link :=
  match l.fault with
  | none => { l with counts := l.counts.bump kind, fault := some ⟨kind, peer, frame, seqTag, e.jobTime⟩ }
  | some _ => { l with counts := l.counts.bump kind, more := true }

/-- A broken or failed frame counted (R1, R6). -/
def Link.rxError (l : Link) : Link := { l with rxErrors := satAdd 255 l.rxErrors 1 }

def Link.queue (l : Link) : QueueId → List TxFrame
  | .urgent => l.urgent
  | .rig => l.rig
  | .exchange => l.exchange
  | .bulk => l.bulk

def Link.setQueue (l : Link) (q : QueueId) (fs : List TxFrame) : Link :=
  match q with
  | .urgent => { l with urgent := fs }
  | .rig => { l with rig := fs }
  | .exchange => { l with exchange := fs }
  | .bulk => { l with bulk := fs }

/-- The room of a queue (R8). -/
def QueueId.room : QueueId → Nat
  | .urgent => Config.urgentRoom
  | .rig => Config.rigRoom
  | .exchange => Config.exchangeRoom
  | .bulk => Config.bulkRoom

/-- A queue's count: the frame in hand keeps its place in it (R8). -/
def Link.count (l : Link) (q : QueueId) : Nat :=
  (l.queue q).length + (if l.inHand.any fun h => h.queue == q then 1 else 0)

/-- The queue a ROD_EVENT frame joins. -/
def TxFrame.eventQueue (f : TxFrame) : QueueId := if f.urgent then .urgent else .rig

/-- A frame handed now finds room: beside the frames of the queue, the places that waiting ROD_EVENT frames are
about to take count as taken (R9, log 45). -/
def Link.hasRoom (l : Link) (q : QueueId) : Bool :=
  decide (l.count q + (l.rodWait.filter fun f => f.eventQueue == q).length < q.room)

/-- The access delay of a frame in slots (R2). -/
def accessDelay (own : Nat) (f : TxFrame) : Nat := (if f.urgent then 0 else 32) + own

/-- A frame taken in hand; its delay starts at once if the line is QUIET (R2). -/
def Link.take (e : LinkEnv) (q : QueueId) (f : TxFrame) (l : Link) : Link :=
  { l with inHand := some ⟨q, f, false, if l.lineBusy then none else some (accessDelay e.own f)⟩ }

def LinkEnv.weight (e : LinkEnv) : QueueId → Nat
  | .urgent => 0
  | .rig => e.weightRig
  | .exchange => e.weightExchange
  | .bulk => e.weightBulk

/-- The cyclic order RIG, EXCHANGE, BULK, RIG of R10, from the queue after the current one. -/
def QueueId.cycle : QueueId → List QueueId
  | .urgent => [.rig, .exchange, .bulk]
  | .rig => [.exchange, .bulk, .rig]
  | .exchange => [.bulk, .rig, .exchange]
  | .bulk => [.rig, .exchange, .bulk]

/-- The arbiter's choice (R10), made whenever there is no frame in hand. -/
def Link.arbitrate (e : LinkEnv) (l : Link) : Link :=
  match l.inHand, l.urgent with
  | some _, _ => l
  | none, f :: rest => ({ l with urgent := rest }).take e .urgent f
  | none, [] =>
    match l.queue l.arbQueue with
    | f :: rest =>
      if l.arbCount < e.weight l.arbQueue then
        ({ l.setQueue l.arbQueue rest with arbCount := l.arbCount + 1 }).take e l.arbQueue f
      else next
    | [] => next
where
  next : Link :=
    match l.arbQueue.cycle.find? fun q => !(l.queue q).isEmpty with
    | none => l
    | some q =>
      match l.queue q with
      | [] => l
      | f :: rest => ({ l.setQueue q rest with arbQueue := q, arbCount := 1 }).take e q f

/-- The frame in hand returned to the head of its queue with its counts; the current queue's count falls by
one (R10; at a collision too, log 44). -/
def Link.putBack (h : InHand) (l : Link) : Link :=
  { l.setQueue h.queue (h.frame :: l.queue h.queue) with inHand := none, arbCount := l.arbCount - 1 }

/-- An URGENT frame waits while a ROUTINE frame in hand is not being sent: that frame goes back (R10). -/
def Link.preempt (l : Link) : Link :=
  match l.inHand with
  | some h => if h.queue ≠ .urgent ∧ !h.sending ∧ !l.urgent.isEmpty then l.putBack h else l
  | none => l

/-- What follows each change of the queues: preemption, then the arbiter. -/
def Link.settle (e : LinkEnv) (l : Link) : Link := l.preempt.arbitrate e

/-- Kinds whose contents are cumulative or current values (R9). -/
def FrameKind.merges : FrameKind → Bool
  | .status => true
  | .strokes => true
  | .head => true
  | _ => false

/-- A queued frame that a new one replaces: the same kind, and for STROKES the same pump (R9). -/
def TxFrame.replacedBy (old new : TxFrame) : Bool :=
  new.kind.merges && old.kind == new.kind && old.pump == new.pump

/-- The new frame in the place of the queued one it replaces (R9). Of two such frames, the older one returned to the
head by an URGENT frame (R10), the newer one is replaced, so that no count goes backwards (R62); that the older one
stays, and that STATUS and HEAD frames are treated alike, is a DESIGN CHOICE (log 68). -/
def replaceIn (new : TxFrame) : List TxFrame → Option (List TxFrame)
  | [] => none
  | f :: rest =>
    match replaceIn new rest with
    | some fs => some (f :: fs)
    | none => if f.replacedBy new then some (new :: rest) else none

/-- The oldest STATUS, STROKES or HEAD frame dropped (R9). -/
def dropMerging : List TxFrame → Option (List TxFrame)
  | [] => none
  | f :: rest => if f.kind.merges then some rest else (dropMerging rest).map (f :: ·)

/-- The first waiting ROD_EVENT frame joins the tail of its queue when a place is free there (R9). -/
def Link.joinFirst (e : LinkEnv) (l : Link) : Link :=
  match l.rodWait with
  | [] => l
  | f :: rest =>
    if l.count f.eventQueue < f.eventQueue.room then
      (({ l with rodWait := rest }).setQueue f.eventQueue (l.queue f.eventQueue ++ [f])).settle e
    else l

/-- A frame for the URGENT queue (R8). -/
def Link.handUrgent (e : LinkEnv) (f : TxFrame) (l : Link) : Link :=
  match replaceIn f l.urgent with
  | some fs => { l with urgent := fs }
  | none =>
    if f.kind = .rodEvent ∧ !l.rodWait.isEmpty then { l with rodWait := l.rodWait ++ [f] }
    else if l.hasRoom .urgent then ({ l with urgent := l.urgent ++ [f] }).settle e
    else if f.kind = .rodEvent then { l with rodWait := l.rodWait ++ [f] }
    else l.record e .urgentDrop none (some f.kind) none

/-- A frame for the RIG queue (R9). -/
def Link.handRig (e : LinkEnv) (f : TxFrame) (l : Link) : Link :=
  match replaceIn f l.rig with
  | some fs => { l with rig := fs }
  | none =>
    if f.kind = .rodEvent ∧ !l.rodWait.isEmpty then { l with rodWait := l.rodWait ++ [f] }
    else if l.hasRoom .rig then ({ l with rig := l.rig ++ [f] }).settle e
    else
      match dropMerging l.rig with
      | some fs => ({ l with rig := fs ++ [f] }).settle e
      | none => if f.kind = .rodEvent then { l with rodWait := l.rodWait ++ [f] } else l

/-- An ANSWER (or a REQUEST, which is handed over only where there is room) for EXCHANGE or BULK (R8). -/
def Link.handPlain (e : LinkEnv) (q : QueueId) (f : TxFrame) (l : Link) : Link :=
  if l.hasRoom q then (l.setQueue q (l.queue q ++ [f])).settle e
  else { l with answerDrops := satAdd 255 l.answerDrops 1 }

/-- A frame handed to the link unit (R8, R9); `q` is its queue when ROUTINE (R7). In LISTEN_ONLY it is
discarded (R4). -/
def Link.handOver (e : LinkEnv) (q : QueueId) (f : TxFrame) (l : Link) : Link :=
  if l.listenOnly then l
  else if f.urgent then l.handUrgent e f
  else
    match q with
    | .rig => l.handRig e f
    | q => l.handPlain e q f

/-- A new frame, with both counts at zero and no sequence number (R2, R3). -/
def newFrame (kind : FrameKind) (dest : Nat) (urgent : Bool) (pump : Option PumpId) (payload : List Byte) :
    TxFrame := ⟨kind, dest, urgent, pump, payload, 0, 0, none⟩

def State.hand (s : State) (q : QueueId) (f : TxFrame) : State := s.onLink fun e => Link.handOver e q f

/-- A fault recorded at the station (R16). -/
def State.recordFault (s : State) (kind : FaultKind) (peer : Option Nat) (frame : Option FrameKind)
    (seqTag : Option Nat) : State := s.onLink fun e => Link.record e kind peer frame seqTag

/-- Whether a kind of frame is configured URGENT (R7); the index of item 4 is the kind's code. -/
def State.urgentKind (s : State) (kind : FrameKind) : Bool := s.cfg Item.kindClass kind.code == 0

/-- A broadcast of a kind of configured class, to 31 through RIG (R7). -/
def State.broadcast (s : State) (kind : FrameKind) (pump : Option PumpId) (payload : List Byte) : State :=
  s.hand .rig (newFrame kind 31 (s.urgentKind kind) pump payload)

/-- The own claim announced (R33). -/
def State.announceClaim (s : State) : State :=
  s.hand .urgent (newFrame .claim 31 true none (encodeClaim s.ret.claim))

/-! ## Sending (R2, R3) -/

/-- The tag of a REQUEST or ANSWER frame, which R16 records for a dropped frame. -/
def TxFrame.tag? (f : TxFrame) : Option Nat :=
  match f.kind with
  | .request => some (byteAt f.payload 0)
  | .answer => some (byteAt f.payload 0)
  | _ => none

/-- The frame in hand leaves, sent or dropped; the arbiter chooses again. -/
def Link.release (e : LinkEnv) (l : Link) : Link := ({ l with inHand := none }).arbitrate e

/-- One deferral of the frame in hand: one more attempt; the 64th drops it unless the limit is off (R2). DESIGN CHOICE
(log 70): a frame whose attempts passed 64 while *access limit off* was set is dropped at its next deferral once the
item is clear. -/
def Link.defer (e : LinkEnv) (h : InHand) (l : Link) : Link :=
  let f := { h.frame with attempts := h.frame.attempts + 1 }
  if 64 ≤ f.attempts ∧ !e.limitOff then
    (l.record e .accessDrop none (some f.kind) f.tag?).release e
  else { l with inHand := some { h with frame := f, sending := false, delay := none } }

/-- A start bit of another station: the line is BUSY and a frame is being gathered (R1); a frame in hand
whose access delay runs defers (R2). -/
def Link.goBusy (e : LinkEnv) (l : Link) : Link :=
  let l := { l with lineBusy := true, rx := RxPhase.gathering }
  match l.inHand with
  | some h => if h.delay.isSome then l.defer e h else l
  | none => l

/-- The line becomes QUIET (R1, R5): an incomplete frame, or bytes after a complete one, count as one broken
frame; the line-stuck condition clears; a frame in hand starts its access delay (R2). -/
def Link.goQuiet (e : LinkEnv) (trailing : Bool) (l : Link) : Link :=
  let broken : Bool :=
    match l.rx with
    | .idle => false
    | .gathering => true
    | .complete => trailing
    | .trailing => true
  let l := if broken then l.rxError else l
  let l := { l with lineBusy := false, stuck := false, rx := RxPhase.idle }
  { l with inHand := l.inHand.map fun h => { h with delay := some (accessDelay e.own h.frame) } }

/-- The station is sending (R3). -/
def Link.sending (l : Link) : Bool := l.inHand.any (·.sending)

/-- LISTEN_ONLY is entered: the frame in hand and every queue are emptied (R4). -/
def Link.silence (l : Link) : Link :=
  { l with listenOnly := true, inHand := none, urgent := [], rig := [], exchange := [], bulk := [],
           rodWait := [] }

/-! ## Requests to peers (R13) -/

/-- The first tag from the counter on that no entry holds (R13). -/
def freeTag (held : List Nat) : Nat → Nat → Nat
  | 0, tag => tag
  | n + 1, tag => if held.contains tag then freeTag held n ((tag + 1) % 256) else tag

/-- Whether a request can enter the table: an entry and a place in EXCHANGE are free (R13). -/
def Link.canIssue (l : Link) : Bool :=
  decide (l.outstanding.length < Config.outstandingRoom) && l.hasRoom .exchange

/-- The tag a request entering now takes. -/
def Link.nextTag (l : Link) : Nat := freeTag (l.outstanding.map (·.tag)) Config.outstandingRoom l.tagCounter

/-- A request enters the table and joins EXCHANGE (R13). -/
def Link.issue (e : LinkEnv) (now dest code : Nat) (args : List Byte) (l : Link) : Link :=
  let tag := l.nextTag
  ({ l with
      tagCounter := (tag + 1) % 256
      outstanding := l.outstanding ++ [OutEntry.mk dest tag code now] }).handOver e .exchange
    (newFrame .request dest false none ([byteOf tag, byteOf code] ++ args))

/-! ## Answers (R12, R173) -/

/-- Answer data cut into segments of 38 bytes (R173). -/
def segments : Nat → List Byte → List (List Byte)
  | 0, data => [data]
  | n + 1, data => if data.length ≤ 38 then [data] else data.take 38 :: segments n (data.drop 38)

/-- The ANSWER frames of one answer, in order of segment number. -/
def answerFrames (dest tag : Nat) (code : ResultCode) (data : List Byte) : List TxFrame :=
  let segs := segments 7 data
  (List.range segs.length).map fun i =>
    newFrame .answer dest false none
      ([byteOf tag, byteOf (code.code + 16 * i + (if i + 1 < segs.length then 128 else 0))] ++
        segs.getD i [])

/-- An answer handed to its queue, segment by segment. A request sent to 31 is not answered (R12). -/
def State.answer (s : State) (q : QueueId) (r : Request) (code : ResultCode) (data : List Byte) : State :=
  if r.toAll then s
  else (answerFrames r.source r.tag code data).foldl (fun s f => s.hand q f) s

end Sys2Proof.Machine
end

