-- ==== Sys2Proof/Machine/Alarms.lean ====
section
/-! DEFINITION. The flags of the alarm unit and its ALARM frames: what an owner's report of a condition does
(R166, R167). Which conditions hold is Machine/Flags.lean. -/

namespace Sys2Proof.Machine

/-- A flag set or cleared. -/
def setFlag (flags : BitVec 15) (c : AlarmCond) (v : Bool) : BitVec 15 :=
  if v then flags ||| (1#15 <<< c.code) else flags &&& ~~~(1#15 <<< c.code)

def AlarmUnit.isActive (a : AlarmUnit) (c : AlarmCond) : Bool := a.active.getLsbD c.code

def AlarmUnit.isPending (a : AlarmUnit) (c : AlarmCond) : Bool := a.pending.getLsbD c.code

/-- The condition is enabled (item 50, R166). -/
def State.enabled (s : State) (c : AlarmCond) : Bool := s.cfg Item.conditionEnabled c.code == 1

/-- An ALARM frame to the alarm destination, class URGENT (R166). -/
def State.sendAlarm (s : State) (c : AlarmCond) (raised : Bool) : State :=
  s.hand .urgent (newFrame .alarm (s.cfg Item.alarmDestination 0) true none
    (encodeAlarm c raised s.ret.hole s.ret.jobTime))

/-- The active flag takes a value; an enabled condition that becomes active sets its pending flag (R166). -/
def State.flagged (s : State) (c : AlarmCond) (holds : Bool) : State :=
  { s with
      alarm :=
        { active := setFlag s.alarm.active c holds
          pending := if holds && s.enabled c then setFlag s.alarm.pending c true else s.alarm.pending } }

/-- A report of a condition (R166, R167): a change of the active flag raises or clears it. -/
def State.report (s : State) (c : AlarmCond) (holds : Bool) : State :=
  if s.alarm.isActive c = holds then s
  else if s.enabled c then (s.flagged c holds).sendAlarm c holds
  else s.flagged c holds

end Sys2Proof.Machine
end

