-- ==== Sys2Proof/Machine/Views.lean ====
section
/-! DEFINITION. What the blocks compute from the station's state and its view of the rig without changing
it: pumps in view (R73), the head source (R89), the rod records (R90 to R93) and the geometry functions
(R71, R72). -/

namespace Sys2Proof.Machine

/-! ## Pumps -/

def Pumps.get (p : Pumps) : PumpId → PumpChannel
  | .a => p.a
  | .b => p.b

def Pumps.set (p : Pumps) (i : PumpId) (c : PumpChannel) : Pumps :=
  match i with
  | .a => { p with a := c }
  | .b => { p with b := c }

def State.chan (s : State) (p : PumpId) : PumpChannel := s.pumps.get p

def State.setChan (s : State) (p : PumpId) (c : PumpChannel) : State :=
  { s with pumps := s.pumps.set p c }

/-- A channel in use: fitted, at a station with the PUMP role, in RUN (R48, R63). -/
def State.isFitted (s : State) (p : PumpId) : Bool :=
  s.inRun && s.straps.pump && s.cfg Item.fitted (pumpCode p) == 1

/-- floor(stroke volume × yield / 100) mL (R62). -/
def State.effectiveVolume (s : State) (p : PumpId) : Nat :=
  s.cfg Item.strokeVolume (pumpCode p) * s.cfg Item.yieldPercent (pumpCode p) / 100

/-- The cumulative stroke count of a channel (R48). -/
def State.strokes (s : State) : PumpId → Nat
  | .a => s.ret.strokesA
  | .b => s.ret.strokesB

/-- The pump summary of a channel (R63). -/
def State.pumpSummary (s : State) (p : PumpId) : PumpSummary :=
  if s.isFitted p then
    let c := s.chan p
    ⟨c.state, true, c.strokeStopped, c.target, c.spm⟩
  else ⟨.stopped, false, true, 0, 0⟩

/-- A pump is running when its state is RUNNING and its measured spm is above 0 (R73). -/
def PumpSummary.isRunning (p : PumpSummary) : Bool := p.state == .running && decide (0 < p.spm)

/-- The pumps in view: the own fitted channels, and those of each fresh peer holding the PUMP role (R73). -/
def State.pumpsInView (s : State) : List PumpSummary :=
  (([s.pumpSummary .a, s.pumpSummary .b] ++
      (s.peers.filter fun p => !p.stale && p.has (·.pump)).flatMap fun p =>
        match p.status with
        | some m => [m.pumpA, m.pumpB]
        | none => []).filter (·.fitted))

def State.pumpRunning (s : State) : Bool := s.pumpsInView.any (·.isRunning)

/-- Every pump in view is stroke-stopped (R76). -/
def State.viewStrokeStopped (s : State) : Bool := s.pumpsInView.all (·.stopped)

/-- The condition of WAIT_PUMPS (R108). -/
def State.pumpsDown (s : State) : Bool :=
  (s.pumpSummary .a).stopped && (s.pumpSummary .b).stopped &&
    s.peers.all fun p =>
      !p.has (·.pump) || (!p.stale && p.status.all fun m => m.pumpA.stopped && m.pumpB.stopped)

/-- No heard peer holding the PUMP role is stale (R73, R149). -/
def State.noStalePump (s : State) : Bool := s.peers.all fun p => !(p.stale && p.has (·.pump))

/-! ## The head -/

/-- What the blocks take from the head source (R89). -/
structure HeadValues where
  h : Nat
  known : Bool
  turns : Nat
  spinTurns : Nat
  rpm : Nat
  deriving DecidableEq, Repr

/-- The head source as R89 chooses it. -/
def State.chooseHead (s : State) : Option Nat :=
  if s.straps.head then some s.straps.number
  else (s.peers.find? fun p => !p.stale && p.has (·.head) && p.headFresh).map (·.station)

/-- The values of the head source. -/
def State.headValues (s : State) : Option HeadValues :=
  match s.depth.headSource with
  | none => none
  | some k =>
    if k = s.straps.number then
      some ⟨s.depth.h, s.depth.headKnown, s.ret.turns, s.ret.spinTurns, s.depth.rpm⟩
    else
      ((s.peer? k).bind (·.head)).map fun m => ⟨m.h, m.known, m.turns, m.spinTurns, m.rpm⟩

/-- The head position, when the head is known (R89). -/
def State.headPosition (s : State) : Option Nat :=
  s.headValues.bind fun v => if v.known then some v.h else none

/-- The rpm of the head source, 0 when there is none (R148). -/
def State.headRpm (s : State) : Nat := (s.headValues.map (·.rpm)).getD 0

/-! ## Rods -/

/-- The rod view: SURE at all times at a ROD station (R95), else as kept (R98). -/
def State.viewSure (s : State) : Bool := s.straps.rod || s.rod.sure

def findRod (rods : List Rod) (id : Nat) : Option Rod := rods.find? fun r => r.id == id

/-- The rod in a rack slot (R91). -/
def rodInSlot (rods : List Rod) (slot : Nat) : Option Rod := rods.find? fun r => r.slot == some slot

/-- The rod in the loader (R90). -/
def rodInLoader (rods : List Rod) : Option Rod := rods.find? fun r => r.state == .loader

/-- A rod record changed, found by its ID. -/
def mapRod (rods : List Rod) (id : Nat) (f : Rod → Rod) : List Rod :=
  rods.map fun r => if r.id = id then f r else r

/-- The length of a rod of a type in mm (R90). -/
def State.typeLength (s : State) (type : Nat) : Nat := s.cfg Item.typeLength type

/-- The length of a rod, 0 for an ID not in the table. -/
def State.rodLength (s : State) (id : Nat) : Nat :=
  ((findRod s.ret.rods id).map fun r => s.typeLength r.type).getD 0

/-- The bottom assembly length plus the lengths of the rods listed (R93). -/
def State.lengthOf (s : State) (ids : List Nat) : Nat :=
  s.cfg Item.assemblyLength 0 + (ids.map s.rodLength).sum

/-- The string length S (R93). -/
def State.stringLength (s : State) : Nat := s.lengthOf s.ret.string

/-- The top rod's length, 0 for an empty string. -/
def State.topLength (s : State) : Nat := (s.ret.string.getLast?.map s.rodLength).getD 0

/-- The combinations of R92; the one with a rod above the clamp needs a string. -/
def HoldRec.valid (r : HoldRec) : Bool :=
  (r.hold == .hung && r.head == .latched && !r.above) ||
  (r.hold == .clamped && r.head == .free && !r.above) ||
  (r.hold == .clamped && r.head == .latched)

def HoldRec.applies (r : HoldRec) (string : List Nat) : Bool :=
  r.valid && (!r.above || !string.isEmpty)

/-- Bit depth D, or none while it is unknown (R93). -/
def State.depthNow (s : State) : Option Nat :=
  if !s.viewSure then none
  else
    match s.ret.hold.hold with
    | .hung => s.headPosition.map fun h => min 1000000 (s.stringLength - h)
    | .clamped =>
      some (min 1000000
        (s.stringLength - (if s.ret.hold.above then s.topLength else 0) - s.cfg Item.clampHeight 0))

/-- On bottom: D is known and at least H − 100 mm (R94). -/
def onBottomAt (depth : Option Nat) (hole : Nat) : Bool :=
  match depth with
  | some d => decide (hole ≤ d + 100)
  | none => false

/-! ## Geometry (section 5.3) -/

/-- The top of a section (R71). -/
def State.sectionTop (s : State) (i : Nat) : Nat :=
  if i ≤ 1 then 0 else s.cfg Item.sectionBottom (i - 1)

/-- The overlap of [0, d] with a section; the last section in use has no bottom (R71). -/
def State.overlap (s : State) (d i : Nat) : Nat :=
  let bottom := if i = s.cfg Item.sectionCount 0 then d else min d (s.cfg Item.sectionBottom i)
  bottom - s.sectionTop i

/-- The sum over the sections in use of a capacity times the overlap, divided once (R71). -/
def State.sectionVolume (s : State) (capacity d : Nat) : Nat :=
  (((List.range (s.cfg Item.sectionCount 0)).map fun k =>
    s.cfg capacity (k + 1) * s.overlap d (k + 1)).sum) / 1000

/-- holeVol(d) in mL (R71). -/
def State.holeVol (s : State) (d : Nat) : Nat := s.sectionVolume Item.holeCapacity d

/-- annVol(d) in mL (R71). -/
def State.annVol (s : State) (d : Nat) : Nat := s.sectionVolume Item.annularCapacity d

/-- steelVol(d) in mL (R72). -/
def State.steelVol (s : State) (d : Nat) : Nat := s.cfg Item.rodDisplacement 0 * d / 1000

end Sys2Proof.Machine
end

