-- ==== Sys2Proof/Machine/PumpOps.lean ====
section
/-! DEFINITION. The moves of a pump channel (R54 to R58), the drive (R51), the rate control and the pressure
clamp (R59 to R61), and the hand-over of STROKES frames (R62). -/

namespace Sys2Proof.Machine

/-- Entry to STARTING (R54): start duty staged, 5 s start timer, period reference invalid. -/
def PumpChannel.toStarting (duty : Nat) (c : PumpChannel) : PumpChannel :=
  { c with state := .starting, staged := duty, startTimer := some 5000, refValid := false }

/-- Entry to STOPPED: duty 0 staged (R54). -/
def PumpChannel.toStopped (c : PumpChannel) : PumpChannel :=
  { c with state := .stopped, staged := 0, startTimer := none, highCount := 0 }

/-- Entry to STOPPING (R54); stroke-stopped already set takes the channel on to STOPPED at once. -/
def PumpChannel.toStopping (c : PumpChannel) : PumpChannel :=
  if c.strokeStopped then c.toStopped
  else { c with state := .stopping, staged := 0, startTimer := none, highCount := 0 }

/-- Entry to STALLED: duty 0 staged, the target kept (R55, R56). -/
def PumpChannel.toStalled (c : PumpChannel) : PumpChannel :=
  { c with state := .stalled, staged := 0, startTimer := none, highCount := 0 }

/-- The claim view comes to hold a claim (R57). -/
def PumpChannel.claimed (c : PumpChannel) : PumpChannel :=
  match c.state with
  | .starting => { c with state := .held, staged := 0, startTimer := none, highCount := 0 }
  | .running => { c with state := .held, staged := 0, startTimer := none, highCount := 0 }
  | .stopping => { c with state := .held, staged := 0, startTimer := none, highCount := 0 }
  | .stopped => c
  | .held => c
  | .stalled => c

/-- The claim view becomes empty (R57). -/
def PumpChannel.freed (duty : Nat) (c : PumpChannel) : PumpChannel :=
  match c.state with
  | .held => if 0 < c.target then c.toStarting duty else c.toStopping
  | _ => c

/-- An accepted PUMP_RATE (R54). A rate above 0 does not reach a HELD channel (R53). -/
def PumpChannel.setRate (duty rate : Nat) (c : PumpChannel) : PumpChannel :=
  let c := { c with target := rate }
  if 0 < rate then
    match c.state with
    | .stopped => c.toStarting duty
    | .starting => c
    | .running => c
    | .stopping => c.toStarting duty
    | .held => c
    | .stalled => c.toStarting duty
  else
    match c.state with
    | .stopped => c
    | .starting => c.toStopping
    | .running => c.toStopping
    | .stopping => c
    | .held => c.toStopping
    | .stalled => c.toStopped

/-- The job becomes CLOSED (R58). -/
def PumpChannel.jobClosed (c : PumpChannel) : PumpChannel :=
  let c := { c with target := 0 }
  match c.state with
  | .starting => c.toStopping
  | .running => c.toStopping
  | .stalled => c.toStopped
  | .stopped => c
  | .stopping => c
  | .held => c

/-- The station enters LISTEN_ONLY (R58). -/
def PumpChannel.silenced (c : PumpChannel) : PumpChannel := { c.toStopped with target := 0 }

/-- Stroke-stopped is set (R50, R56). -/
def PumpChannel.strokesEnd (c : PumpChannel) : PumpChannel :=
  let c := { c with strokeStopped := true, spm := 0, stoppedTimer := none }
  match c.state with
  | .running => c.toStalled
  | .stopping => c.toStopped
  | .held => c
  | .stopped => c
  | .starting => c
  | .stalled => c

/-- The drive off at once: both duties 0 and the output low (R51). -/
def PumpChannel.undriven (c : PumpChannel) : PumpChannel := { c with applied := 0, staged := 0, high := 0 }

/-- The start timer expires (R55). -/
def PumpChannel.startExpired (c : PumpChannel) : PumpChannel :=
  match c.state with
  | .starting => if c.startTimer.isSome then c.toStalled else c
  | _ => c

/-- A PWM period begins: the staged duty becomes the applied duty, and the output is high for
floor(P × applied duty / 255) tenths of a ms (R51). -/
def PumpChannel.pwm (p : Nat) (c : PumpChannel) : PumpChannel :=
  { c with applied := c.staged, high := p * c.staged / 255 }

/-- The control duty from the staged duty and the error (R59). -/
def controlDuty (d target spm : Nat) : Nat :=
  let e := if spm ≤ target then target - spm else spm - target
  if e ≤ 2 then d
  else
    let step := min 16 (max 1 (e / 2))
    if spm < target then max 1 (min 255 (d + step)) else max 1 (min 255 (d - step))

/-- The pressure clamp (R60): the duty staged and the high-pressure count. -/
def pressureClamp (known : Bool) (p limit c d count : Nat) : Nat × Nat :=
  if !known then (min c d, 0)
  else if p < limit then (c, 0)
  else if p ≤ limit + 1 then (min c d, 0)
  else (max 1 (min c (d - 8)), min 3 (count + 1))

/-- A capture in RUNNING: rate control, then the clamp; pressure-high is set by every capture that leaves the count
at 3 (R59 to R61, log 48). -/
def PumpChannel.control (press : Threshold) (c : PumpChannel) : PumpChannel :=
  let r := pressureClamp press.known press.accepted c.limit (controlDuty c.staged c.target c.spm) c.staged
    c.highCount
  { c with staged := r.1, highCount := r.2, pressureHigh := c.pressureHigh || r.2 == 3 }

/-- The pressure-high flag clears while the accepted step is below the limit in force (R61, R28). -/
def PumpChannel.pressureTest (press : Threshold) (c : PumpChannel) : PumpChannel :=
  { c with pressureHigh := c.pressureHigh && !(press.known && decide (press.accepted < c.limit)) }

/-- A captured period handed to the rule of the present state (R49, R55, R59); the limit now configured comes into
force (R28, R60). -/
def PumpChannel.captured (press : Threshold) (limit : Nat) (c : PumpChannel) : PumpChannel :=
  let c := { c with limit := limit }
  (match c.state with
  | .starting => { c with state := .running, startTimer := none }
  | .running => c.control press
  | _ => c).pressureTest press

/-- Measured spm of a period (R49). -/
def spmOf (period : Nat) : Nat := min 255 (60000 / period)

/-- The period capture of an accepted edge at `now`, the stroke-stopped timer restarted and stroke-stopped
cleared (R49, R50). -/
def PumpChannel.edge (press : Threshold) (limit now : Nat) (c : PumpChannel) : PumpChannel :=
  let since := now - c.lastEdge.getD 0
  let c' := { c with lastEdge := some now, refValid := true, stoppedTimer := some 3000,
                     strokeStopped := false }
  if c.refValid then
    let period := min 65535 since
    ({ c' with period := period, spm := spmOf period }).captured press limit
  else c'

/-- Whether an edge is accepted: the first after a start, or 200 ms or more after the last (R48). -/
def PumpChannel.accepts (now : Nat) (c : PumpChannel) : Bool :=
  match c.lastEdge with
  | none => true
  | some t => decide (t + 200 ≤ now)

/-! ## At the station -/

/-- Both channels moved. -/
def State.mapPumps (s : State) (f : PumpId → PumpChannel → PumpChannel) : State :=
  { s with pumps := ⟨f .a s.pumps.a, f .b s.pumps.b⟩ }

def State.startDuty (s : State) (p : PumpId) : Nat := s.cfg Item.startDuty (pumpCode p)

def State.pressureLimit (s : State) (p : PumpId) : Nat := s.cfg Item.pressureLimit (pumpCode p)

/-- R41, R57. -/
def State.pumpsClaimed (s : State) : State := s.mapPumps fun _ c => c.claimed

/-- R41, R57. -/
def State.pumpsFreed (s : State) : State := s.mapPumps fun p c => c.freed (s.startDuty p)

/-- The payload of a STROKES frame as the channel stands (R62). -/
def State.strokesMsg (s : State) (p : PumpId) : StrokesMsg :=
  ⟨p, s.strokes p, (s.chan p).effVolume, (s.chan p).spm⟩

/-- A STROKES frame handed, which starts the 200 ms anew (R62). -/
def State.handStrokes (s : State) (p : PumpId) : State :=
  let s := s.broadcast .strokes (some p) (encodeStrokes (s.strokesMsg p))
  s.setChan p { s.chan p with holdoff := some 200 }

/-- A call for a STROKES frame (R62): handed at once, or kept while the 200 ms run. -/
def State.callStrokes (s : State) (p : PumpId) : State :=
  if (s.chan p).holdoff.isSome then s.setChan p { s.chan p with callKept := true }
  else s.handStrokes p

/-- A STROKES frame at the status period, for a fitted pump (R62). -/
def State.periodStrokes (s : State) (p : PumpId) : State :=
  if s.isFitted p then s.handStrokes p else s

end Sys2Proof.Machine
end

