-- ==== Sys2Proof/Machine/Charges.lean ====
section
/-! DEFINITION. Charges, the total, the ceiling check and the statement (R151 to R157, R163). -/

namespace Sys2Proof.Machine

/-- The entry of a list of counts. -/
def countAt (l : List Nat) (i : Nat) : Nat := l.getD i 0

/-- An entry of a list of counts raised, saturating. -/
def countAdd (top : Nat) (l : List Nat) (i n : Nat) : List Nat := l.set i (satAdd top (countAt l i) n)

/-- A saturating sum of money figures. -/
def moneySum (l : List Nat) : Nat := min top32 l.sum

/-- The time charge of seconds at an hourly rate (R151); money saturates (00_scope, "Units and ranges"). -/
def timeCharge (seconds rate : Nat) : Nat := min top32 ((seconds * rate + 1800) / 3600)

/-- The footage charge of a length in mm at a band rate and a class percentage (R152). -/
def footageCharge (m r p : Nat) : Nat := (m * r * p + 50000) / 100000

/-- The eight time charges (R151). -/
def State.timeCharges (s : State) : List Nat :=
  (List.range 8).map fun c => timeCharge (countAt s.ret.meters c) (s.cfg Item.classRate c)

/-- The first band in use whose bottom is at or above a depth, else the last in use (R152). -/
def State.bandOf (s : State) (bottom : Nat) : Nat :=
  (((List.range (s.cfg Item.bandCount 0)).map (· + 1)).find? fun b =>
    decide (bottom ≤ s.cfg Item.bandBottom b)).getD (s.cfg Item.bandCount 0)

/-- The charge of one interval at a formation class (R152). -/
def State.intervalCharge (s : State) (index cls : Nat) : Nat :=
  let l := s.cfg Item.intervalLength 0
  min top32
    (footageCharge l (s.cfg Item.bandRate (s.bandOf ((index + 1) * l))) (s.cfg Item.classPercent cls))

def State.defaultClass (s : State) : Nat := s.cfg Item.defaultClass 0

/-- The class in force of an interval (R137). -/
def State.classInForce (s : State) (iv : Interval) : Nat := iv.cls.getD s.defaultClass

/-- Over-limit footage in mm (R152). -/
def State.overFootage (s : State) : Nat := s.ret.hole - s.cfg Item.depthLimit 0

/-- Its charge, at the last band in use and the default class (R152). -/
def State.overCharge (s : State) : Nat :=
  min top32
    (footageCharge s.overFootage (s.cfg Item.bandRate (s.cfg Item.bandCount 0))
      (s.cfg Item.classPercent s.defaultClass))

/-- R154. -/
def State.additiveCharge (s : State) : Nat :=
  moneySum ((List.range 8).map fun k => countAt s.ret.units k * s.cfg Item.additivePrice k)

/-- R155. -/
def State.waterCharge (s : State) : Nat :=
  min top32 ((s.ret.billedWater * s.cfg Item.waterPrice 0 + 500000) / 1000000)

/-- R155: over the types in use. -/
def State.retirementCharge (s : State) : Nat :=
  moneySum ((List.range (s.cfg Item.typeCount 0)).map fun k =>
    countAt s.ret.retirements k * s.cfg Item.typeCharge (k + 1))

/-- The total of the job (R156). -/
def State.total (s : State) : Nat :=
  moneySum (s.timeCharges ++
    [s.ret.sumCurrent, s.overCharge, s.additiveCharge, s.waterCharge, s.retirementCharge])

/-- R157: near. -/
def ceilingNear (c t : Nat) : Bool := c != 0 && decide (c * 9 ≤ t * 10)

/-- R157: reached. -/
def ceilingReached (c t : Nat) : Bool := c != 0 && decide (c ≤ t)

/-- The ceiling check of a total (R157). -/
def State.checkTotal (s : State) (t : Nat) : State :=
  let c := s.cfg Item.ceiling 0
  { s with
      billing := { s.billing with near := ceilingNear c t, reached := ceilingReached c t }
      ret := { s.ret with overCeiling := s.ret.overCeiling || ceilingReached c t } }

/-- The total formed and checked (R157). -/
def State.checkCeiling (s : State) : State := s.checkTotal s.total

/-- The statement's figures as they stand (R163). -/
def State.liveStatement (s : State) : Statement :=
  { jobNumber := s.cfg Item.jobNumber 0
    job := s.ret.job
    close := s.ret.close
    closeKind := s.ret.closeKind
    closingSeconds := s.ret.closingSeconds
    jobTime := s.ret.jobTime
    meters := s.ret.meters
    unsure := s.ret.unsure
    down := s.ret.down
    timeCharges := s.timeCharges
    closedFootage := s.ret.closedFootage
    sumProvisional := s.ret.sumProvisional
    sumCurrent := s.ret.sumCurrent
    overFootage := s.overFootage
    overCharge := s.overCharge
    units := s.ret.units
    additiveCharge := s.additiveCharge
    billedWater := s.ret.billedWater
    waterCharge := s.waterCharge
    retirements := s.ret.retirements
    retirementCharge := s.retirementCharge
    total := s.total
    ceiling := s.cfg Item.ceiling 0
    near := s.billing.near
    reached := s.billing.reached
    overCeiling := s.ret.overCeiling }

/-- The statement STATEMENT_READ reads: the frozen one in CLOSED, else the live one (R163). -/
def State.statement (s : State) : Statement :=
  match s.ret.job, s.ret.frozen with
  | .closed, some f => f
  | _, _ => s.liveStatement

end Sys2Proof.Machine
end

