-- ==== Sys2Proof/Machine/Strata.lean ====
section
/-! DEFINITION. The strata record (chapter 8), the close of a job (R158 to R161) and the pumped volume and
heard balance that drive them (R65, R70). -/

namespace Sys2Proof.Machine

/-! ## Zones and marks (R138 to R141) -/

/-- Every rule of chapter 8 applies: a RECORD station in RUN with the job OPEN or CLOSING (R127). -/
def State.strataOn (s : State) : Bool :=
  s.inRun && s.straps.record && (s.ret.job == .opened || s.ret.job == .closing)

/-- The job runs: OPEN or CLOSING (R147). -/
def State.jobRuns (s : State) : Bool := s.ret.job == .opened || s.ret.job == .closing

/-- An entry appended, or counted as unrecorded when the list holds 96 (R138). -/
def State.appendZone (s : State) (z : ZoneEntry) : State :=
  if s.ret.zones.length < Config.zoneRoom then
    { s with ret := { s.ret with zones := s.ret.zones ++ [z] } }
  else { s with ret := { s.ret with unrecorded := satAdd 65535 s.ret.unrecorded 1 } }

/-- A mark with the present H and job time (R138, R141). -/
def State.appendMark (s : State) (kind : MarkKind) (code : Nat) : State :=
  s.appendZone (.mark kind s.ret.hole s.ret.jobTime code)

/-- The zone kind of a balance state (R139). -/
def BalState.zoneKind : BalState → Option ZoneKind
  | .losing => some .loss
  | .totalLoss => some .totalLoss
  | .gaining => some .water
  | .flowing => some .water
  | .balanced => none
  | .suspended => none

/-- The kind of an open zone. -/
def ZoneEntry.openKind : ZoneEntry → Option ZoneKind
  | .zone k _ none _ _ _ => some k
  | _ => none

/-- An open zone closed, unless it is of the kind kept (R139). -/
def ZoneEntry.closeBut (keep : Option ZoneKind) (hole time : Nat) : ZoneEntry → ZoneEntry
  | .zone k top none opened _ volume =>
    if keep = some k then .zone k top none opened none volume
    else .zone k top (some hole) opened (some time) volume
  | z => z

/-- R140: an open LOSS or TOTAL_LOSS zone takes a rise of the lost total, an open WATER zone one of the
gained total. -/
def ZoneEntry.addVolume (lost gained : Nat) : ZoneEntry → ZoneEntry
  | .zone .loss top none opened c v => .zone .loss top none opened c (satAdd top32 v lost)
  | .zone .totalLoss top none opened c v => .zone .totalLoss top none opened c (satAdd top32 v lost)
  | .zone .water top none opened c v => .zone .water top none opened c (satAdd top32 v gained)
  | z => z

def State.mapZones (s : State) (f : ZoneEntry → ZoneEntry) : State :=
  { s with ret := { s.ret with zones := s.ret.zones.map f } }

/-- Every open zone but those of the kind kept is closed with bottom H and the job time (R139). -/
def State.closeZones (s : State) (keep : Option ZoneKind) : State :=
  s.mapZones (ZoneEntry.closeBut keep s.ret.hole s.ret.jobTime)

def State.zoneOpen (s : State) : Bool := s.ret.zones.any fun z => z.openKind.isSome

def State.zoneOpenOf (s : State) (k : ZoneKind) : Bool := s.ret.zones.any fun z => z.openKind == some k

/-- The heard state has changed to the present one (R139). -/
def State.zonesFollow (s : State) : State :=
  let keep := s.ret.balState.zoneKind
  let s := s.closeZones keep
  match keep with
  | some k => if s.zoneOpenOf k then s else s.appendZone (.zone k s.ret.hole none s.ret.jobTime none 0)
  | none => s

/-! ## The open interval (R128 to R130) -/

/-- The open interval: the last record, while it is not closed (R128). -/
def State.openInterval (s : State) : Option Interval :=
  s.ret.intervals.getLast?.bind fun iv => if iv.closedTime.isNone then some iv else none

/-- A record of the log changed, found by its index. -/
def State.mapInterval (s : State) (index : Nat) (f : Interval → Interval) : State :=
  { s with
      ret := { s.ret with
        intervals := s.ret.intervals.map fun iv => if iv.index = index then f iv else iv } }

/-- The open interval changed, if one is open. -/
def State.mapOpen (s : State) (f : Interval → Interval) : State :=
  match s.openInterval with
  | some iv => s.mapInterval iv.index f
  | none => s

/-- The flags of the heard balance state added (R130). -/
def IntervalFlags.heard (f : IntervalFlags) (b : BalState) : IntervalFlags :=
  { f with
      inLoss := f.inLoss || b == .losing || b == .totalLoss
      totalLoss := f.totalLoss || b == .totalLoss
      water := f.water || b == .gaining || b == .flowing }

def IntervalFlags.clear : IntervalFlags := ⟨false, false, false, false, false, false, false⟩

/-- The record of an interval that becomes open, with the flags of that moment (R128, R130). -/
def State.newInterval (s : State) (index : Nat) : Interval :=
  { index := index
    closedTime := none
    seconds := 0
    turns := 0
    rop := none
    meanRpm := none
    loss := 0
    gain := 0
    flags := { IntervalFlags.clear.heard s.ret.balState with depthUnsure := s.depth.bitDepth.isNone }
    sample := .none
    sampleTime := none
    lithology := none
    cls := none
    source := none
    provisional := none
    current := none }

/-! ## Closing intervals (R131 to R134) -/

/-- ROP and mean rpm at the close (R132, step 1). -/
def Interval.rates (l : Nat) (iv : Interval) : Interval :=
  if iv.seconds = 0 then iv
  else { iv with rop := some (l * 60 / iv.seconds), meanRpm := some (min 65535 (iv.turns * 60 / iv.seconds)) }

/-- The volume mark of an interval's bottom (R84). -/
def State.volumeMark (s : State) (bottom : Nat) : Nat := min top48 (s.ret.pumped + s.annVol bottom)

/-- The record of one interval closed: its rates, its charges, its tag or UNTRACKED (R132, R134, R152). -/
def State.closeRecord (s : State) (iv : Interval) : State :=
  let l := s.cfg Item.intervalLength 0
  let charge := s.intervalCharge iv.index (s.classInForce iv)
  let bottom := (iv.index + 1) * l
  let room := decide (s.ret.lag.length < Config.lagRoom)
  let done := { iv.rates l with
    provisional := some (s.intervalCharge iv.index s.defaultClass)
    current := some charge
    sample := if room then .inTransit else .untracked }
  { s with
      ret := { s.ret with
        intervals := s.ret.intervals ++ [done]
        closedFootage := s.ret.closedFootage + l
        sumProvisional := satAdd top32 s.ret.sumProvisional (s.intervalCharge iv.index s.defaultClass)
        sumCurrent := satAdd top32 s.ret.sumCurrent charge
        lag := if room then s.ret.lag ++ [⟨iv.index, s.volumeMark bottom, bottom, s.ret.jobTime⟩]
               else s.ret.lag } }

/-- One interval closed; SAMPLE_UNTRACKED is reported at each close, active when it is made UNTRACKED and clear when
it is tagged (R134). -/
def State.closeOne (s : State) (iv : Interval) : State :=
  (s.closeRecord iv).report .sampleUntracked !(decide (s.ret.lag.length < Config.lagRoom))

/-- The intervals a rise of H passes, in order of index: the deepest takes the counts of the open interval,
the others are COARSE with none; all take its flags (R131). -/
def State.closeRun (s : State) (op : Interval) : Nat → Nat → State
  | 0, _ => s
  | n + 1, k =>
    let iv :=
      if n = 0 then { op with index := k, closedTime := some s.ret.jobTime }
      else
        { op with
            index := k
            closedTime := some s.ret.jobTime
            seconds := 0
            turns := 0
            loss := 0
            gain := 0
            flags := { op.flags with coarse := true } }
    (s.closeOne iv).closeRun op n (k + 1)

/-- The strata unit is told that H has risen (R131, R133). -/
def State.holeRose (s : State) : State :=
  let l := s.cfg Item.intervalLength 0
  let limit := s.cfg Item.depthLimit 0
  match s.openInterval with
  | none => s
  | some op =>
    let upTo := min (s.ret.hole / l) (limit / l)
    if op.index < upTo then
      let s := { s with ret := { s.ret with intervals := s.ret.intervals.dropLast } }
      let s := s.closeRun op (upTo - op.index) op.index
      if s.ret.hole < limit then
        { s with ret := { s.ret with intervals := s.ret.intervals ++ [s.newInterval (s.ret.hole / l)] } }
      else s
    else s

/-- The most recently closed interval is UNTRACKED (R134). -/
def State.lastClosedUntracked (s : State) : Bool :=
  ((s.ret.intervals.filter fun iv => iv.closedTime.isSome).getLast?.map
    fun iv => iv.sample == .untracked).getD false

/-! ## The close of a job (R143, R158 to R161) -/

/-- The job becomes CLOSED: the job-second timer stops and the pumps are told (R58, R146, R159). -/
def State.jobClosed (s : State) : State :=
  { s with
      ret := { s.ret with job := .closed, close := .complete }
      billing := { s.billing with jobTimer := none }
      pumps := ⟨s.pumps.a.jobClosed, s.pumps.b.jobClosed⟩ }

/-- The statement is frozen (R159, step 2). -/
def State.freeze (s : State) : State := { s with ret := { s.ret with frozen := some s.liveStatement } }

/-- Steps 1 to 4 of a completed close (R159), which an abrupt close shares (R160). -/
def State.finishClose (s : State) (kind : CloseKind) : State :=
  ((s.checkCeiling.freeze).appendMark .close (if kind = .normal then 0 else 1)).jobClosed

/-- The completion test of a RECORD station in CLOSING (R159). -/
def State.completionTest (s : State) : State :=
  if s.strataOn && s.ret.job == .closing && s.ret.lag.isEmpty && !s.zoneOpen then s.finishClose .normal
  else s

/-- A tagged interval becomes LOST or SURFACED at this job time (R135, R143). -/
def State.sampleUp (s : State) (index : Nat) (lost : Bool) : State :=
  s.mapInterval index fun iv =>
    { iv with sample := if lost then .lost else .surfaced, sampleTime := some s.ret.jobTime }

/-- The lag queue emptied, each interval LOST, oldest first (R143). -/
def State.loseTags (s : State) : State :=
  let s' := s.ret.lag.foldl (fun s t => s.sampleUp t.index true) s
  { s' with ret := { s'.ret with lag := [] } }

/-- An abrupt close at a RECORD station (R160). DESIGN CHOICE (log 64): the close kind is set before the first of the
five steps, so the frozen statement shows it. -/
def State.abruptClose (s : State) (kind : CloseKind) : State :=
  let s := { s with ret := { s.ret with closeKind := some kind } }
  (s.loseTags.closeZones none).finishClose kind

/-- A close at a station without the RECORD role (R158, R161). -/
def State.plainClose (s : State) (kind : CloseKind) : State :=
  ({ s with ret := { s.ret with closeKind := some kind } }).jobClosed

/-- The peer close test holds (R161). -/
def State.peersClosed (s : State) : Bool :=
  s.peers.all fun p => !p.has (·.record) || p.status.all fun m => m.job == .closed

/-- The peer close test made (R161). -/
def State.peerCloseTest (s : State) : State :=
  if s.inRun && !s.straps.record && s.ret.job == .closing && s.peersClosed then s.plainClose .normal
  else s

/-! ## Pumped volume and tags (R65, R135) -/

/-- The sample of a tag that leaves now is lost (R135). -/
def State.sampleLost (s : State) : Bool :=
  s.circ.heardReturn == some 0 || s.ret.balState == .totalLoss

/-- The tags whose marks V has reached leave, oldest first (R135). -/
def State.releaseDue (s : State) : List LagTag → State
  | [] => { s with ret := { s.ret with lag := [] } }
  | t :: rest =>
    if t.mark ≤ s.ret.pumped then (s.sampleUp t.index s.sampleLost).releaseDue rest
    else { s with ret := { s.ret with lag := t :: rest } }

/-- V has risen: tags leave, and a close in progress is tested (R135, R159). -/
def State.tagRelease (s : State) : State :=
  if s.strataOn then (s.releaseDue s.ret.lag).completionTest else s

/-- A stroke credit (R65). -/
def State.credit (s : State) (volume : Nat) : State :=
  let v := satAdd top48 s.ret.pumped volume
  if v = s.ret.pumped then s else ({ s with ret := { s.ret with pumped := v } }).tagRelease

/-- A stroke gap (R67, R130). -/
def State.strokeGap (s : State) : State :=
  if s.strataOn then s.mapOpen fun iv => { iv with flags := { iv.flags with gap := true } } else s

/-! ## The heard balance record (R70) -/

/-- The fields of the heard balance record. -/
structure Heard where
  state : BalState
  ret : Option Nat
  lost : Nat
  gained : Nat
  water : Nat
  source : Option Nat
  stale : Bool
  deriving DecidableEq, Repr

def State.heard (s : State) : Heard :=
  ⟨s.ret.balState, s.circ.heardReturn, s.ret.lost, s.ret.gained, s.ret.water, s.circ.heardSource,
   s.circ.heardStale⟩

def State.setHeard (s : State) (n : Heard) : State :=
  { s with
      ret := { s.ret with balState := n.state, lost := n.lost, gained := n.gained, water := n.water }
      circ := { s.circ with heardReturn := n.ret, heardSource := n.source, heardStale := n.stale } }

/-- What the strata unit does at an update from `old` (R129, R130, R139, R140). -/
def State.strataHeard (s : State) (old : Heard) : State :=
  let lost := s.ret.lost - old.lost
  let gained := s.ret.gained - old.gained
  let s := s.mapOpen fun iv => { iv with flags := iv.flags.heard s.ret.balState }
  let s := if old.state = s.ret.balState then s else s.zonesFollow
  let s := s.mapZones (ZoneEntry.addVolume lost gained)
  s.mapOpen fun iv => { iv with loss := satAdd top32 iv.loss lost, gain := satAdd top32 iv.gain gained }

/-- A rise of W is added to the billed water volume (R155). -/
def State.billWater (s : State) (rise : Nat) : State :=
  { s with ret := { s.ret with billedWater := satAdd top32 s.ret.billedWater rise } }

/-- The heard balance record takes new values; the strata and billing units are told of a change (R70). The
completion test of R159 is made once they have acted (log 53). -/
def State.heardUpdate (s : State) (n : Heard) : State :=
  let old := s.heard
  if old = n then s
  else
    let s := s.setHeard n
    if s.strataOn then ((s.strataHeard old).billWater (n.water - old.water)).completionTest else s

/-- A peer entry's balance figures, when its last STATUS carries them: a pit peer (R70). -/
def PeerEntry.figures (p : PeerEntry) : Option (BalanceFigures × Nat) :=
  p.status.bind fun m => m.balance.map fun b => (b, m.water)

/-- The record of a station that is not the pit station, from its pit peers (R70). -/
def State.heardFromPeers (s : State) : Heard :=
  let pits := s.peers.filter fun p => p.figures.isSome
  let pick := ((pits.find? fun p => !p.stale).orElse fun _ => pits.head?)
  match pick.bind fun p => p.figures.map fun f => (p, f) with
  | some (p, b, w) => ⟨b.state, b.ret, b.lost, b.gained, w, some p.station, p.stale⟩
  | none => ⟨.suspended, none, s.ret.lost, s.ret.gained, s.ret.water, none, false⟩

/-- The record chosen again after a STATUS, a staleness or a return (R70). -/
def State.heardRefresh (s : State) : State :=
  if s.isPit then s else s.heardUpdate s.heardFromPeers

/-- The accepted RETURN step, or none while it is unknown (R70). -/
def State.ownReturn (s : State) : Option Nat :=
  if s.thresholds.ret.known then some s.thresholds.ret.accepted else none

end Sys2Proof.Machine
end

