-- ==== Sys2Proof/Machine/Flags.lean ====
section
/-! DEFINITION. The alarm unit (chapter 10), the field outputs (R19, R22, R168), the retained images (R20),
and what stands at the end of every step. An alarm condition is a test of the state; the flags follow it at
the end of a step, in the order of section 10.1 (log 14). -/

namespace Sys2Proof.Machine

/-! ## Conditions (section 10.1) -/

def SeqState.stopped : SeqState → Bool
  | .hold _ => true
  | .fault _ => true
  | _ => false

/-- The own claim is ACTIVE (R31). -/
def State.claimActive (s : State) : Bool := s.ret.claim.phase == .active

/-- The station is in claim conflict (R36). -/
def State.inConflict (s : State) : Bool :=
  s.claimActive && s.otherClaims.any fun c => c.phase == .active

/-- A peer's last STATUS carries a digest that differs under R15's comparison. DEDUCED (log 60): the own job state is
taken as it is now, so a STATUS heard in CONFIG counts from CONFIG_LOCK on. -/
def State.digestDiffers (s : State) (m : StatusMsg) : Bool :=
  s.ret.job != .noJob && m.job != .noJob && m.digest != s.ret.digest

/-- The condition holds now (section 10.1); CONFIG_MISMATCH at CONFIG_LOCK: log 60. -/
def State.alarmCond (s : State) : AlarmCond → Bool
  | .loss => s.isPit && s.ret.balState == .losing
  | .totalLoss => s.isPit && s.ret.balState == .totalLoss
  | .water => s.isPit && (s.ret.balState == .gaining || s.ret.balState == .flowing)
  | .pressureHigh => s.pumps.a.pressureHigh || s.pumps.b.pressureHigh
  | .pumpStall => s.pumps.a.state == .stalled || s.pumps.b.state == .stalled
  | .sequenceHold => s.seq.state.stopped
  | .claimConflict => s.inConflict
  | .staleClaim => s.claimView.any (·.stale)
  | .linkFault => s.link.fault.isSome
  | .configMismatch => s.peers.any fun p => p.status.any s.digestDiffers
  | .rodViewUnsure => !s.viewSure
  | .sampleUntracked => s.straps.record && s.lastClosedUntracked
  | .depthLimit => s.straps.record && decide (s.cfg Item.depthLimit 0 ≤ s.ret.hole)
  | .ceilingNear => s.billing.near
  | .ceilingReached => s.billing.reached

/-! ## The flags follow (R166, R167) -/

/-- One condition's flag follows it. -/
def State.follow (s : State) (c : AlarmCond) : State := s.report c (s.alarmCond c)

/-- In RUN every flag follows its condition; LINK_FAULT follows once more, because an ALARM frame dropped at
a full URGENT queue may have latched the fault record (R167). -/
def State.alarmsFollow (s : State) : State :=
  if s.inRun then (AlarmCond.all.foldl State.follow s).follow .linkFault else s

/-! ## Outputs (R19, R22, R42, R51, R111, R118, R168) -/

/-- The levels of the field outputs; all de-asserted outside RUN. -/
def State.outputsNow (s : State) : Outputs :=
  if s.inRun then
    { driveA := s.pumps.a.high
      driveB := s.pumps.b.high
      permit := s.spin.permit
      makeDir := s.spin.makeOut
      breakDir := s.spin.breakOut
      clamp := s.ret.clampOut
      grip := s.ret.gripOut
      index := s.seq.index
      present := s.seq.present
      store := s.seq.store
      retract := s.seq.retract
      horn := s.alarm.pending != 0 }
  else .off

/-! ## Retained images (R20) -/

/-- Whether number `a` is the greater of the two: it follows `b` by less than 32,768, modulo 65,536. -/
def numberGreater (a b : Nat) : Bool :=
  let d := (a + 65536 - b % 65536) % 65536
  decide (0 < d) && decide (d < 32768)

/-- The retained image, as CHECK takes it; none when neither image is good. -/
def newestGood (first second : Image) : Option ImageId :=
  if first.good && second.good then
    if numberGreater second.number first.number then some .second else some .first
  else if first.good then some .first
  else if second.good then some .second
  else none

/-- The image a changed retained state goes to: the one that does not hold the newest good state (R20). -/
def writeTarget (first second : Image) : ImageId :=
  if newestGood first second = some .first then .second else .first

/-- An image after a step: written with the next number when the retained state has changed and it is its turn
(R20, log 11). -/
def imageAfter (before : State) (r : Retained) (id : ImageId) (own other : Image) : Image :=
  if r ≠ before.ret ∧ writeTarget before.first before.second = id then .written r ((other.number + 1) % 65536)
  else own

/-- The images after a step (R20, log 11). DESIGN CHOICE (log 58): rod view changes (R90, R92) are written with the
command that makes them, also when the step's frames wait and its change of step (R125) comes in a later write. -/
def State.commit (before s : State) : State :=
  { s with
      first := imageAfter before s.ret .first before.first before.second
      second := imageAfter before s.ret .second before.second before.first
      lastWrite := if s.ret = before.ret then none else some (writeTarget before.first before.second) }

/-! ## The end of a step -/

/-- The outputs brought to the state. -/
def State.drive (s : State) : State := { s with outs := s.outputsNow }

/-- What follows the effect `s` of a command taken at `before`: alarms, retained images, outputs. -/
def State.finish (before s : State) : State :=
  { (State.commit before s.alarmsFollow).drive with pending := before.pending }

/-- A command's effect at a station that runs (CONFIG or RUN); any other station is left as it is. -/
def State.poweredDo (s : State) (effect : State → State) : State :=
  if s.powered then s.finish (effect s) else s

/-- A command's effect at a station in RUN. -/
def State.inRunDo (s : State) (effect : State → State) : State :=
  s.poweredDo fun s => if s.inRun then effect s else s

end Sys2Proof.Machine
end

