-- ==== Sys2Proof/Machine/HeadOps.lean ====
section
/-! DEFINITION. HEAD frames and their calls (R88), the rotation permit (R42), the end of a spin (R118), the
depth recomputation and what calls for it (R93, R94), wear (R101, R102) and the head source (R89). -/

namespace Sys2Proof.Machine

/-! ## HEAD frames (R88) -/

/-- The contents of a HEAD frame as the station stands (R88, R118). -/
def State.headMsg (s : State) : HeadMsg :=
  { h := s.depth.h
    known := s.depth.headKnown
    permit := s.spin.permit
    spin := s.spin.state
    turns := s.ret.turns
    spinTurns := s.ret.spinTurns
    rpm := s.depth.rpm
    number := s.spin.number
    owner := s.spin.owner
    kind := s.spin.kind }

/-- A HEAD frame handed, which starts the 200 ms anew; a kept call stays kept (R88, log 49). -/
def State.handHead (s : State) : State :=
  let s := s.broadcast .head none (encodeHead s.headMsg)
  { s with depth := { s.depth with holdoff := some 200, lastHanded := some s.depth.h } }

/-- A call for a HEAD frame (R88): handed at once, or kept while the 200 ms run. -/
def State.headCall (s : State) : State :=
  if s.inRun && s.straps.head then
    if s.depth.holdoff.isSome then { s with depth := { s.depth with callKept := true } } else s.handHead
  else s

/-- h differs by 10 mm or more from the position last handed (R88); before the first frame any position does
(log 20). -/
def DepthUnit.movedFar (d : DepthUnit) : Bool :=
  match d.lastHanded with
  | none => true
  | some p => decide (p + 10 ≤ d.h) || decide (d.h + 10 ≤ p)

/-! ## The rotation permit and the SPIN service (R42, R118) -/

/-- The permit by R42. -/
def State.permitNow (s : State) : Bool :=
  s.inRun && s.straps.head &&
    ((s.claims.listen.isNone && !s.viewHolds) || s.spin.state == .running)

/-- The permit evaluated again; a change calls for a HEAD frame (R42, R88). -/
def State.reevalPermit (s : State) : State :=
  if s.permitNow = s.spin.permit then s
  else ({ s with spin := { s.spin with permit := s.permitNow } }).headCall

/-- A running spin ends in a state (R118): directions off, timer stopped, permit evaluated, one call. -/
def State.spinEnd (s : State) (st : SpinState) : State :=
  if s.spin.state = .running then
    let s := { s with spin := { s.spin with
      state := st
      timer := none
      makeOut := false
      breakOut := false } }
    ({ s with spin := { s.spin with permit := s.permitNow } }).headCall
  else s

/-- The owner's claim has left the view: a running spin ends ABANDONED (R118). -/
def State.spinOwnerCheck (s : State) : State :=
  if s.spin.state = .running ∧ !(s.claimView.any fun c => some c.station == s.spin.owner) then
    s.spinEnd .abandoned
  else s

/-! ## Depth (R93, R94) -/

/-- Bit depth takes a value; H becomes a known D greater than it (R93, R94). -/
def State.takeDepth (s : State) (d : Option Nat) : State :=
  { s with
    ret := { s.ret with hole := max s.ret.hole (d.getD 0) }
    depth := { s.depth with bitDepth := d, onBottom := onBottomAt d (max s.ret.hole (d.getD 0)) } }

/-- Bit depth formed again; the strata unit is told of a rise of H and of D becoming unknown (R93, R94, R130,
R131). -/
def State.recomputeDepth (s : State) : State :=
  if s.inRun then
    let d := s.depthNow
    let t := s.takeDepth d
    let t := if s.ret.hole < t.ret.hole ∧ t.strataOn then t.holeRose else t
    if s.depth.bitDepth.isSome && d.isNone && t.strataOn then
      t.mapOpen fun iv => { iv with flags := { iv.flags with depthUnsure := true } }
    else t
  else s

/-- What R93 and R89 have bit depth recomputed at a change of: the head source and its values, the string list, the
hold record and the rod view state. -/
structure DepthInputs where
  source : Option Nat
  head : Option HeadValues
  string : List Nat
  hold : HoldRec
  sure : Bool
  deriving DecidableEq, Repr

def State.depthInputs (s : State) : DepthInputs where
  source := s.depth.headSource
  head := s.headValues
  string := s.ret.string
  hold := s.ret.hold
  sure := s.viewSure

/-- Bit depth after a change made at `before`: recomputed where one of its inputs has changed, and left with H where
none has (R93; R94: H is not otherwise changed in RUN). DEDUCED (log 71): a change is a change of value. -/
def State.depthFollows (s before : State) : State :=
  if s.depthInputs = before.depthInputs then s else s.recomputeDepth

/-! ## Wear (R101, R102) -/

/-- Turns added to a rod of the string; at the wear life it is due (R101, R102). -/
def State.wearRod (s : State) (n : Nat) (r : Rod) : Rod :=
  let turns := satAdd top32 r.turns n
  { r with turns := turns, due := r.due || decide (s.cfg Item.typeWear r.type * 1000 ≤ turns) }

/-- Non-spin turns credited to the string list: to the rods at a ROD station, and while on bottom to the
open interval (R101, R129). -/
def State.creditTurns (s : State) (n : Nat) : State :=
  let s :=
    if s.straps.rod then
      { s with
          ret := { s.ret with
            rods := s.ret.rods.map fun r => if s.ret.string.contains r.id then s.wearRod n r else r } }
    else s
  if s.strataOn && s.depth.onBottom then s.mapOpen fun iv => { iv with turns := satAdd top32 iv.turns n }
  else s

/-- The head source's turns counts have changed (R101, log 21). -/
def State.wearCredit (s : State) : State :=
  match s.headValues with
  | none => s
  | some v =>
    let old := s.depth.wear
    let s := { s with depth := { s.depth with wear := some (v.turns, v.spinTurns) } }
    match old with
    | none => s
    | some (turns, spins) =>
      let d := diff32 v.turns turns
      let ds := diff32 v.spinTurns spins
      if d ≤ 100000 ∧ ds ≤ d then s.creditTurns (d - ds) else s

/-! ## The head source (R89) -/

/-- The source chosen again; a change makes the wear baseline not valid (R89, R101). -/
def State.chooseHeadAgain (s : State) : State :=
  let k := s.chooseHead
  if k = s.depth.headSource then s
  else { s with depth := { s.depth with headSource := k, wear := none } }

/-- What follows a change made in a peer's entry at `before` (R89): the source chosen again, then depth where the source
or its values have changed. -/
def State.headRefresh (s before : State) : State :=
  if s.inRun && !s.straps.head then s.chooseHeadAgain.depthFollows before else s

end Sys2Proof.Machine
end

