-- ==== Sys2Proof/Machine/Balance.lean ====
section
/-! DEFINITION. The balance evaluation (R73 to R81) and the water meter (R69). -/

namespace Sys2Proof.Machine

/-- What an evaluation reads (R73, R74, R76). -/
structure Reading where
  pit : Nat
  ret : Nat
  water : Nat
  hole : Nat
  bit : Nat
  running : Bool
  stopped : Bool
  deriving DecidableEq, Repr

/-- The readings of a computable evaluation, none when it is not computable (R73). -/
def State.reading (s : State) : Option Reading :=
  if s.headPosition.isSome && s.viewSure && s.noStalePump && s.thresholds.pit.known &&
      s.thresholds.ret.known then
    s.depthNow.map fun d =>
      { pit := s.thresholds.pit.accepted * s.cfg Item.pitStep 0
        ret := s.thresholds.ret.accepted
        water := s.ret.water
        hole := s.ret.hole
        bit := d
        running := s.pumpRunning
        stopped := s.viewStrokeStopped }
  else none

/-- The reference a rebase takes (R75). -/
def Reading.reference (r : Reading) : BalRef := ⟨r.pit, r.water, r.hole, r.bit⟩

/-- The imbalance L = E − M (R74). -/
def State.imbalance (s : State) (ref : BalRef) (r : Reading) : Int :=
  (ref.pit : Int) + ((r.water : Int) - ref.water) - ((s.holeVol r.hole : Int) - s.holeVol ref.hole) +
    ((s.steelVol r.bit : Int) - s.steelVol ref.bit) - r.pit

/-- A run of 0 to 3 that grows while a test holds (R76). -/
def runOn (count : Nat) (holds : Bool) : Nat := if holds then min 3 (count + 1) else 0

/-- The trackers updated (R76). The no-return timer holds the seconds it has run; evaluations are 2 s apart
(R73). -/
def Trackers.update (t : Trackers) (st : BalState) (lossThr gainThr : Nat) (l : Int) (r : Reading) : Trackers :=
  { t with
      lossRun := runOn t.lossRun (decide ((lossThr : Int) ≤ l))
      gainRun := runOn t.gainRun (decide (l ≤ -(gainThr : Int)))
      noReturn :=
        if r.running && r.ret == 0 then
          match t.noReturn with
          | none => some 0
          | some k => some (k + 2)
        else none
      flow := runOn t.flow (r.stopped && decide (2 ≤ r.ret))
      restore := if st = .totalLoss then runOn t.restore (decide (1 ≤ r.ret)) else t.restore
      dry := if st = .flowing then runOn t.dry (r.ret == 0) else t.dry }

/-- Entry to a state (R76, R78): its count is set to 0. -/
def Trackers.enter (t : Trackers) : BalState → Trackers
  | .totalLoss => { t with restore := 0 }
  | .flowing => { t with dry := 0 }
  | .losing => { t with quiet := 0 }
  | .gaining => { t with quiet := 0 }
  | .balanced => t
  | .suspended => t

/-- The first of R77's four tests that applies, as the state it gives. -/
def balTest (st : BalState) (confirm : Nat) (t : Trackers) : Option BalState :=
  if st ≠ .totalLoss ∧ t.noReturn.any (fun k => decide (confirm ≤ k)) then some .totalLoss
  else if st = .totalLoss ∧ t.restore = 3 then some .losing
  else if st ≠ .totalLoss ∧ st ≠ .flowing ∧ t.flow = 3 then some .flowing
  else if st = .flowing ∧ t.dry = 3 then some .balanced
  else none

/-- The state an increment moves to when no test moved it (R77). -/
def BalState.incremented (st : BalState) (loss : Bool) : BalState :=
  match st with
  | .totalLoss => .totalLoss
  | .flowing => .flowing
  | _ => if loss then .losing else .gaining

/-- The outcome of one evaluation. -/
structure Evaluation where
  state : BalState
  trackers : Trackers
  reference : Option BalRef
  lost : Nat
  gained : Nat
  deriving DecidableEq, Repr

/-- The quiet count (R78). -/
def quietly (st : BalState) (t : Trackers) : BalState × Trackers :=
  if st = .losing ∨ st = .gaining then
    if 30 ≤ t.quiet + 1 then (.balanced, { t with quiet := t.quiet + 1 })
    else (st, { t with quiet := t.quiet + 1 })
  else (st, t)

/-- The tests, the increments and the quiet count (R77, R78), after the trackers are updated. -/
def decideBalance (st : BalState) (confirm : Nat) (t : Trackers) (l : Int) (r : Reading) (e : Evaluation) :
    Evaluation :=
  let test := balTest st confirm t
  let st1 := test.getD st
  let t := if test.isSome then t.enter st1 else t
  if t.lossRun = 3 then
    let st2 := if test.isSome then st1 else st.incremented true
    { state := st2
      trackers := { t.enter st2 with
        restore := t.restore
        dry := t.dry
        lossRun := 0 }
      reference := some r.reference
      lost := satAdd top32 e.lost l.toNat
      gained := e.gained }
  else if t.gainRun = 3 then
    let st2 := if test.isSome then st1 else st.incremented false
    { state := st2
      trackers := { t.enter st2 with
        restore := t.restore
        dry := t.dry
        gainRun := 0 }
      reference := some r.reference
      lost := e.lost
      gained := satAdd top32 e.gained (-l).toNat }
  else
    let q := if test.isSome then (st1, t) else quietly st1 t
    { e with state := q.1, trackers := q.2 }

/-- One evaluation (R81, then R76 to R78). -/
def State.evaluate (s : State) : Evaluation :=
  let now : Evaluation := ⟨s.ret.balState, s.circ.trackers, s.ret.reference, s.ret.lost, s.ret.gained⟩
  match s.reading with
  | none => if s.ret.balState = .suspended then now else { now with state := .suspended, trackers := .clear }
  | some r =>
    match s.ret.balState, s.ret.reference with
    | .suspended, _ => { now with state := .balanced, trackers := .clear, reference := some r.reference }
    | _, none => { now with state := .balanced, trackers := .clear, reference := some r.reference }
    | st, some ref =>
      let l := s.imbalance ref r
      let t := s.circ.trackers.update st (s.cfg Item.lossThreshold 0) (s.cfg Item.gainThreshold 0) l r
      decideBalance st (s.cfg Item.totalLossConfirm 0) t l r now

/-- An evaluation taken in: trackers and reference, then the heard record (R70, R77). -/
def State.takeEvaluation (s : State) (e : Evaluation) : State :=
  let s := { s with
    ret := { s.ret with reference := e.reference }
    circ := { s.circ with trackers := e.trackers } }
  s.heardUpdate { s.heard with state := e.state, lost := e.lost, gained := e.gained }

/-- One pulse of the water meter (R69). -/
def State.waterPulse (s : State) : State :=
  s.heardUpdate { s.heard with water := satAdd top32 s.ret.water (s.cfg Item.waterPerPulse 0) }

end Sys2Proof.Machine
end

