-- ==== Sys2Proof/Machine/SeqSteps.lean ====
section
/-! DEFINITION. The steps of the make-up and break-out units (R112, R114) and the entry to HOLD or FAULT
(R119, R123). -/

namespace Sys2Proof.Machine

/-- What a step of a unit is. -/
inductive StepKind where
  | claim
  | waitPumps
  | waitPosition
  | clamp
  | fetch
  | spin (kind : SpinKind)
  | grip
  | store
  | release
  deriving DecidableEq, Repr

/-- The steps of the two units (R112, R114). -/
def stepKind : OpKind → Nat → StepKind
  | .makeUp, 1 => .claim
  | .makeUp, 2 => .waitPumps
  | .makeUp, 3 => .release
  | .makeUp, 4 => .waitPosition
  | .makeUp, 5 => .clamp
  | .makeUp, 6 => .spin .unlatch
  | .makeUp, 7 => .waitPosition
  | .makeUp, 8 => .fetch
  | .makeUp, 9 => .spin .make
  | .makeUp, _ => .release
  | .breakOut, 1 => .claim
  | .breakOut, 2 => .waitPumps
  | .breakOut, 3 => .waitPosition
  | .breakOut, 4 => .spin .latch
  | .breakOut, 5 => .release
  | .breakOut, 6 => .waitPosition
  | .breakOut, 7 => .clamp
  | .breakOut, 8 => .grip
  | .breakOut, 9 => .spin .break
  | .breakOut, 10 => .store
  | .breakOut, 11 => .waitPosition
  | .breakOut, 12 => .spin .latch
  | .breakOut, _ => .release

/-- The number of the last step. -/
def lastStep : OpKind → Nat
  | .makeUp => 10
  | .breakOut => 13

/-- The hold record of a hanging string. -/
abbrev hung : HoldRec := ⟨.hung, .latched, false⟩

/-- Whether a step is taken, judged from the hold record when the step before it ends (R112, R114). -/
def stepTaken (kind : OpKind) (n : Nat) (r : HoldRec) : Bool :=
  match kind, n with
  | .makeUp, 3 => r == ⟨.clamped, .latched, true⟩
  | .makeUp, 4 => r.hold == .hung
  | .makeUp, 5 => r.hold == .hung
  | .makeUp, 6 => r.head == .latched
  | .breakOut, 3 => r == ⟨.clamped, .free, false⟩
  | .breakOut, 4 => r == ⟨.clamped, .free, false⟩
  | .breakOut, 5 => r == ⟨.clamped, .latched, false⟩
  | .breakOut, 6 => r.hold == .hung
  | .breakOut, 7 => r.hold == .hung
  | _, _ => true

/-- The first step taken from a number on. -/
def stepFrom (kind : OpKind) (r : HoldRec) : Nat → Nat → Nat
  | 0, n => n
  | fuel + 1, n => if stepTaken kind n r then n else stepFrom kind r fuel (n + 1)

/-- The step after a step (R112, R114). -/
def nextStep (kind : OpKind) (r : HoldRec) (n : Nat) : Nat := stepFrom kind r 13 (n + 1)

/-- The step in hand of a unit. -/
def UnitRec.kindOfStep (u : UnitRec) : StepKind := stepKind u.kind u.step

def StepKind.isSpin : StepKind → Bool
  | .spin _ => true
  | _ => false

/-- Every motion output de-asserted (R111). -/
def Sequencer.still (q : Sequencer) : Sequencer :=
  { q with index := false, present := false, store := false, retract := false }

/-- The unit record moved to the step after the one in hand. -/
def Retained.stepOn (r : Retained) : Retained :=
  { r with unit := r.unit.map fun u => { u with step := nextStep u.kind r.hold u.step } }

/-- A SPIN step that has made its changes and only waits for its frames to join is not repeated: the step in hand
is the one after it (R119, log 24). -/
def State.stepDone (s : State) : Bool :=
  s.seq.state == .running && s.seq.phase == .ending && s.ret.unit.any fun u => u.kindOfStep.isSpin

/-- A request that only waits for room is withdrawn. -/
def SpinRequest.dropWaiting : SpinRequest → SpinRequest
  | .waiting _ _ => .none
  | r => r

/-- Entry to HOLD or FAULT (R119): the step stops, its timer stops, motion outputs are de-asserted, and the
maintained outputs and the claim stay. -/
def State.seqStop (s : State) (st : SeqState) : State :=
  { s with
      ret := if s.stepDone then s.ret.stepOn else s.ret
      seq := { s.seq.still with
        state := st
        phase := .first
        timer := none
        spin := if s.stepDone then .none else s.seq.spin.dropWaiting } }

/-- Entry to HOLD. -/
def State.seqHold (s : State) (cause : StopCause) : State := s.seqStop (.hold cause)

/-- Entry to FAULT. -/
def State.seqFault (s : State) (cause : StopCause) : State := s.seqStop (.fault cause)

/-- R36: in claim conflict the sequencer is put in HOLD with cause CLAIM_CONFLICT, from whatever state. -/
def State.conflictCheck (s : State) : State :=
  if s.inRun && s.inConflict && s.seq.state != .hold .claimConflict then s.seqHold .claimConflict else s

/-- R123: entry to LISTEN_ONLY at a ROD station. -/
def State.seqSilenced (s : State) : State :=
  let s := { s with seq := { s.seq with queue := [] } }
  if s.seq.state = .hold .claimConflict then s else s.seqHold .silenced

/-- The station enters LISTEN_ONLY (R4, R44, R58, R123). In CONFIG only the link unit acts. -/
def State.listenOnlyNow (s : State) : State :=
  if s.link.listenOnly then s
  else
    let s := { s with link := s.link.silence }
    if s.inRun then
      let s := { s with claims := { s.claims with settle := none } }
      let s := s.mapPumps fun _ c => c.silenced
      if s.straps.rod then s.seqSilenced else s
    else s

end Sys2Proof.Machine
end

