-- ==== Sys2Proof/Machine/ClaimOps.lean ====
section
/-! DEFINITION. The claim unit (chapter 3): the moves of the own claim, and what a change of the claim view
does. In LISTEN_ONLY the own claim does not move (R44). -/

namespace Sys2Proof.Machine

/-- The view has changed from holding a claim or not, `wasHeld` (R37, R41, R42). -/
def State.viewChanged (wasHeld : Bool) (s : State) : State :=
  if !s.inRun then s
  else if !wasHeld && s.viewHolds then s.pumpsClaimed.reevalPermit
  else if wasHeld && !s.viewHolds then s.pumpsFreed.reevalPermit
  else s

/-- The own claim moved to a phase, announced, and taken into the own view (R31, R33). -/
def State.moveClaim (s : State) (phase : ClaimPhase) : State :=
  let wasHeld := s.viewHolds
  (({ s with ret := { s.ret with claim := ⟨.connection, phase⟩ } }).announceClaim.spinOwnerCheck).viewChanged
    wasHeld

/-- The settle timer started: two of the own status periods (R32). -/
def State.startSettle (s : State) : State :=
  { s with claims := { s.claims with settle := some (2 * s.statusPeriod) } }

/-- The conditions of R32 for taking the claim. -/
def State.mayTake (s : State) : Bool :=
  s.claims.takeRequest && s.ret.claim.phase == .none && !s.viewHolds && s.claims.listen.isNone && s.inRun &&
    !s.link.listenOnly

/-- The test of R32: the claim is taken, and the sequencer waits in CLAIMING (R107). -/
def State.takeTest (s : State) : State :=
  if s.mayTake then
    let s := (s.moveClaim .pending).startSettle
    if s.seq.state = .waitClaim then { s with seq := { s.seq with state := .claiming } } else s
  else s

/-- The own claim withdrawn (R35): the take request stays, and the sequencer waits in WAIT_CLAIM. -/
def State.withdrawClaim (s : State) : State :=
  let s := { s with claims := { s.claims with settle := none } }
  let s := s.moveClaim .none
  if s.seq.state = .claiming then { s with seq := { s.seq with state := .waitClaim } } else s

/-- The own claim released (R34). -/
def State.releaseClaim (s : State) : State :=
  let s := { s with claims := { s.claims with takeRequest := false } }
  if s.ret.claim.phase = .none then s
  else ({ s with claims := { s.claims with settle := none } }).moveClaim .none

/-- A claim of another station has entered the view or changed phase (R32, R35, R36). -/
def State.examineClaim (s : State) (station : Nat) (phase : ClaimPhase) : State :=
  match s.ret.claim.phase with
  | .none => s
  | .pending =>
    if s.link.listenOnly then s
    else if phase = .active ∨ station < s.straps.number then s.withdrawClaim
    else s.startSettle
  | .active => s.conflictCheck

/-! ## The peer table -/

/-- The entry of a station changed. -/
def State.mapPeer (s : State) (station : Nat) (f : PeerEntry → PeerEntry) : State :=
  { s with peers := s.peers.map fun p => if p.station = station then f p else p }

/-- The last claim of an entry. -/
def State.peerClaimOf (s : State) (station : Nat) : Claim := ((s.peer? station).map (·.claim)).getD .absent

/-- An entry's last claim set, with what follows in RUN (R37; the order: log 14). -/
def State.setPeerClaim (s : State) (station : Nat) (c : Claim) : State :=
  let old := s.peerClaimOf station
  let wasHeld := s.viewHolds
  let s := s.mapPeer station fun p => { p with claim := c }
  if s.inRun then
    let s := s.spinOwnerCheck.viewChanged wasHeld
    if c.phase = .none then (if old.phase = .none then s else s.takeTest)
    else if c.phase = old.phase then s
    else s.examineClaim station c.phase
  else s

/-- The settle timer has expired (R32); `true` when the claim became ACTIVE. -/
def State.settleExpired (s : State) : State × Bool :=
  if s.ret.claim.phase = .pending then
    if s.otherClaims.isEmpty then
      (({ s with claims := { s.claims with settle := none } }).moveClaim .active, true)
    else (s.startSettle, false)
  else ({ s with claims := { s.claims with settle := none } }, false)

end Sys2Proof.Machine
end

