-- ==== Sys2Proof/Machine/RodOps.lean ====
section
/-! DEFINITION. Moves of rods between places (R90, R91), the ROD station's rod events (R95), events received
(R96, R97), and the rod view's resynchronisation (R98, R100). -/

namespace Sys2Proof.Machine

/-! ## Moves of rods (R90, R91) -/

/-- A rod leaves its place and takes a state and a rack slot. -/
def Retained.placeAt (r : Retained) (id : Nat) (f : RodState → RodState) (slot : Option Nat) : Retained :=
  { r with
      rods := mapRod r.rods id fun d => { d with state := f d.state, slot := slot }
      string := r.string.filter (· != id) }

/-- A RETIRED rod stays RETIRED (R96, R122). -/
def RodState.orRetired (st : RodState) : RodState → RodState
  | .retired => .retired
  | _ => st

/-- A rod pushed on the string top as STRING. -/
def Retained.push (r : Retained) (id : Nat) : Retained :=
  let r := r.placeAt id (fun _ => .string) none
  { r with string := r.string ++ [id] }

/-- The top rod popped into the loader as LOADER. -/
def Retained.pop (r : Retained) (id : Nat) : Retained := r.placeAt id (fun _ => .loader) none

/-- The rod becomes RETIRED with its due flag set; its location is kept (R96). -/
def Retained.retire (r : Retained) (id : Nat) : Retained :=
  { r with rods := mapRod r.rods id fun d => { d with state := .retired, due := true } }

/-- Another rod than `id` holds the slot. -/
def slotTaken (rods : List Rod) (slot id : Nat) : Bool := rods.any fun d => d.slot == some slot && d.id != id

/-- Another rod than `id` is in the loader. -/
def loaderTaken (rods : List Rod) (id : Nat) : Bool := rods.any fun d => d.state == .loader && d.id != id

/-- The named rod goes to a place, or none when the placing cannot be made (R122, test 4). -/
def Retained.placing (r : Retained) (d : Rod) (place : Place) (slot : Nat) : Option Retained :=
  match place with
  | .offRig => some (r.placeAt d.id (RodState.orRetired .offRig) none)
  | .slot =>
    if slotTaken r.rods slot d.id then none
    else some (r.placeAt d.id (RodState.orRetired .rack) (some slot))
  | .loader =>
    if loaderTaken r.rods d.id || d.state == .retired then none
    else some (r.placeAt d.id (fun _ => .loader) none)
  | .stringTop =>
    if d.state = .retired then none
    else if r.string.contains d.id then (if r.string.getLast? = some d.id then some r else none)
    else if r.string.length < Config.stringRoom then some (r.push d.id)
    else none

/-! ## Events of a ROD station (R95) -/

/-- The RETIRED event of a rod counted at a RECORD station while the job runs (R155). -/
def State.countRetired (s : State) (id : Nat) : State :=
  if s.straps.record && s.jobRuns then
    match findRod s.ret.rods id with
    | some d =>
      { s with ret := { s.ret with retirements := countAdd 65535 s.ret.retirements (d.type - 1) 1 } }
    | none => s
  else s

/-- One event after its change: the number advances and a frame is handed (R95). -/
def State.makeEvent (s : State) (kind : RodEventKind) (rod slot : Option Nat) (place : Option Place) : State :=
  let s := { s with ret := { s.ret with eventNo := (s.ret.eventNo + 1) % 65536 } }
  s.broadcast .rodEvent none (encodeRodEvent
    { number := s.ret.eventNo
      kind := kind
      rod := rod
      slot := slot
      place := place
      count := s.ret.string.length
      length := s.stringLength
      hold := s.ret.hold })

/-- A change of the rod records of a ROD station, then its event (R95). -/
def State.rodChange (s : State) (r : Retained) (kind : RodEventKind) (rod slot : Option Nat)
    (place : Option Place) : State :=
  ({ s with ret := r }).makeEvent kind rod slot place

/-! ## Events received (R96, R97) -/

/-- The change an event names, or none when it cannot be made (R96, R97, log 27). -/
def RodEventMsg.change (m : RodEventMsg) (r : Retained) : Option Retained :=
  match m.kind with
  | .holdChanged => some r
  | .added =>
    match m.rod.bind (findRod r.rods) with
    | some d =>
      if (d.slot.isSome || d.state == .loader) && decide (r.string.length < Config.stringRoom) then
        some (r.push d.id)
      else none
    | none => none
  | .removed =>
    match m.rod.bind (findRod r.rods) with
    | some d =>
      if r.string.getLast? = some d.id ∧ !loaderTaken r.rods d.id then some (r.pop d.id) else none
    | none => none
  | .rackLoaded =>
    match m.rod.bind (findRod r.rods), m.slot with
    | some d, some slot =>
      if (d.state == .offRig || d.state == .loader) && decide (slot < Config.rackSlots) &&
          !slotTaken r.rods slot d.id then
        some (r.placeAt d.id (fun _ => .rack) (some slot))
      else none
    | _, _ => none
  | .rackUnloaded =>
    match m.rod.bind (findRod r.rods), m.slot with
    | some d, some slot =>
      if d.slot = some slot then some (r.placeAt d.id (RodState.orRetired .offRig) none) else none
    | _, _ => none
  | .retired =>
    match m.rod.bind (findRod r.rods) with
    | some d => if d.state = .string ∨ d.state = .loader then none else some (r.retire d.id)
    | none => none
  | .confirmed =>
    match m.rod with
    | none => some r
    | some id =>
      match findRod r.rods id, m.place with
      | some d, some place =>
        if place = .slot ∧ ¬ m.slot.getD Config.rackSlots < Config.rackSlots then none
        else r.placing d place (m.slot.getD 0)
      | _, _ => none

/-- The change with the hold record the frame carries, when both can be applied (R92, R96). -/
def RodEventMsg.apply (m : RodEventMsg) (r : Retained) : Option Retained :=
  (m.change r).bind fun r => if m.hold.applies r.string then some { r with hold := m.hold } else none

/-- The view becomes UNSURE and a resynchronisation begins (R97, R98, R100). -/
def State.viewUnsure (s : State) : State :=
  ({ s with rod := { s.rod with
      sure := false
      lagCount := 0
      held := []
      resync := { Resync.begin with request := s.rod.resync.request } } }).depthFollows s

/-- An event from the rod source while the view is SURE (R97). -/
def State.takeEvent (s : State) (m : RodEventMsg) : State :=
  if m.number ≠ (s.ret.eventNo + 1) % 65536 then s.viewUnsure
  else
    match m.apply s.ret with
    | none => s.viewUnsure
    | some r =>
      let s := ({ s with ret := { r with eventNo := m.number } }).depthFollows s
      if s.ret.string.length = m.count ∧ s.stringLength = m.length then s else s.viewUnsure

/-! ## Resynchronisation (R100) -/

/-- The present rod source is heard and fresh. -/
def State.freshSource (s : State) : Option Nat :=
  s.rod.source.bind fun k => if (s.peer? k).any fun p => !p.stale then some k else none

/-- The resynchronisation is to begin again at the next status period: a request under way is to be
discarded, one that waits for room is withdrawn. -/
def Resync.beginAgain (r : Resync) : Resync :=
  { nextPage := 0
    scratch := []
    firstEvent := none
    again := true
    request :=
      match r.request with
      | .sent dest tag _ => .sent dest tag true
      | _ => .none }

def State.resyncAgain (s : State) : State :=
  if s.rod.sure then s else { s with rod := { s.rod with resync := s.rod.resync.beginAgain } }

/-- The code of STRING_READ (R173). -/
abbrev stringReadCode : Nat := 10

/-- A page request enters the outstanding request table (R13). -/
def State.issuePage (s : State) (dest page : Nat) : State :=
  let tag := s.link.nextTag
  let s := s.onLink fun e => Link.issue e s.clockMs dest stringReadCode [byteOf page]
  { s with rod := { s.rod with resync := { s.rod.resync with request := .sent dest tag false } } }

/-- A STRING_READ of the station is outstanding (R100). -/
def Link.pageOutstanding (l : Link) : Bool := l.outstanding.any fun e => e.code == stringReadCode

/-- A page request issued when R100 allows one, or left to wait for room (R13). -/
def State.requestPage (s : State) : State :=
  if s.inRun && !s.straps.rod && !s.rod.sure && !s.link.listenOnly && !s.rod.resync.again &&
      s.rod.resync.request == .none && !s.link.pageOutstanding then
    match s.freshSource with
    | none => s
    | some k =>
      if s.link.canIssue then s.issuePage k s.rod.resync.nextPage
      else
        { s with rod := { s.rod with
            resync := { s.rod.resync with request := .waiting k s.rod.resync.nextPage } } }
  else s

/-- The view becomes UNSURE and the first page is requested if it can be (R100). -/
def State.viewUnsureNow (s : State) : State := s.viewUnsure.requestPage

/-- The page data of a DONE answer (section 11.4). -/
structure PageData where
  count : Nat
  length : Nat
  event : Nat
  hold : HoldRec
  ids : List Nat
  deriving DecidableEq, Repr

/-- Pairs of bytes read as rod IDs. -/
def idPairs : List Byte → List Nat
  | a :: b :: rest => leNat [a, b] :: idPairs rest
  | _ => []

/-- A page's data read back; too short data is none (log 30), and the hold record is read from bits 0 to 2 (DESIGN
CHOICE, log 66). -/
def readPage (data : List Byte) : Option PageData :=
  if data.length < 8 then none
  else some ⟨byteAt data 1, natAt data 2 3, natAt data 5 2, .ofCode (field 0 3 (byteAt data 7)),
    idPairs (data.drop 8)⟩

/-- R100's checks at the last page, that the list has no more than the 128 rods of R93, and that the hold record is
one of R92's (log 30). -/
def State.resyncChecks (s : State) (ids : List Nat) (hold : HoldRec) : Bool :=
  ids.all (fun id => (findRod s.ret.rods id).isSome) && decide ids.Nodup && hold.applies ids &&
    decide (ids.length ≤ Config.stringRoom) &&
    match (s.rod.source.bind s.peer?).bind (·.status) with
    | some m => ids.length == m.stringCount && s.lengthOf ids == m.stringLength
    | none => false

/-- The string list replaced (R100, steps 1 to 3). -/
def Retained.replaceString (r : Retained) (ids : List Nat) : Retained :=
  { r with
      rods := r.rods.map fun d =>
        if ids.contains d.id then { d with state := .string, slot := none }
        else if d.state = .string then { d with state := .offRig, slot := none }
        else d
      string := ids }

/-- The held list worked through (R100): numbers at or less than 32,768 behind n are discarded; once the view
is UNSURE again the rest goes (log 30). -/
def State.workHeld (s : State) : List RodEventMsg → State
  | [] => s
  | m :: rest =>
    if !s.rod.sure then s
    else if (s.ret.eventNo + 65536 - m.number % 65536) % 65536 < 32768 then s.workHeld rest
    else (s.takeEvent m).workHeld rest

/-- The resynchronisation completes (R100, steps 1 to 5), then the held list is worked through. The alarm
flags follow the view at its completion (log 14). -/
def State.resyncComplete (s : State) (ids : List Nat) (hold : HoldRec) (event : Nat) : State :=
  let held := s.rod.held
  let before := s
  let s := { s with
    ret := { s.ret.replaceString ids with hold := hold, eventNo := event }
    rod := { s.rod with sure := true, lagCount := 0, held := [], resync := Resync.begin } }
  let s := (s.depthFollows before).alarmsFollow.workHeld held
  if s.rod.sure then s else s.requestPage

/-- A page taken into the scratch list (R100). -/
def State.takePage (s : State) (p : PageData) : State :=
  match s.rod.resync.firstEvent with
  | some n => if n = p.event then go else s.resyncAgain
  | none => go
where
  go : State :=
    let scratch := s.rod.resync.scratch ++ p.ids
    let s := { s with rod := { s.rod with resync := { s.rod.resync with
      scratch := scratch
      nextPage := s.rod.resync.nextPage + 1
      firstEvent := some p.event } } }
    if scratch.length = p.count then
      if s.resyncChecks scratch p.hold then s.resyncComplete scratch p.hold p.event else s.resyncAgain
    else s.requestPage

/-- The page request has ended (R100): `answer` is the result code and data, none when it TIMED_OUT. -/
def State.pageEnded (s : State) (dest : Nat) (drop : Bool) (answer : Option (Nat × List Byte)) : State :=
  let s := { s with rod := { s.rod with resync := { s.rod.resync with request := .none } } }
  if drop || s.rod.sure || some dest != s.rod.source then s
  else
    match answer with
    | none => s
    | some (code, data) =>
      if code = ResultCode.done.code then
        match readPage data with
        | some p => s.takePage p
        | none => s
      else if code = ResultCode.notFound.code then s.resyncAgain
      else s

/-- What a status period does for the resynchronisation (R100). -/
def State.resyncPeriod (s : State) : State :=
  if s.inRun && !s.straps.rod && !s.rod.sure then
    match s.rod.resync.request with
    | .none =>
      ({ s with rod := { s.rod with resync := { s.rod.resync with again := false } } }).requestPage
    | _ => s
  else s

/-! ## The rod source (R97) -/

/-- The rod source as R97 chooses it. -/
def State.chooseRod (s : State) : Option Nat :=
  if s.straps.rod then none else (s.peers.find? fun p => p.has (·.rod)).map (·.station)

/-- The source chosen again; a change makes the view UNSURE, or an UNSURE view's resynchronisation begin
again, with the events held so far (R97, R100, log 51; a listen window that ends with source none drops them: log 72).
DESIGN CHOICE (log 63): a view that was SURE asks for page 0 at
once and does not begin again at the next status period. -/
def State.rodSourceAgain (s : State) : State :=
  if s.inRun && !s.straps.rod && s.chooseRod != s.rod.source then
    let s := { s with rod := { s.rod with source := s.chooseRod, lagCount := 0 } }
    if s.rod.sure then s.viewUnsureNow else s.resyncAgain
  else s

/-- What a STATUS of the rod source shows (R97). -/
def State.rodStatus (s : State) (station : Nat) (m : StatusMsg) : State :=
  if s.inRun && !s.straps.rod && s.rod.sure && s.rod.source == some station then
    if m.eventNo = s.ret.eventNo then
      let s := { s with rod := { s.rod with lagCount := 0 } }
      if m.stringCount = s.ret.string.length ∧ m.stringLength = s.stringLength then s else s.viewUnsureNow
    else
      let s := { s with rod := { s.rod with lagCount := s.rod.lagCount + 1 } }
      if 3 ≤ s.rod.lagCount then s.viewUnsureNow else s
  else s

/-- A ROD_EVENT frame handled (R97, R98, R155). -/
def State.rodEventFrom (s : State) (station : Nat) (m : RodEventMsg) : State :=
  if s.inRun && !s.straps.rod && s.rod.source == some station then
    let s :=
      match m.kind, m.rod with
      | .retired, some id => s.countRetired id
      | _, _ => s
    if s.rod.sure then
      let s := s.takeEvent m
      if s.rod.sure then s else s.requestPage
    else if s.rod.held.length < Config.heldRoom then
      { s with rod := { s.rod with held := s.rod.held ++ [m] } }
    else s
  else s

/-- The listen window ends at a station whose rod source is none: it takes its records as they stand (R98). DESIGN
CHOICE (log 72): events still on the held list, from a source that went away while the view was UNSURE (log 51), are
dropped; R98 and R100 do not say what becomes of them. -/
def State.viewSettles (s : State) : State :=
  if s.inRun && !s.straps.rod && s.rod.source.isNone && !s.rod.sure then
    ({ s with rod := { s.rod with
        sure := true
        lagCount := 0
        held := []
        resync := { Resync.begin with request := s.rod.resync.beginAgain.request } } }).depthFollows s
  else s

end Sys2Proof.Machine
end

