-- ==== Sys2Proof/Machine/SeqOps.lean ====
section
/-! DEFINITION. The SPIN service (R117, R118) and the sequencer: units, steps, and their ends (R107 to R116,
R120). `seqRun` carries the sequencer as far as it goes at once. -/

namespace Sys2Proof.Machine

/-! ## The SPIN service (R117, R118) -/

/-- The requester's CONNECTION claim is ACTIVE in the view, and no other station's claim is (R117, test 3). -/
def State.spinClaimed (s : State) (requester : Nat) : Bool :=
  !(s.claimView.any fun c => c.station == requester && c.kind == .connection && c.phase == .active) ||
    s.claimView.any fun c => c.station != requester && c.phase == .active

def SpinKind.makes : SpinKind → Bool
  | .make => true
  | .latch => true
  | .break => false
  | .unlatch => false

/-- A spin begins (R118). -/
def State.spinBegin (s : State) (requester : Nat) (kind : SpinKind) : State :=
  let s := { s with spin :=
    { state := .running
      number := (s.spin.number + 1) % 256
      owner := some requester
      kind := some kind
      timer := some 15000
      makeOut := kind.makes
      breakOut := !kind.makes
      permit := s.spin.permit } }
  ({ s with spin := { s.spin with permit := s.permitNow } }).headCall

/-- The SPIN service decides (R117); an ACCEPTED answer carries the spin number. -/
def State.spinService (s : State) (requester code : Nat) : State × ResultCode × List Byte :=
  match SpinKind.ofCode code with
  | none => (s, .range, [])
  | some kind =>
    if s.claims.listen.isSome || s.spinClaimed requester then (s, .claimed, [])
    else if s.spin.state = .running then (s, .busy, [])
    else
      let s := s.spinBegin requester kind
      (s, .accepted, [byteOf s.spin.number])

/-! ## Entry of a step -/

/-- A change of the unit record. -/
def State.mapUnit (s : State) (f : UnitRec → UnitRec) : State :=
  { s with ret := { s.ret with unit := s.ret.unit.map f } }

/-- The first slot, from the carousel index upward, 63 wrapping to 0, that passes a test (R113, R115). -/
def State.findSlot (s : State) (ok : Nat → Bool) : Option Nat :=
  ((List.range Config.rackSlots).map fun i => (s.ret.carousel + i) % Config.rackSlots).find? ok

/-- The slot holds a rod in state RACK whose due flag is clear (R113). -/
def State.slotUsable (s : State) (slot : Nat) : Bool :=
  (rodInSlot s.ret.rods slot).any fun d => d.state == .rack && !d.due

/-- The slot is empty (R115). -/
def State.slotEmpty (s : State) (slot : Nat) : Bool := (rodInSlot s.ret.rods slot).isNone

/-- The maintained outputs aligned with the records (R108). -/
def State.alignOutputs (s : State) : State :=
  { s with ret := { s.ret with
      clampOut := s.ret.hold.hold == .clamped
      gripOut := (rodInLoader s.ret.rods).isSome } }

def State.startTimer (s : State) (ms : Nat) : State := { s with seq := { s.seq with timer := some ms } }

/-- The target height of a WAIT_POSITION (R112, R114). -/
def State.targetHeight (s : State) (u : UnitRec) : Nat :=
  s.cfg Item.clampHeight 0 +
    match u.kind, u.step with
    | .makeUp, 7 => (u.rod.map s.rodLength).getD 0
    | .breakOut, 6 => s.topLength
    | _, _ => 0

/-- The checks and the selection on entry to step 7 of a make-up (R113). -/
def State.enterSelect (s : State) : State :=
  if Config.stringRoom ≤ s.ret.string.length then s.seqFault .stringFull
  else
    match s.findSlot s.slotUsable with
    | none => s.seqFault .noRod
    | some slot =>
      (s.mapUnit fun u => { u with rod := (rodInSlot s.ret.rods slot).map (·.id), slot := some slot }).startTimer
        60000

/-- The code of SPIN (R173). -/
abbrev spinCode : Nat := 15

/-- A SPIN request enters the outstanding request table (R13). -/
def State.issueSpin (s : State) (dest : Nat) (kind : SpinKind) : State :=
  let tag := s.link.nextTag
  let s := s.onLink fun e => Link.issue e s.clockMs dest spinCode [byteOf kind.code]
  { s with seq := { s.seq with spin := .sent dest tag } }

/-- Entry to a SPIN step (R116). -/
def State.enterSpin (s : State) (kind : SpinKind) : State :=
  match s.depth.headSource with
  | none => s.seqFault .spin
  | some k =>
    let s := s.startTimer 20000
    if k = s.straps.number then
      match s.spinService k kind.code with
      | (s, .accepted, _) => { s with seq := { s.seq with spin := .accepted k s.spin.number } }
      | (s, _, _) => s.seqFault .spin
    else if s.link.canIssue then s.issueSpin k kind
    else { s with seq := { s.seq with spin := .waiting k kind } }

/-- Entry to STORE (R115). -/
def State.enterStore (s : State) : State :=
  match s.findSlot s.slotEmpty with
  | none => s.seqFault .rackFull
  | some slot =>
    let s := (s.mapUnit fun u => { u with slot := some slot }).startTimer 15000
    { s with seq := { s.seq with index := true } }

/-- A step becomes the step in hand, at its first phase. -/
def State.stepFresh (s : State) (n : Nat) : State :=
  { s.mapUnit fun u => { u with step := n } with
    seq := { s.seq with state := .running, phase := .first, timer := none, spin := .none } }

/-- The clamp output driven (R111); the unit has then moved the clamp (R120). -/
def State.driveClamp (s : State) (u : UnitRec) (closed : Bool) : State :=
  { s with ret := { s.ret with clampOut := closed, unit := some { u with moved := true } } }

/-- The loader grip output driven (R111). -/
def State.driveGrip (s : State) (gripped : Bool) : State := { s with ret := { s.ret with gripOut := gripped } }

def State.indexOn (s : State) : State := { s with seq := { s.seq with index := true } }

def State.retractOn (s : State) : State := { s with seq := { s.seq with retract := true } }

/-- The last RELEASE of a make-up also opens the grip and retracts the loader (R112). -/
def State.loaderBack (s : State) : State := (s.driveGrip false).retractOn

/-- A step entered from its beginning (R108 to R116); its number becomes the step in hand. -/
def State.enterStep (s : State) (n : Nat) : State :=
  let s := s.stepFresh n
  match s.ret.unit with
  | none => s
  | some u =>
    match u.kindOfStep with
    | .claim => s
    | .waitPumps => s.alignOutputs.startTimer 20000
    | .waitPosition => if u.kind = .makeUp ∧ n = 7 then s.enterSelect else s.startTimer 60000
    | .clamp => (s.driveClamp u true).startTimer 5000
    | .release =>
      let s := s.driveClamp u false
      (if u.kind = .makeUp ∧ n = 10 then s.loaderBack else s).startTimer 5000
    | .fetch => s.indexOn.startTimer 15000
    | .spin kind => s.enterSpin kind
    | .grip => (s.driveGrip true).startTimer 5000
    | .store => s.enterStore

/-! ## Units (R107, R120) -/

/-- The sequencer becomes IDLE with no unit. -/
def State.seqIdle (s : State) : State :=
  { s with
      ret := { s.ret with unit := none }
      seq := { s.seq.still with
        state := .idle
        phase := .first
        timer := none
        spin := .none
        aborted := false
        emptied := false } }

def State.setLastOp (s : State) (kind : OpKind) (result : OpResult) (e : Option OpEntry) : State :=
  { s with seq := { s.seq with
      lastOp := some ⟨kind, result, e.map (·.requester), e.map (·.queued)⟩ } }

/-- Where a sequencer without the ACTIVE claim waits (R107). -/
def State.waitState (s : State) : SeqState :=
  if s.ret.claim.phase = .pending then .claiming else .waitClaim

/-- A unit begins from the head entry, an entry that names a break-out with an empty string ending at once;
with no entry left the sequencer becomes IDLE and releases the claim (R107, R34). The number bounds the
entries. -/
def State.beginUnit : Nat → State → State
  | 0, s => s.seqIdle.releaseClaim
  | n + 1, s =>
    match s.seq.queue with
    | [] => s.seqIdle.releaseClaim
    | e :: rest =>
      if e.kind = .breakOut ∧ s.ret.string = [] then
        State.beginUnit n
          (({ s with seq := { s.seq with queue := rest } }).setLastOp .breakOut .empty (some e))
      else
        let s := s.seqIdle
        let s := { s with ret := { s.ret with unit := some ⟨e.kind, 1, none, none, false⟩ } }
        if s.claimActive then s.enterStep 2
        else
          ({ s with
              seq := { s.seq with state := s.waitState }
              claims := { s.claims with takeRequest := true } }).takeTest

/-- The unit's last step has ended (R107). DEDUCED (log 22): the mark of an emptied queue is not retained, so after a
WARM start the unit ends COMPLETE. -/
def State.unitEnd (s : State) (u : UnitRec) : State :=
  match s.seq.queue with
  | [] =>
    (s.setLastOp u.kind (if s.seq.emptied then .aborted else .complete) none).beginUnit 0
  | e :: rest =>
    let s :=
      if e.count ≤ 1 then
        ({ s with seq := { s.seq with queue := rest } }).setLastOp e.kind .complete (some e)
      else { s with seq := { s.seq with queue := { e with count := e.count - 1 } :: rest } }
    s.beginUnit (Config.opRoom + 1)

/-- The sequencer is IDLE and the claim released; an operation queued since begins its unit (R107). -/
def State.unitOver (s : State) : State := s.seqIdle.releaseClaim.beginUnit (Config.opRoom + 1)

/-- The unit ends aborted (R120); `e` is the head entry that stood when the queue was emptied, if one did
(log 26). -/
def State.unitAborted (s : State) (u : UnitRec) (e : Option OpEntry) : State :=
  (s.setLastOp u.kind .aborted e).unitOver

/-- A safe point (R120). -/
def State.safePoint (s : State) : Bool :=
  s.ret.hold.hold == .hung || (rodInLoader s.ret.rods).isNone

/-- The running step has ended (R107, R120). -/
def State.stepEnds (s : State) : State :=
  match s.ret.unit with
  | none => s.seqIdle
  | some u =>
    if s.seq.aborted then
      if s.safePoint then s.unitAborted u none
      else ({ s with ret := s.ret.stepOn, seq := { s.seq with phase := .first } }).seqHold .aborted
    else if lastStep u.kind ≤ u.step then s.unitEnd u
    else s.enterStep (nextStep u.kind s.ret.hold u.step)

/-! ## What ends a step or a phase -/

/-- The position condition (R109). -/
def State.headNear (s : State) (target : Nat) : Bool :=
  s.headPosition.any fun h => decide (h ≤ target + 150) && decide (target ≤ h + 150)

/-- The condition of the running phase holds. -/
def State.phaseReady (s : State) : Bool :=
  match s.ret.unit with
  | none => false
  | some u =>
    match s.seq.phase, u.kindOfStep with
    | .ending, _ => s.link.rodWait.isEmpty
    | _, .claim => false
    | _, .waitPumps => s.pumpsDown
    | _, .waitPosition => s.headNear (s.targetHeight u)
    | _, .clamp => s.pins.clampClosed
    | _, .release => s.pins.clampOpen
    | .first, .fetch => u.slot == some s.pins.slotCode
    | .second, .fetch => s.pins.rodPresented
    | .first, .store => u.slot == some s.pins.slotCode
    | .second, .store => s.pins.slotOccupied
    | _, .grip => s.pins.gripped
    | _, .spin _ => false

/-- The step now waits for its frames to join their queue. -/
def State.ending (s : State) : State := { s with seq := { s.seq with phase := .ending } }

/-- The hold record changed and announced (R95, R96). -/
def State.changeHold (s : State) (r : HoldRec) : State :=
  (s.rodChange { s.ret with hold := r } .holdChanged none none none).depthFollows s

/-- The present phase of FETCH ends (R113); a rod already in the loader stays there (log 50). -/
def State.fetchDone (s : State) (u : UnitRec) : State :=
  let s := { s with seq := { s.seq with present := false, timer := none } }
  match u.rod with
  | some id => { s with ret := s.ret.placeAt id (fun _ => .loader) none }
  | none => s

/-- The store phase ends (R115). DESIGN CHOICE (log 50): of two rods in the loader the first of the table is stored. -/
def State.storeDone (s : State) (u : UnitRec) : State :=
  let s := { s with
    ret := { s.ret with gripOut := false }
    seq := { s.seq with store := false, timer := none } }
  match rodInLoader s.ret.rods, u.slot with
  | some d, some slot =>
    let s := s.rodChange (s.ret.placeAt d.id (fun _ => .rack) (some slot)) .rackLoaded (some d.id) (some slot)
      none
    if d.due then
      (s.rodChange (s.ret.retire d.id) .retired (some d.id) (some slot) none).countRetired d.id
    else s
  | _, _ => s

/-- What the end of the running phase does. -/
def State.phaseDone (s : State) : State :=
  match s.ret.unit with
  | none => s
  | some u =>
    match s.seq.phase, u.kindOfStep with
    | .ending, _ => s.stepEnds
    | _, .clamp => (s.changeHold ⟨.clamped, .latched, u.kind == .breakOut⟩).ending
    | _, .release =>
      (({ s with seq := { s.seq with retract := false } }).changeHold hung).ending
    | .first, .fetch =>
      { s with
          ret := { s.ret with carousel := u.slot.getD 0, gripOut := true }
          seq := { s.seq with index := false, present := true, phase := .second, timer := some 10000 } }
    | .second, .fetch => (s.fetchDone u).stepEnds
    | .first, .store =>
      { s with
          ret := { s.ret with carousel := u.slot.getD 0 }
          seq := { s.seq with index := false, store := true, phase := .second, timer := some 10000 } }
    | .second, .store => (s.storeDone u).ending
    | _, _ => ({ s with seq := { s.seq with timer := none } }).stepEnds

/-- The sequencer carried on while the running phase's condition holds; the number bounds the phases. -/
def State.seqRunFor : Nat → State → State
  | 0, s => s
  | n + 1, s => if s.seq.state = .running ∧ s.phaseReady then State.seqRunFor n s.phaseDone else s

/-- The bound: more phases than two units have, and a unit does not pass a SPIN step by itself. -/
def State.seqRun (s : State) : State := s.seqRunFor 40

/-! ## Spins at the ROD station (R116, R119) -/

/-- What a completed spin does to the records, with its events (R112, R114). A string list of 128 rods takes no rod
more (R93); the check of R113 keeps a make-up from that. DESIGN CHOICE (log 50): MAKE takes the first LOADER rod of
the table and its ADDED event carries the unit's slot whichever rod that is, BREAK makes the rod it pops LOADER also
beside one that is LOADER already, and a MAKE with no rod to push or no room for it, like a BREAK with an empty string,
changes the hold record only. -/
def State.spinChanges (s : State) (u : UnitRec) (kind : SpinKind) : State :=
  match kind with
  | .unlatch => s.changeHold ⟨.clamped, .free, false⟩
  | .latch => s.changeHold ⟨.clamped, .latched, false⟩
  | .make =>
    match (rodInLoader s.ret.rods).filter fun _ => decide (s.ret.string.length < Config.stringRoom) with
    | some d =>
      ((s.rodChange { s.ret.push d.id with hold := ⟨.clamped, .latched, true⟩ } .added (some d.id) u.slot
        none).makeEvent .holdChanged none none none).depthFollows s
    | none => s.changeHold ⟨.clamped, .latched, true⟩
  | .break =>
    match s.ret.string.getLast? with
    | some id =>
      ((s.rodChange { s.ret.pop id with hold := ⟨.clamped, .free, false⟩ } .removed (some id) none
        none).makeEvent .holdChanged none none none).depthFollows s
    | none => s.changeHold ⟨.clamped, .free, false⟩

/-- DONE taken for the kept number: the step completes, or, in HOLD or FAULT, its changes are made and the
step after it is in hand (R116, R119). -/
def State.spinDone (s : State) (u : UnitRec) (kind : SpinKind) : State :=
  let s := ({ s with seq := { s.seq with spin := .none } }).spinChanges u kind
  if s.seq.state = .running then
    ({ s with seq := { s.seq with timer := none, phase := .ending } }).seqRun
  else { s with ret := s.ret.stepOn }

/-- A report of a station's spin state (R116). -/
def State.spinReport (s : State) (station : Nat) (state : SpinState) (number : Nat) : State :=
  match s.ret.unit, s.seq.spin with
  | some u, .accepted k n =>
    if k = station ∧ n = number then
      match u.kindOfStep with
      | .spin kind =>
        match state with
        | .done => s.spinDone u kind
        | .failed => if s.seq.state = .running then s.seqFault .spin else s
        | .abandoned => if s.seq.state = .running then s.seqFault .spin else s
        | .idle => s
        | .running => s
      | _ => s
    else s
  | _, _ => s

/-- The own service's state, reported directly (R116). -/
def State.ownSpinReport (s : State) : State := s.spinReport s.straps.number s.spin.state s.spin.number

/-- The SPIN request has ended (R116): its result code and first data byte, or none when it TIMED_OUT. In HOLD
or FAULT an ACCEPTED answer is taken, and any other changes nothing (log 25); the reports watched are those that
come after it, and an answer without data gives spin number 0 (log 52). -/
def State.spinEnded (s : State) (dest : Nat) (answer : Option (Nat × List Byte)) : State :=
  let accepted := answer.bind fun a =>
    if a.1 = ResultCode.accepted.code then some (byteAt a.2 0) else none
  match accepted with
  | some n => { s with seq := { s.seq with spin := .accepted dest n } }
  | none =>
    let s := { s with seq := { s.seq with spin := .none } }
    if s.seq.state = .running then s.seqFault .spin else s

end Sys2Proof.Machine
end

