-- ==== Sys2Proof/Machine/Peers.lean ====
section
/-! DEFINITION. What a received frame does (R11 to R15): the peer table, then each block in turn. In CONFIG
only the peer table and the intake queue act (R22). -/

namespace Sys2Proof.Machine

/-! ## The peer table (R14) -/

/-- The entry of a peer heard for the first time (R14, R68). -/
def PeerEntry.new (station seq silence : Nat) : PeerEntry where
  station := station
  stale := false
  lastSeq := seq
  gaps := 0
  silence := some silence
  status := none
  claim := .absent
  strokesA := ⟨none, false⟩
  strokesB := ⟨none, false⟩
  head := none
  headFresh := false
  differed := false

/-- An entry placed in order of station number. -/
def insertPeer (p : PeerEntry) : List PeerEntry → List PeerEntry
  | [] => [p]
  | q :: rest => if p.station < q.station then p :: q :: rest else q :: insertPeer p rest

/-- A heard peer's entry refreshed by a frame (R14). -/
def PeerEntry.refresh (seq silence : Nat) (p : PeerEntry) : PeerEntry :=
  { p with
      gaps := if seq = (p.lastSeq + 1) % 256 then p.gaps else satAdd 255 p.gaps 1
      lastSeq := seq
      silence := some silence }

/-- A stale peer returns: its stale flag and its credit baselines are cleared, and a HEAD frame must come
again before it can be the head source (R14, R68, R89). -/
def PeerEntry.returned (p : PeerEntry) : PeerEntry :=
  { p with
      stale := false
      strokesA := { p.strokesA with baseline := false }
      strokesB := { p.strokesB with baseline := false }
      headFresh := false }

/-- A peer's staleness or return made known to the blocks (R36, R38, R70, R89, R108). -/
def State.peerShift (s : State) : State :=
  if s.inRun then ((s.conflictCheck.headRefresh s).heardRefresh).seqRun else s

/-- A good frame refreshes its source's entry (R14). -/
def State.refreshPeer (s : State) (station seq : Nat) : State :=
  let silence := 3 * s.statusPeriod
  match s.peer? station with
  | none => { s with peers := insertPeer (.new station seq silence) s.peers }
  | some p =>
    let s' := s.mapPeer station (PeerEntry.refresh seq silence)
    if p.stale then
      let s' := (s'.mapPeer station PeerEntry.returned).peerShift
      if s'.rod.source = some station ∧ s'.inRun then s'.resyncAgain else s'
    else s'

/-- A heard peer has been silent for three status periods (R14, R38). -/
def State.peerStale (s : State) (station : Nat) : State :=
  match s.peer? station with
  | none => s
  | some p =>
    if p.silence.isNone then s
    else (s.mapPeer station fun p => { p with stale := true, silence := none }).peerShift

/-! ## STATUS (R15, R37, R70, R89, R97, R108, R161) -/

/-- R15: a digest that first differs records CONFIG_MISMATCH. -/
def State.digestCheck (s : State) (station seq : Nat) (m : StatusMsg) : State :=
  let differs := s.digestDiffers m
  let first := differs && !((s.peer? station).any (·.differed))
  let s := s.mapPeer station fun p => { p with differed := differs }
  if first then s.recordFault .configMismatch (some station) (some .status) (some seq) else s

/-- A STATUS frame handled. -/
def State.statusFrom (s : State) (station seq : Nat) (m : StatusMsg) : State :=
  let before := s
  let s := s.mapPeer station fun p => { p with status := some m }
  let s := (s.digestCheck station seq m).setPeerClaim station m.claim
  if s.inRun then
    let s := s.heardRefresh.headRefresh before
    let s := s.rodSourceAgain.rodStatus station m
    let s := s.seqRun
    if m.roles.record then s.peerCloseTest else s
  else s

/-! ## STROKES (R67, R68, R141) -/

def PeerEntry.strokes (p : PeerEntry) : PumpId → PeerStrokes
  | .a => p.strokesA
  | .b => p.strokesB

def PeerEntry.setStrokes (i : PumpId) (c : PeerStrokes) (p : PeerEntry) : PeerEntry :=
  match i with
  | .a => { p with strokesA := c }
  | .b => { p with strokesB := c }

/-- The stored count while its credit baseline is set. -/
def PeerStrokes.baselineCount (c : PeerStrokes) : Option Nat := if c.baseline then c.last else none

/-- The code of a SERVICE mark (section 11.5). -/
def serviceCode (station : Nat) (pump : PumpId) : Nat := station + 256 * pumpCode pump

/-- The last effective volume of a peer's pump (R141). -/
def State.lastVolume (s : State) (station : Nat) (pump : PumpId) : Option Nat :=
  (s.strata.lastVolumes.find? fun v => v.station == station && v.pump == pump).map (·.volume)

/-- The effective volume heard from a peer: a change appends a SERVICE mark (R141). -/
def State.volumeHeard (s : State) (station : Nat) (pump : PumpId) (volume : Nat) : State :=
  let old := s.lastVolume station pump
  if !s.strataOn || old = some volume then s
  else
    let kept := s.strata.lastVolumes.filter fun v => !(v.station == station && v.pump == pump)
    let s := { s with strata := ⟨kept ++ [⟨station, pump, volume⟩]⟩ }
    if old.isSome then s.appendMark .service (serviceCode station pump) else s

/-- The credit of a peer's strokes (R67). -/
def State.peerCredit (s : State) (station : Nat) (m : StrokesMsg) : State :=
  match (s.peer? station).bind fun p => (p.strokes m.pump).baselineCount with
  | some last =>
    let d := diff32 m.count last
    if d ≤ 1000 then s.credit (d * m.volume) else s.strokeGap
  | none => s.strokeGap

/-- A STROKES frame handled: in RUN it is credited and its baseline set; the count is stored (R15, R67,
R68; the order: log 14). -/
def State.strokesFrom (s : State) (station : Nat) (m : StrokesMsg) : State :=
  let run := s.inRun
  let s := if run then s.peerCredit station m else s
  let s := s.mapPeer station (PeerEntry.setStrokes m.pump ⟨some m.count, run⟩)
  if run then s.volumeHeard station m.pump m.volume else s

/-! ## HEAD (R89, R101, R109, R116) -/

/-- A HEAD frame handled: head source, depth, wear when the source's stored counts change (R101, log 21), the
sequencer, and the spin it reports. -/
def State.headFrom (s : State) (station : Nat) (m : HeadMsg) : State :=
  let turned := ((s.peer? station).bind (·.head)).any fun v => v.turns != m.turns || v.spinTurns != m.spinTurns
  let before := s
  let s := s.mapPeer station fun p => { p with head := some m, headFresh := true }
  if s.inRun then
    let s := s.headRefresh before
    let s := if s.depth.headSource = some station ∧ !s.straps.head ∧ turned then s.wearCredit else s
    s.seqRun.spinReport station m.spin m.number
  else s

/-! ## Answers (R13) -/

/-- An entry leaves the outstanding request table. -/
def Link.dropOutstanding (l : Link) (e : OutEntry) : Link :=
  { l with outstanding := l.outstanding.filter (· != e) }

/-- The issuer of a request is told of its end: an answer's result code and data, or none when it TIMED_OUT
(R13). -/
def State.requestEnded (s : State) (e : OutEntry) (answer : Option (Nat × List Byte)) : State :=
  if e.code = spinCode then
    if s.seq.spin = .sent e.dest e.tag then s.spinEnded e.dest answer else s
  else
    match s.rod.resync.request with
    | .sent dest tag drop => if dest = e.dest ∧ tag = e.tag then s.pageEnded dest drop answer else s
    | _ => s

/-- An ANSWER handled (R13). -/
def State.answerFrom (s : State) (station tag code : Nat) (data : List Byte) : State :=
  match s.link.outstanding.find? fun e => e.dest == station && e.tag == tag with
  | none => { s with link := { s.link with unmatched := satAdd 255 s.link.unmatched 1 } }
  | some e => ({ s with link := s.link.dropOutstanding e }).requestEnded e (some (code, data))

/-- The answer timeout of an entry (R13). -/
def State.answerTimedOut (s : State) (tag : Nat) : State :=
  match s.link.outstanding.find? fun e => e.tag == tag with
  | none => s
  | some e =>
    (({ s with link := s.link.dropOutstanding e }).requestEnded e none).recordFault .requestTimeout
      (some e.dest) (some .request) (some tag)

/-! ## Intake (R4, R12) -/

/-- A REQUEST handed on to intake (R12); one addressed to the station is discarded in LISTEN_ONLY (R4). -/
def State.arrive (s : State) (r : Request) : State :=
  if s.link.listenOnly && !r.toAll then s
  else if s.link.intake.length < Config.intakeRoom then
    { s with link := { s.link with intake := s.link.intake ++ [r] } }
  else s.answer .exchange r .busy []

/-! ## The frame (R11) -/

/-- Hand-on by kind (R11, step 4). -/
def State.handOn (s : State) (f : RxFrame) : State :=
  match f.body with
  | .status m => s.statusFrom f.source f.seq m
  | .strokes m => s.strokesFrom f.source m
  | .head m => s.headFrom f.source m
  | .rodEvent m => s.rodEventFrom f.source m
  | .claim c => s.setPeerClaim f.source c
  | .alarm => s
  | .request tag code args => s.arrive ⟨f.source, f.dest == 31, tag, code, args⟩
  | .answer tag code data => s.answerFrom f.source tag code data

/-- A good frame (R4, R11). -/
def State.goodFrame (s : State) (f : RxFrame) : State :=
  if f.source = s.straps.number then
    (s.recordFault .duplicateStation (some s.straps.number) (some f.kind) (some f.seq)).listenOnlyNow
  else
    let s := s.refreshPeer f.source f.seq
    if f.dest = s.straps.number ∨ f.dest = 31 then s.handOn f else s

/-- A complete frame has ended since the line was QUIET: whatever comes before the next QUIET is discarded then
(R1). -/
def RxPhase.ended : RxPhase → Bool
  | .complete => true
  | .trailing => true
  | .idle => false
  | .gathering => false

/-- A complete frame ends on the line (R1, R6). The line is BUSY while a frame comes in; a station that is
sending gathers none (log 12), and after a complete frame the bytes are trailing ones (R1). DESIGN CHOICE (log 67): so are those
that follow a header whose payload length exceeds 40. -/
def State.frameReceived (s : State) (bytes : List Byte) : State :=
  if s.link.sending then s
  else if s.link.lineBusy ∧ s.link.rx.ended then { s with link := { s.link with rx := .trailing } }
  else
    let s := if s.link.lineBusy then s else s.onLink fun e => Link.goBusy e
    let s := { s with link := { s.link with rx := .complete } }
    match decodeFrame bytes with
    | none => { s with link := s.link.rxError }
    | some f => s.goodFrame f

end Sys2Proof.Machine
end

