-- ==== Sys2Proof/Machine/Records.lean ====
section
/-! DEFINITION. What the station reports: the STATUS frame (R7, R63, R83, R124, R170), and the data of
IDENTIFY, STATUS_READ, STRING_READ, RECORD_READ and STATEMENT_READ answers (sections 11.4 to 11.6). -/

namespace Sys2Proof.Machine

/-! ## STATUS -/

/-- The name of a running step in STATUS (R124). -/
def StepKind.shown : StepKind → SeqShown
  | .claim => .claiming
  | .waitPumps => .waitPumps
  | .waitPosition => .waitPosition
  | .clamp => .clamp
  | .fetch => .fetch
  | .spin _ => .spin
  | .grip => .grip
  | .store => .store
  | .release => .release

/-- The sequencer state as STATUS shows it (R124). -/
def State.seqShown (s : State) : SeqShown :=
  match s.seq.state with
  | .idle => .idle
  | .waitClaim => .waitClaim
  | .claiming => .claiming
  | .running => ((s.ret.unit.map fun u => u.kindOfStep.shown).getD .idle)
  | .hold _ => .hold
  | .fault _ => .fault

def SeqState.cause : SeqState → Option StopCause
  | .hold c => some c
  | .fault c => some c
  | _ => none

/-- The balance figures, carried by the pit station alone (R83). -/
def State.balanceFigures (s : State) : Option BalanceFigures :=
  if s.isPit then some ⟨s.ret.balState, s.ownReturn, s.ret.lost, s.ret.gained⟩ else none

/-- The STATUS contents at assembly (R7). DESIGN CHOICE (log 69): the string length shown in CONFIG is formed with the
bottom assembly length as now set. -/
def State.statusMsg (s : State) : StatusMsg where
  roles := s.roles
  startKind := s.startKind
  startSource := s.startSource
  job := s.ret.job
  digest := s.ret.digest
  pumpA := s.pumpSummary .a
  pumpB := s.pumpSummary .b
  lastOp := s.seq.lastOp
  balance := s.balanceFigures
  seq := s.seqShown
  step := s.ret.unit.map (·.step)
  cause := s.seq.state.cause
  entries := s.seq.queue.length
  headEntry := s.seq.queue.head?.map fun e => ⟨e.count, e.requester⟩
  claim := s.ret.claim
  eventNo := s.ret.eventNo
  stringCount := s.ret.string.length
  stringLength := s.stringLength
  hold := s.ret.hold
  water := s.ret.water
  active := s.alarm.active.toNat
  pending := s.alarm.pending.toNat
  unitKind := s.ret.unit.map (·.kind)

/-- A STATUS frame assembled and handed (R7). -/
def State.handStatus (s : State) : State := s.broadcast .status none (encodeStatus s.statusMsg)

/-! ## IDENTIFY, STATUS_READ, STRING_READ -/

/-- R29. DESIGN CHOICE (log 66): the role set byte holds PUMP, HEAD, ROD and RECORD in bits 0 to 3, as STATUS does. -/
def State.identity (s : State) : List Byte :=
  leBytes 2 Config.vendorCode ++ leBytes 2 Config.partCode ++
    [byteOf Config.siliconRevision, byteOf s.straps.number, byteOf s.roles.code]

/-- Part 0 of STATUS_READ (R17); an unlatched record's fields are absent (log 37). DESIGN CHOICE (log 61): of two flags
in one byte the one section 11.4 names first is bit 0, the other bit 1. -/
def Link.faultData (l : Link) : List Byte :=
  [byteOf (bit l.fault.isSome + 2 * bit l.more)] ++
  leOption 1 (l.fault.map (·.kind.code)) ++
  leOption 1 (l.fault.bind (·.peer)) ++
  leOption 1 ((l.fault.bind (·.frame)).map (·.code)) ++
  leOption 1 (l.fault.bind (·.seqTag)) ++
  leOption 4 (l.fault.map (·.jobTime)) ++
  [byteOf l.counts.collision, byteOf l.counts.duplicateStation, byteOf l.counts.accessDrop,
   byteOf l.counts.lineStuck, byteOf l.counts.urgentDrop, byteOf l.counts.requestTimeout,
   byteOf l.counts.configMismatch, byteOf l.rxErrors, byteOf l.answerDrops, byteOf l.unmatched,
   byteOf (bit l.listenOnly + 2 * bit l.stuck)]

/-- Heard and stale flags and the gap count of one station (R17). DESIGN CHOICE (log 61): heard is bit 0,
stale bit 1. -/
def State.peerData (s : State) (station : Nat) : List Byte :=
  match s.peer? station with
  | none => [0, 0]
  | some p => [byteOf (1 + 2 * bit p.stale), byteOf p.gaps]

/-- The data of a STATUS_READ part, 0 to 3 (R17). -/
def State.statusData (s : State) (part : Nat) : List Byte :=
  if part = 0 then s.link.faultData
  else (List.range 10).flatMap fun i => s.peerData (10 * (part - 1) + i + 1)

/-- The data of a STRING_READ page (R99). DESIGN CHOICE (log 66): the hold record byte is that of ROD_EVENT, bits 0 to
2 ordered as in STATUS. -/
def State.pageData (s : State) (page : Nat) : List Byte :=
  [byteOf page, byteOf s.ret.string.length] ++ leBytes 3 s.stringLength ++ leBytes 2 s.ret.eventNo ++
    [byteOf s.ret.hold.code] ++ ((s.ret.string.drop (12 * page)).take 12).flatMap (leBytes 2)

/-! ## RECORD_READ (section 11.5) -/

/-- A zone or mark, 27 bytes. -/
def State.zoneData (s : State) (position : Nat) (z : ZoneEntry) : List Byte :=
  [byteOf position, byteOf s.ret.zones.length] ++ leBytes 2 s.ret.unrecorded ++ z.data

/-- An adjustment, 18 bytes. -/
def State.adjustmentData (s : State) (position : Nat) (a : Adjustment) : List Byte :=
  [byteOf position, byteOf s.ret.adjustments.length] ++ leBytes 2 a.index ++
    [byteOf (a.oldClass + 8 * a.newClass + 64 * bit a.afterClose)] ++
    leBytes 4 a.oldCharge ++ leBytes 4 a.newCharge ++ leBytes 4 a.time ++ [byteOf a.describer]

/-- The record of an interval index (R142). -/
def State.intervalAt (s : State) (index : Nat) : Option Interval :=
  s.ret.intervals.find? fun iv => iv.index == index

/-- A record of a log: INTERVAL 0, ZONE_MARK 1, ADJUSTMENT 2 (R142). -/
def State.recordData (s : State) (selector index : Nat) : Option (List Byte) :=
  if selector = 0 then (s.intervalAt index).map (·.data)
  else if selector = 1 then s.ret.zones[index]?.map (s.zoneData index)
  else s.ret.adjustments[index]?.map (s.adjustmentData index)

/-! ## STATEMENT_READ (section 11.6) -/

/-- The data of a statement part (R163); the supplement and the adjustment counts are live. -/
def State.statementData (s : State) (part : Nat) : List Byte :=
  let f := s.statement
  [byteOf (bit (s.ret.job == .closed))] ++
  if part = 0 then
    leBytes 2 f.jobNumber ++
      [byteOf (f.job.code + 4 * f.close.code + 16 * (f.closeKind.map (·.code)).getD 3 + 64 * bit f.down)] ++
      leBytes 2 f.closingSeconds ++ leBytes 4 f.jobTime ++ f.meters.flatMap (leBytes 4) ++ leBytes 4 f.unsure
  else if part = 1 then f.timeCharges.flatMap (leBytes 4) ++ leBytes 4 (moneySum f.timeCharges)
  else if part = 2 then
    leBytes 4 f.closedFootage ++ leBytes 4 f.sumProvisional ++ leBytes 4 f.sumCurrent ++
      leBytes 4 f.overFootage ++ leBytes 4 f.overCharge ++ [byteOf s.ret.adjustments.length] ++
      leBytes 2 s.ret.droppedAdj ++ leBytes 4 s.ret.additions ++ leBytes 4 s.ret.reductions
  else
    f.units.flatMap (leBytes 4) ++ leBytes 4 f.additiveCharge ++ leBytes 4 f.billedWater ++
      leBytes 4 f.waterCharge ++ f.retirements.flatMap (leBytes 2) ++ leBytes 4 f.retirementCharge ++
      leBytes 4 f.total ++ leBytes 4 f.ceiling ++
      [byteOf (bit f.near + 2 * bit f.reached + 4 * bit f.overCeiling)]

end Sys2Proof.Machine
end

