-- ==== Sys2Proof/Machine/Entry.lean ====
section
/-! DEFINITION. Starts (R18 to R21), the entries to RUN and CONFIG, CONFIG_LOCK (R26, R27) and JOB_CLEAR
(R164), with what each chapter's last section gives for them (R43, R47, R64, R85, R105, R126, R145, R165,
R171). -/

namespace Sys2Proof.Machine

/-! ## CONFIG_LOCK's tests (R26) -/

/-- Section bottoms strictly ascending, but for the last in use. -/
def sectionsFail (it : Items) : Option (Nat × Nat) :=
  (((List.range (itemGet it Item.sectionCount 0 - 1)).map (· + 1)).find? fun i =>
    decide (2 ≤ i) && decide (itemGet it Item.sectionBottom i ≤ itemGet it Item.sectionBottom (i - 1))).map
    fun i => (Item.sectionBottom, i)

/-- Band bottoms strictly ascending and multiples of the interval length. -/
def bandsFail (it : Items) : Option (Nat × Nat) :=
  (((List.range (itemGet it Item.bandCount 0)).map (· + 1)).find? fun b =>
    (decide (2 ≤ b) && decide (itemGet it Item.bandBottom b ≤ itemGet it Item.bandBottom (b - 1))) ||
      itemGet it Item.bandBottom b % itemGet it Item.intervalLength 0 != 0).map fun b => (Item.bandBottom, b)

/-- The last band in use ends at the depth limit. -/
def lastBandFails (it : Items) : Option (Nat × Nat) :=
  let n := itemGet it Item.bandCount 0
  if itemGet it Item.bandBottom n = itemGet it Item.depthLimit 0 then none else some (Item.bandBottom, n)

/-- The log reaches the depth limit. -/
def logReachFails (it : Items) : Option (Nat × Nat) :=
  if itemGet it Item.depthLimit 0 ≤ itemGet it Item.intervalLength 0 * 1024 then none
  else some (Item.intervalLength, 0)

/-- The collar depth is a multiple of the interval length below the depth limit. -/
def collarFails (it : Items) : Option (Nat × Nat) :=
  if itemGet it Item.collarDepth 0 % itemGet it Item.intervalLength 0 = 0 ∧
      itemGet it Item.collarDepth 0 < itemGet it Item.depthLimit 0 then none
  else some (Item.collarDepth, 0)

/-- The inventory entries in use, in order: entry number and rod ID. -/
def inventory (it : Items) : List (Nat × Nat) :=
  (List.range (itemGet it Item.inventoryCount 0)).map fun k => (k + 1, itemGet it Item.inventoryRod (k + 1))

/-- The first inventory entry that repeats a rod ID or names a type above the count; `seen` are the IDs of
the entries before. The item named is the rod ID for a repeat and else the rod type (log 46). -/
def inventoryFails (it : Items) (seen : List Nat) : List (Nat × Nat) → Option (Nat × Nat)
  | [] => none
  | (k, id) :: rest =>
    if seen.contains id then some (Item.inventoryRod, k)
    else if itemGet it Item.typeCount 0 < itemGet it Item.inventoryType k then some (Item.inventoryType, k)
    else inventoryFails it (id :: seen) rest

/-- The non-empty initial rack slots, in order: slot and rod ID. -/
def initialRack (it : Items) : List (Nat × Nat) :=
  ((List.range Config.rackSlots).map fun k => (k, itemGet it Item.rackSlot k)).filter fun p => p.2 != 0

/-- The first slot that names a rod no entry holds. -/
def rackUnknown (it : Items) : Option (Nat × Nat) :=
  let ids := (inventory it).map (·.2)
  ((initialRack it).find? fun p => !ids.contains p.2).map fun p => (Item.rackSlot, p.1)

/-- The first slot that repeats a rod. -/
def rackRepeats (seen : List Nat) : List (Nat × Nat) → Option (Nat × Nat)
  | [] => none
  | (k, id) :: rest => if seen.contains id then some (Item.rackSlot, k) else rackRepeats (id :: seen) rest

/-- The first failing item of R26 with its index, or none when every test passes. -/
def lockFails (it : Items) : Option (Nat × Nat) :=
  (sectionsFail it).or <| (bandsFail it).or <| (lastBandFails it).or <| (logReachFails it).or <|
    (collarFails it).or <| (inventoryFails it [] (inventory it)).or <| (rackUnknown it).or
      (rackRepeats [] (initialRack it))

/-! ## The records a lock creates (R27) -/

/-- The rod of an inventory entry (R27). -/
def lockedRod (it : Items) (k id : Nat) : Rod :=
  let type := itemGet it Item.inventoryType k
  let turns := itemGet it Item.inventoryTurns k
  let slot := ((initialRack it).find? fun p => p.2 == id).map (·.1)
  { id := id
    type := type
    turns := turns
    state := if slot.isSome then .rack else .offRig
    due := decide (itemGet it Item.typeWear type * 1000 ≤ turns)
    slot := slot }

/-- The retained state CONFIG_LOCK creates, but for the heard balance and the collar interval (R27, R145,
R165). -/
def lockedRetained (it : Items) (straps : Recorded) : Retained :=
  { Retained.cold with
    recorded := some straps
    items := it
    digest := configDigest it
    hole := itemGet it Item.collarDepth 0
    rods := (inventory it).map fun p => lockedRod it p.1 p.2
    job := .opened }

/-! ## Entry to RUN -/

/-- Credit baselines cleared (R68). -/
def PeerEntry.noBaselines (p : PeerEntry) : PeerEntry :=
  { p with
      strokesA := { p.strokesA with baseline := false }
      strokesB := { p.strokesB with baseline := false } }

/-- A channel on entry to RUN (R64); the time of the last accepted edge is kept, since only a start makes the next
edge the first (R48). -/
def State.freshChannel (s : State) (p : PumpId) : PumpChannel :=
  { PumpChannel.start with
      effVolume := s.effectiveVolume p
      limit := s.pressureLimit p
      lastEdge := (s.chan p).lastEdge }

/-- A channel after JOB_CLEAR (R64, R48). -/
def PumpChannel.cleared (c : PumpChannel) : PumpChannel := { PumpChannel.start with lastEdge := c.lastEdge }

/-- Circulation accounting in CONFIG: at the pit station the heard balance record follows its own values (R70,
R85). -/
def CircUnit.config (pit : Bool) (number : Nat) : CircUnit :=
  { CircUnit.start with heardSource := if pit then some number else none }

/-- A threshold channel on entry to RUN: its timer runs when it is in service (R45, R47). -/
def runThreshold (inService : Bool) : Threshold :=
  { Threshold.start with timer := if inService then some 100 else none }

/-- The depth unit on entry to RUN (R86, R105). DEDUCED: the position last handed stays (log 20), and no 200 ms since a
HEAD frame is running and no call is kept (log 56). -/
def State.runDepth (s : State) (h : Nat) : DepthUnit :=
  let homed := s.straps.head && s.pins.topLimit
  { DepthUnit.start with
    h := if homed then s.cfg Item.mastTravel 0 else h
    headKnown := homed
    lastHanded := s.depth.lastHanded
    headSource := s.chooseHead }

/-- Every block as R40, R47, R64, R68, R85, R105, R118 and R147 leave it on entry to RUN with the retained
state in place. Bit depth is formed without raising H (log 19). -/
def State.enterRun (s : State) (h : Nat) : State :=
  let s := { s with
    mode := .run
    peers := s.peers.map PeerEntry.noBaselines
    claims := ⟨false, none, some (3 * s.statusPeriod)⟩
    thresholds := ⟨runThreshold s.straps.pump, runThreshold s.isPit, runThreshold s.isPit⟩
    pumps := ⟨s.freshChannel .a, s.freshChannel .b⟩
    circ := { CircUnit.config s.isPit s.straps.number with evalTimer := if s.isPit then some 2000 else none }
    rod := .start
    seq := .start
    spin := .start
    strata := ⟨[]⟩
    billing := ⟨if s.jobRuns then some 1000 else none, false, false⟩
    alarm := ⟨0, 0⟩ }
  { s with depth := s.runDepth h }

/-- Bit depth and on-bottom formed as they stand (R93, R94, log 19). -/
def State.formDepth (s : State) : State :=
  { s with depth := { s.depth with
      bitDepth := s.depthNow
      onBottom := onBottomAt s.depthNow s.ret.hole } }

/-- The call of a head found homed on entry to RUN: head-known has changed (R86, R88); its frame is handed at once
(log 56). -/
def State.homedCall (s : State) : State := if s.depth.headKnown then s.headCall else s

/-- A successful CONFIG_LOCK (R27, R43, R85, R88, R105, R145, R165; logs 18, 36). -/
def State.lock (s : State) : State :=
  let s := { s with ret := lockedRetained s.ret.items ⟨s.straps.number, s.roles, s.isPit⟩ }
  let s := s.enterRun s.depth.h
  let s := if s.isPit then s else s.setHeard s.heardFromPeers
  let s := { s with rod := { RodUnit.start with sure := true, source := s.chooseRod } }
  let s := s.formDepth.homedCall
  if s.straps.record then
    { s with ret := { s.ret with
        intervals := [s.newInterval (s.cfg Item.collarDepth 0 / s.cfg Item.intervalLength 0)] } }
  else s

/-- JOB_CLEAR taken in CLOSED (R43, R47, R64, R85, R105, R126, R145, R164, R165, R171). DEDUCED: the position last
handed stays (log 20), while a running 200 ms since a HEAD frame and a kept call go (log 56). DESIGN CHOICE: events on
the held list go (log 72). -/
def State.clearJob (s : State) : State :=
  { s with
      mode := .config
      ret := { Retained.cold with
        items := s.ret.items
        digest := s.ret.digest
        hole := s.cfg Item.collarDepth 0 }
      peers := s.peers.map PeerEntry.noBaselines
      claims := .start
      thresholds := ⟨.start, .start, .start⟩
      pumps := ⟨s.pumps.a.cleared, s.pumps.b.cleared⟩
      circ := .config s.isPit s.straps.number
      depth := { DepthUnit.start with h := s.depth.h, lastHanded := s.depth.lastHanded }
      rod := .start
      seq := .start
      spin := .start
      strata := ⟨[]⟩
      billing := ⟨none, false, false⟩
      alarm := ⟨0, 0⟩ }

/-! ## Starts (R18 to R21) -/

/-- Every block that is not retained at its start values, with the straps read and the start source (R18 and
the last section of each chapter). -/
def State.blank (s : State) (straps : Straps) (source : StartSource) : State :=
  { s with
      straps := straps
      startSource := source
      link := .start
      peers := []
      claims := .start
      thresholds := ⟨.start, .start, .start⟩
      pumps := ⟨.start, .start⟩
      circ := .start
      depth := .start
      rod := .start
      seq := .start
      spin := .start
      strata := ⟨[]⟩
      billing := ⟨none, false, false⟩
      alarm := ⟨0, 0⟩
      lastWrite := none
      outs := .off }

/-- START_FAULT (R19). -/
def State.startFault (s : State) : State := { s with mode := .startFault }

/-- A COLD start (R21). DESIGN CHOICE (log 73): its writes of the two images are done in the order first, second, and a
supply loss or reset right after the step can tear the second only. -/
def State.coldStart (s : State) : State :=
  { s with
      mode := .config
      startKind := .cold
      ret := .cold
      first := .written .cold 0
      second := .written .cold 1
      lastWrite := some .second
      circ := .config s.isPit s.straps.number
      link := { s.link with statusTimer := some 250 } }

/-- What the sequencer and the own claim become at a WARM start (R43, R125). DEDUCED (log 22): the marks of an abort,
`Sequencer.aborted` and `Sequencer.emptied`, are not retained. -/
def State.warmClaim (s : State) : State :=
  match s.ret.claim.phase, s.ret.unit with
  | .active, some _ =>
    ({ s with
        seq := { s.seq with state := .hold .interrupted }
        claims := { s.claims with takeRequest := true } }).announceClaim
  | .active, none => ({ s with ret := { s.ret with claim := .absent } }).announceClaim
  | _, some u =>
    ({ s with ret := { s.ret with claim := .absent, unit := none } }).setLastOp u.kind .dropped none
  | _, none => { s with ret := { s.ret with claim := .absent } }

/-- What a WARM start does to the strata record (R144). -/
def State.warmStrata (s : State) : State :=
  if s.strataOn then
    let s := (s.closeZones none).appendMark .powerGap s.startSource.code
    s.mapOpen fun iv =>
      { iv with flags := { iv.flags with
          afterWarm := true
          depthUnsure := iv.flags.depthUnsure || !s.viewSure || s.depth.bitDepth.isNone } }
  else s

/-- What a WARM start does for billing: the ceiling and a close under way (R165). -/
def State.warmBilling (s : State) : State :=
  if s.straps.record then
    match s.ret.job, s.ret.frozen with
    | .closed, some f =>
      let c := s.cfg Item.ceiling 0
      { s with billing := { s.billing with
          near := ceilingNear c f.total
          reached := ceilingReached c f.total } }
    | .closed, none => s
    | _, _ => s.checkCeiling.completionTest
  else s.peerCloseTest

/-- A WARM start from a retained image's content (R21); the image's state is in place before. -/
def State.warmStart (s : State) (content : Retained) : State :=
  let s := { s with startKind := .warm, ret := content }
  let before := s
  let s := { s with ret := { s.ret with balState := .suspended, reference := none } }
  let s := s.enterRun 0
  let s := { s with link := { s.link with statusTimer := some s.statusPeriod } }
  let s := s.warmClaim.formDepth.homedCall
  State.finish before s.warmStrata.warmBilling

/-- The content of the retained image, when one is good (R20). -/
def State.retainedImage (s : State) : Option Retained :=
  match newestGood s.first s.second with
  | some .first => some s.first.content
  | some .second => some s.second.content
  | none => none

/-- The straps recorded equal those just read (R21). -/
def State.strapsMatch (s : State) (r : Retained) : Bool :=
  r.recorded == some ⟨s.straps.number, s.roles, s.isPit⟩

/-- CHECK (R19 to R21). -/
def State.check (s : State) (straps : Straps) (source : StartSource) : State :=
  let s := s.blank straps source
  if straps.number = 0 ∨ 31 ≤ straps.number then s.startFault
  else
    match s.retainedImage with
    | none => s.coldStart
    | some r =>
      if r.job = .noJob then s.coldStart
      else if s.strapsMatch r then s.warmStart r
      else s.startFault

/-- The station stops: outputs de-asserted, duties 0, and an image being written fails its check (R19, R20, R51,
logs 11, 33). -/
def State.halt (s : State) (mode : Mode) (torn : Bool) : State :=
  { s with
      mode := mode
      outs := .off
      pumps := ⟨s.pumps.a.undriven, s.pumps.b.undriven⟩
      first := if torn && s.lastWrite == some .first then s.first.failed else s.first
      second := if torn && s.lastWrite == some .second then s.second.failed else s.second
      lastWrite := none }

end Sys2Proof.Machine
end

