-- ==== Sys2Proof/Machine/Operands.lean ====
section
/-! DEFINITION. How a request is presented, served and answered (R12, R173): the request a command spells,
the arguments read from its bytes, and the tests every request passes. Log 7 says when the head of the intake
queue is served. -/

namespace Sys2Proof.Machine

/-! ## Request codes (R173) -/

abbrev identifyCode : Nat := 1
abbrev configSetCode : Nat := 2
abbrev configLockCode : Nat := 3
abbrev statusReadCode : Nat := 4
abbrev faultClearCode : Nat := 5
abbrev claimClearCode : Nat := 6
abbrev pumpRateCode : Nat := 7
abbrev rackLoadCode : Nat := 8
abbrev rackUnloadCode : Nat := 9
abbrev rodOpCode : Nat := 11
abbrev rodAbortCode : Nat := 12
abbrev rodResumeCode : Nat := 13
abbrev rodConfirmCode : Nat := 14
abbrev describeCode : Nat := 16
abbrev recordReadCode : Nat := 17
abbrev downBeginCode : Nat := 18
abbrev downEndCode : Nat := 19
abbrev additiveCode : Nat := 20
abbrev statementReadCode : Nat := 21
abbrev jobCloseCode : Nat := 22
abbrev jobClearCode : Nat := 23
abbrev alarmAckCode : Nat := 24

/-- The request codes the station knows (section 11.4). -/
def knownCode (code : Nat) : Bool := decide (1 ≤ code) && decide (code ≤ 24)

/-- The request a command spells. -/
def requestOf (h : ReqHead) (code : Nat) (args : List Byte) : Request :=
  ⟨h.source, h.toAll, h.tag.toNat, code, args⟩

/-- Whether the request at the head of the intake queue is the one presented; its own argument bytes count. -/
def Request.same (q r : Request) : Bool :=
  q.source == r.source && q.toAll == r.toAll && q.tag == r.tag && q.code == r.code

/-- The head of the intake queue leaves it. -/
def Link.popIntake (l : Link) : Link := { l with intake := l.intake.drop 1 }

/-- A request presented for service (log 7): one that waits at the head of the intake queue is served;
otherwise it arrives (R12) and is served at once if it is then the head. LISTEN_ONLY discards a request to the station
that arrives then (R4); one that already waited is still served and its answers are discarded, which R4 leaves open
(DESIGN CHOICE, log 54). -/
def State.present (s : State) (r : Request) (serve : Request → State → State) : State :=
  match s.link.intake with
  | q :: _ => if q.same r then serve q { s with link := s.link.popIntake } else s.arrive r
  | [] =>
    let s := s.arrive r
    match s.link.intake with
    | q :: _ => serve q { s with link := s.link.popIntake }
    | [] => s

/-! ## Serving (R12, R173, R22) -/

/-- The result of a serving block: the state, the code and the data. -/
structure Served where
  state : State
  code : ResultCode
  data : List Byte

/-- A refusal: nothing changes. -/
def State.refuse (s : State) (code : ResultCode) : Served := ⟨s, code, []⟩

/-- An effect answered DONE without data. -/
def State.done (s : State) : Served := ⟨s, .done, []⟩

/-- What R12, R173 and R22 test before a request's own rule: the role, the length of the arguments, and
CONFIG. -/
structure Gate where
  role : Bool
  bytes : Nat
  inConfig : Bool

/-- A request served: the tests of the gate in order, then its block; the answer follows the effect. -/
def State.serve (s : State) (queue : QueueId) (g : Gate) (q : Request) (block : Request → State → Served) :
    State :=
  if !g.role then s.answer queue q .noRole []
  else if q.args.length < g.bytes then s.answer queue q .range []
  else if !s.inRun && !g.inConfig then s.answer queue q .state []
  else
    let r := block q s
    r.state.answer queue q r.code r.data

/-- The one-byte argument at a position. -/
def Request.arg (q : Request) (i : Nat) : Nat := byteAt q.args i

/-- The argument of two bytes at a position, low byte first. -/
def Request.arg2 (q : Request) (i : Nat) : Nat := natAt q.args i 2

/-- The argument of four bytes at a position, low byte first. -/
def Request.arg4 (q : Request) (i : Nat) : Nat := natAt q.args i 4

end Sys2Proof.Machine
end

