-- ==== Sys2Proof/Machine/Services.lean ====
section
/-! DEFINITION. The serving blocks: what each request does once R12's tests are passed. -/

namespace Sys2Proof.Machine

/-! ## Any role -/

/-- R29. -/
def serveIdentify (_ : Request) (s : State) : Served := ⟨s, .done, s.identity⟩

/-- The items that may be changed under the service key (R28). -/
def serviceItem (code : Nat) : Bool :=
  code == Item.strokeVolume || code == Item.yieldPercent || code == Item.pressureLimit

/-- An item takes a value, and the digest is computed again (R23, R25). -/
def State.setItem (s : State) (code index value : Nat) : State :=
  let it := itemSet s.ret.items code index value
  { s with ret := { s.ret with items := it, digest := configDigest it } }

/-- A pump's effective stroke volume computed again, with the SERVICE mark of a change (R28, R141). -/
def State.serviceChange (s : State) (p : PumpId) : State :=
  let volume := s.effectiveVolume p
  if volume = (s.chan p).effVolume then s
  else
    let s := s.setChan p { s.chan p with effVolume := volume }
    if s.strataOn then s.appendMark .service (serviceCode s.straps.number p) else s

/-- R23 in CONFIG, R28 in RUN. -/
def serveConfigSet (q : Request) (s : State) : Served :=
  let code := q.arg 0
  let index := q.arg 1
  let value := q.arg4 2
  if s.inRun && !(s.pins.serviceKey && serviceItem code) then s.refuse .locked
  else
    match itemCheck code index value with
    | .unknown => s.refuse .notFound
    | .outside => s.refuse .range
    | .taken =>
      let s := s.setItem code index value
      (if s.inRun then
        match pumpOfCode index with
        | some p => s.serviceChange p
        | none => s
      else s).done

/-- R26, R27: a failing test answers the item code and index. -/
def serveConfigLock (_ : Request) (s : State) : Served :=
  if s.inRun then s.refuse .locked
  else
    match lockFails s.ret.items with
    | some (code, index) => ⟨s, .range, [byteOf code, byteOf index]⟩
    | none => s.lock.done

/-- R17. -/
def serveStatusRead (q : Request) (s : State) : Served :=
  if 3 < q.arg 0 then s.refuse .range else ⟨s, .done, s.statusData (q.arg 0)⟩

/-- The fault record unlocked; while the line is stuck it latches again with kind LINE_STUCK, its count not
raised (R5, R17). -/
def State.clearFault (s : State) : State :=
  { s with link := { s.link with
      fault := if s.link.stuck then some ⟨.lineStuck, none, none, none, s.faultTime⟩ else none
      more := false } }

/-- LINK_FAULT reported cleared, so that a record that latches again raises it again (R17, log 15). -/
def State.reportUnlocked (s : State) : State := if s.inRun then s.report .linkFault false else s

/-- R17. -/
def serveFaultClear (_ : Request) (s : State) : Served := s.clearFault.reportUnlocked.done

/-- R39. -/
def serveClaimClear (q : Request) (s : State) : Served :=
  let k := q.arg 0
  if k < 1 ∨ 30 < k then s.refuse .range
  else if k = s.straps.number then s.refuse .state
  else if (s.peerClaimOf k).phase = .none then s.refuse .notFound
  else if !((s.peer? k).any (·.stale)) then s.refuse .state
  else (s.setPeerClaim k .absent).done

/-- R169. -/
def serveAlarmAck (q : Request) (s : State) : Served :=
  if !s.inRun then s.done
  else if q.arg 0 = 255 then ({ s with alarm := { s.alarm with pending := 0 } }).done
  else
    match AlarmCond.ofCode (q.arg 0) with
    | none => s.refuse .range
    | some c => ({ s with alarm := { s.alarm with pending := setFlag s.alarm.pending c false } }).done

/-! ## PUMP -/

/-- R53, R54. -/
def servePumpRate (q : Request) (s : State) : Served :=
  match pumpOfCode (q.arg 0) with
  | none => s.refuse .range
  | some p =>
    let rate := q.arg 1
    if 150 < rate then s.refuse .range
    else if !s.isFitted p then s.refuse .notFound
    else if 0 < rate ∧ (s.viewHolds ∨ s.claims.listen.isSome) then s.refuse .claimed
    else if 0 < rate ∧ (s.ret.job = .closed ∨ s.link.listenOnly) then s.refuse .state
    else if 0 < rate ∧ (s.chan p).state = .held then s.refuse .claimed
    else (s.setChan p ((s.chan p).setRate (s.startDuty p) rate)).done

/-! ## ROD: the rack and the string (R99, R103, R104) -/

/-- The sequencer is IDLE with an empty op queue, and the station may speak (R103, R104). -/
def State.rackFree (s : State) : Bool :=
  !s.link.listenOnly && s.seq.state == .idle && s.seq.queue.isEmpty

/-- R103. -/
def serveRackLoad (q : Request) (s : State) : Served :=
  let slot := q.arg 0
  let id := q.arg2 1
  if 63 < slot ∨ id < 1 ∨ 4095 < id then s.refuse .range
  else
    match findRod s.ret.rods id with
    | none => s.refuse .notFound
    | some d =>
      if !s.rackFree || d.state != .offRig || !s.slotEmpty slot then s.refuse .state
      else
        (s.rodChange (s.ret.placeAt id (fun _ => .rack) (some slot)) .rackLoaded (some id) (some slot)
          none).done

/-- R104. -/
def serveRackUnload (q : Request) (s : State) : Served :=
  let slot := q.arg 0
  if 63 < slot then s.refuse .range
  else
    match rodInSlot s.ret.rods slot with
    | none => s.refuse .notFound
    | some d =>
      if !s.rackFree then s.refuse .state
      else
        (s.rodChange (s.ret.placeAt d.id (RodState.orRetired .offRig) none) .rackUnloaded (some d.id)
          (some slot) none).done

/-- R99. -/
def serveStringRead (q : Request) (s : State) : Served :=
  let page := q.arg 0
  if 10 < page then s.refuse .range
  else if 0 < page ∧ s.ret.string.length < 12 * page + 1 then s.refuse .notFound
  else ⟨s, .done, s.pageData page⟩

/-! ## ROD: the sequencer (R106, R120 to R122) -/

/-- R106; the first unit begins at once from IDLE (R107). -/
def serveRodOp (q : Request) (s : State) : Served :=
  match OpKind.ofCode (q.arg 0) with
  | none => s.refuse .range
  | some kind =>
    let count := q.arg 1
    if count < 1 ∨ 32 < count then s.refuse .range
    else if s.seq.state.stopped || s.ret.job == .closed || s.link.listenOnly then s.refuse .state
    else if Config.opRoom ≤ s.seq.queue.length then s.refuse .full
    else
      let s' := { s with seq := { s.seq with queue := s.seq.queue ++ [⟨kind, count, q.source, s.ret.jobTime⟩] } }
      ⟨if s.seq.state = .idle then (s'.beginUnit (Config.opRoom + 1)).seqRun else s', .accepted, []⟩

/-- The waits that an abort ends at once (R120). -/
def State.abortsAtOnce (s : State) : Bool :=
  match s.seq.state, s.ret.unit with
  | .waitClaim, _ => true
  | .claiming, _ => true
  | .running, some u =>
    u.kindOfStep == .waitPumps ||
      (!u.moved &&
        match u.kind, u.step with
        | .makeUp, 4 => true
        | .makeUp, 7 => true
        | .breakOut, 3 => true
        | .breakOut, 6 => true
        | _, _ => false)
  | _, _ => false

/-- R120. -/
def State.rodAbort (s : State) : State :=
  let head := s.seq.queue.head?
  let emptied := s.seq.emptied || !s.seq.queue.isEmpty
  match s.ret.unit with
  | none => { s with seq := { s.seq with queue := [] } }
  | some u =>
    if s.abortsAtOnce then ({ s with seq := { s.seq with queue := [] } }).unitAborted u head
    else
      { s with seq := { s.seq with
          queue := []
          emptied := emptied
          aborted := s.seq.aborted || s.seq.state == .running } }

/-- R120. -/
def serveRodAbort (_ : Request) (s : State) : Served := s.rodAbort.done

/-- The unit resumed (R121): SEQUENCE_HOLD clears before the step begins anew, and a unit resumed from HOLD
with cause ABORTED runs to its end (log 23). -/
def State.resume (s : State) (u : UnitRec) : State :=
  let s := { s with seq := { s.seq with aborted := s.seq.aborted && s.seq.state != SeqState.hold .aborted } }
  ((s.report .sequenceHold false).enterStep u.step).seqRun

/-- R121. -/
def serveRodResume (_ : Request) (s : State) : Served :=
  if !s.seq.state.stopped || s.link.listenOnly || !s.claimActive then s.refuse .state
  else if !s.otherClaims.isEmpty then s.refuse .claimed
  else
    match s.ret.unit with
    | none => s.unitOver.done
    | some u => (s.resume u).done

/-- The arguments of ROD_CONFIRM (R122, section 11.4). -/
structure ConfirmArgs where
  rod : Option Nat
  place : Place
  slot : Nat
  hold : HoldRec

/-- The arguments read; none when a code names none of its values or a number is out of range (R122, test 2;
R173). With the rod ID absent only the hold record is read, in bits 0 to 2 (DESIGN CHOICE, log 66). -/
def Request.confirmArgs (q : Request) : Option ConfirmArgs :=
  let id := q.arg2 0
  let hold := HoldRec.ofCode (field 0 3 (q.arg 4))
  if !hold.valid then none
  else if id = 65535 then some ⟨none, .offRig, 0, hold⟩
  else
    match Place.ofCode (q.arg 2) with
    | none => none
    | some place =>
      if id < 1 ∨ 4095 < id ∨ (place = .slot ∧ 63 < q.arg 3) then none
      else some ⟨some id, place, q.arg 3, hold⟩

/-- The placing of ROD_CONFIRM (R122, test 4). -/
def Retained.confirmed (r : Retained) (a : ConfirmArgs) (d : Option Rod) : Option Retained :=
  let placed :=
    match d with
    | none => some r
    | some d => r.placing d a.place a.slot
  placed.bind fun (r : Retained) =>
    if a.hold.above && r.string.isEmpty then none else some { r with hold := a.hold }

/-- What a ROD_CONFIRM that passes does (R122); `e` is the head entry (log 26). DESIGN CHOICE (log 65): the event
carries no place when the rod ID is absent. -/
def State.confirm (s : State) (r : Retained) (a : ConfirmArgs) : State :=
  let slot := if a.rod.isSome && a.place == .slot then some a.slot else none
  let place := if a.rod.isSome then some a.place else none
  let e := s.seq.queue.head?
  let s := (s.rodChange r .confirmed a.rod slot place).depthFollows s
  let s := { s with seq := { s.seq with queue := [] } }
  let s :=
    match s.ret.unit with
    | some u => s.setLastOp u.kind .confirmed e
    | none => s
  s.seqIdle.releaseClaim

/-- R122. -/
def serveRodConfirm (q : Request) (s : State) : Served :=
  if !s.seq.state.stopped || s.link.listenOnly then s.refuse .state
  else
    match q.confirmArgs with
    | none => s.refuse .range
    | some a =>
      let d := a.rod.bind (findRod s.ret.rods)
      if a.rod.isSome && d.isNone then s.refuse .notFound
      else
        match s.ret.confirmed a d with
        | none => s.refuse .state
        | some r => (s.confirm r a).done

/-! ## HEAD -/

/-- R117; a report to an own sequencer follows from the service's state (R116). -/
def serveSpin (q : Request) (s : State) : Served :=
  let r := s.spinService q.source (q.arg 0)
  ⟨r.1, r.2.1, r.2.2⟩

/-! ## RECORD: strata (R136, R137, R142) -/

/-- The adjustment of a changed class (R153), with the supplement after the close (R162). -/
def State.adjust (s : State) (iv : Interval) (old cls describer : Nat) : State :=
  let oldCharge := iv.current.getD 0
  let charge := s.intervalCharge iv.index cls
  let late := s.ret.job == .closed
  let s := s.mapInterval iv.index fun iv => { iv with current := some charge }
  let full := decide (Config.adjustmentRoom ≤ s.ret.adjustments.length)
  { s with ret := { s.ret with
      sumCurrent :=
        if oldCharge ≤ charge then satAdd top32 s.ret.sumCurrent (charge - oldCharge)
        else s.ret.sumCurrent - (oldCharge - charge)
      adjustments := (if full then s.ret.adjustments.drop 1 else s.ret.adjustments) ++
        [⟨iv.index, old, cls, oldCharge, charge, s.ret.jobTime, describer, late⟩]
      droppedAdj := if full then satAdd 65535 s.ret.droppedAdj 1 else s.ret.droppedAdj
      additions := if late then satAdd top32 s.ret.additions (charge - oldCharge) else s.ret.additions
      reductions := if late then satAdd top32 s.ret.reductions (oldCharge - charge) else s.ret.reductions } }

/-- A description taken (R137). -/
def State.describe (s : State) (iv : Interval) (lithology cls : Nat) (source : DescSource) (describer : Nat) :
    State :=
  let old := s.classInForce iv
  let s := s.mapInterval iv.index fun iv =>
    { iv with lithology := some lithology, cls := some cls, source := some source }
  if old = cls then s else s.adjust iv old cls describer

/-- R136. -/
def serveDescribe (q : Request) (s : State) : Served :=
  let lithology := q.arg 2
  let cls := q.arg 3
  match DescSource.ofCode (q.arg 4) with
  | none => s.refuse .range
  | some source =>
    if 63 < lithology ∨ cls < 1 ∨ 4 < cls then s.refuse .range
    else
      match s.intervalAt (q.arg2 0) with
      | none => s.refuse .notFound
      | some iv =>
        if iv.closedTime.isNone then s.refuse .state
        else if source = .sample ∧ iv.sample = .inTransit then s.refuse .state
        else if source = .driller ∧ iv.source = some .sample then s.refuse .state
        else (s.describe iv lithology cls source q.source).done

/-- R142. -/
def serveRecordRead (q : Request) (s : State) : Served :=
  if 2 < q.arg 0 then s.refuse .range
  else
    match s.recordData (q.arg 0) (q.arg2 1) with
    | none => s.refuse .notFound
    | some data => ⟨s, .done, data⟩

/-! ## RECORD: billing (R150, R154, R163) -/

def State.setDown (s : State) (down : Bool) : State := { s with ret := { s.ret with down := down } }

/-- R150. -/
def serveDownBegin (q : Request) (s : State) : Served :=
  if s.ret.job = .closed ∨ s.ret.down then s.refuse .state
  else ((s.setDown true).appendMark .downBegin (q.arg 0)).done

/-- R150. -/
def serveDownEnd (_ : Request) (s : State) : Served :=
  if s.ret.job = .closed ∨ !s.ret.down then s.refuse .state
  else ((s.setDown false).appendMark .downEnd 0).done

/-- R154. -/
def serveAdditive (q : Request) (s : State) : Served :=
  let kind := q.arg 0
  let units := q.arg2 1
  if 7 < kind ∨ units < 1 ∨ 1000 < units then s.refuse .range
  else if s.ret.job = .closed then s.refuse .state
  else ({ s with ret := { s.ret with units := countAdd top32 s.ret.units kind units } }).done

/-- R163. -/
def serveStatementRead (q : Request) (s : State) : Served :=
  if 3 < q.arg 0 then s.refuse .range else ⟨s, .done, s.statementData (q.arg 0)⟩

/-! ## The job (R158, R164) -/

/-- Entry to CLOSING (R158), with the close kind or none yet. -/
def State.beginClose (s : State) (kind : Option CloseKind) : State :=
  { s with ret := { s.ret with
      job := .closing
      close := .processing
      closeKind := kind
      closingSeconds := 0 } }

/-- What a JOB_CLOSE that passes does (R158). DEDUCED (log 59): the normal close of a station without the RECORD role
has no close kind until it is complete. -/
def State.closeJob (s : State) (abrupt : Bool) : State :=
  if s.straps.record then
    if abrupt then s.abruptClose .abrupt else (s.beginClose (some .normal)).completionTest
  else if abrupt then s.plainClose .abrupt
  else (s.beginClose none).peerCloseTest

/-- R158: mode NORMAL 0, ABRUPT 1. -/
def serveJobClose (q : Request) (s : State) : Served :=
  if 1 < q.arg 0 then s.refuse .range
  else if s.ret.job = .closed then s.refuse .state
  else if q.arg 0 = 0 ∧ s.ret.job = .closing then s.refuse .state
  else (s.closeJob (q.arg 0 == 1)).done

/-- R164: the answer is handed before the station enters CONFIG, so JOB_CLEAR is served whole here. -/
def State.jobClear (s : State) (q : Request) : State :=
  if !s.inRun || s.ret.job != .closed then s.answer .exchange q .state []
  else (s.answer .exchange q .done []).clearJob

end Sys2Proof.Machine
end

