-- ==== Sys2Proof/Machine/FieldLines.lean ====
section
/-! DEFINITION. Commands of the field lines and of the blocks' timers: claims (R32, R40), threshold inputs
(R45, R46), pumps (R48 to R62), circulation (R69, R73), head (R86 to R88), rod handler (R110 to R115), spins
(R118) and the job second (R147). An expiry of a timer that does not run has no effect (log 3). -/

namespace Sys2Proof.Machine

open Host

/-! ## Claims -/

/-- SETTLE_EXPIRY (R32); an ACTIVE claim takes the sequencer to WAIT_PUMPS (R107). -/
def execSettleExpiry (s : State) : Outcome State Fault Refusal :=
  .next (s.inRunDo fun s =>
    if s.claims.settle.isSome then
      let r := s.settleExpired
      if r.2 && r.1.seq.state == .claiming then (r.1.enterStep 2).seqRun else r.1
    else s)

/-- LISTEN_WINDOW_END (R40, R42, R98). -/
def execListenWindowEnd (s : State) : Outcome State Fault Refusal :=
  .next (s.inRunDo fun s =>
    if s.claims.listen.isSome then
      let s := { s with claims := { s.claims with listen := none } }
      (s.takeTest.reevalPermit).viewSettles
    else s)

/-! ## Threshold inputs (R45, R46) -/

/-- A reading by four comparisons, each against the input as it stands (R45): an input is given by the step it
stands in. -/
def thresholdReading (first second third fourth : Nat) : Nat :=
  let a := if 8 ≤ first then 8 else 0
  let b := if a + 4 ≤ second then a + 4 else a
  let c := if b + 2 ≤ third then b + 2 else b
  if c + 1 ≤ fourth then c + 1 else c

/-- A reading taken into the agreement filter (R46). -/
def Threshold.take (reading : Nat) (t : Threshold) : Threshold :=
  if t.last = some reading then
    { t with last := some reading, accepted := reading, known := true, timer := some 100 }
  else { t with last := some reading, timer := some 100 }

def Thresholds.get (t : Thresholds) : ThresholdId → Threshold
  | .pressure => t.pressure
  | .pit => t.pit
  | .ret => t.ret

def Thresholds.set (t : Thresholds) (c : ThresholdId) (v : Threshold) : Thresholds :=
  match c with
  | .pressure => { t with pressure := v }
  | .pit => { t with pit := v }
  | .ret => { t with ret := v }

/-- The reader of a channel is told of a new accepted step (R46, R61, R70). -/
def State.thresholdTold (s : State) (c : ThresholdId) : State :=
  match c with
  | .pressure => s.mapPumps fun _ ch => ch.pressureTest s.thresholds.pressure
  | .pit => s
  | .ret => s.heardUpdate { s.heard with ret := s.ownReturn }

/-- A sample of a channel in service (R45, R46). -/
def State.sampleTaken (s : State) (c : ThresholdId) (reading : Nat) : State :=
  let old := s.thresholds.get c
  if old.timer.isSome then
    let new := old.take reading
    let s := { s with thresholds := s.thresholds.set c new }
    if new.accepted = old.accepted ∧ new.known = old.known then s else s.thresholdTold c
  else s

/-- THRESHOLD_SAMPLE (R45, R46). -/
def execThresholdSample (c : ThresholdId) (first second third fourth : Nat) (s : State) :
    Outcome State Fault Refusal :=
  .next (s.inRunDo fun s => s.sampleTaken c (thresholdReading first second third fourth))

/-! ## Pumps -/

/-- The edge of the configured polarity (R48). -/
def State.strokeEdgeUsed (s : State) (p : PumpId) (e : Edge) : Bool :=
  decide (e = if s.cfg Item.edgePolarity (pumpCode p) = 0 then Edge.rising else Edge.falling)

/-- The cumulative stroke count advanced (R48). -/
def State.countStroke (s : State) (p : PumpId) : State :=
  { s with ret :=
    match p with
    | .a => { s.ret with strokesA := next32 s.ret.strokesA }
    | .b => { s.ret with strokesB := next32 s.ret.strokesB } }

/-- The four things an accepted edge does, in order (R48). -/
def State.strokeAccepted (s : State) (p : PumpId) (now : Nat) : State :=
  let s := (s.countStroke p).credit (s.chan p).effVolume
  let s := s.setChan p ((s.chan p).edge s.thresholds.pressure (s.pressureLimit p) now)
  s.callStrokes p

/-- A time stamp read (log 4). -/
def State.stamp (s : State) (now : Nat) : State := { s with clockMs := max s.clockMs now }

/-- STROKE_EDGE (R48). -/
def execStrokeEdge (p : PumpId) (e : Edge) (now : Nat) (s : State) : Outcome State Fault Refusal :=
  .next (s.inRunDo fun s =>
    let s := s.stamp now
    if s.isFitted p && s.strokeEdgeUsed p e && (s.chan p).accepts now then s.strokeAccepted p now else s)

/-- STROKE_STOPPED_EXPIRY: 3 s without an accepted edge (R50, R56). -/
def execStrokeStoppedExpiry (p : PumpId) (s : State) : Outcome State Fault Refusal :=
  .next (s.inRunDo fun s =>
    if (s.chan p).stoppedTimer.isSome then (s.setChan p (s.chan p).strokesEnd).seqRun else s)

/-- START_TIMER_EXPIRY (R55). -/
def execStartTimerExpiry (p : PumpId) (s : State) : Outcome State Fault Refusal :=
  .next (s.inRunDo fun s => s.setChan p (s.chan p).startExpired)

/-- PWM_PERIOD: the staged duty becomes the applied duty (R51). -/
def execPwmPeriod (p : PumpId) (s : State) : Outcome State Fault Refusal :=
  .next (s.inRunDo fun s =>
    if s.isFitted p then s.setChan p ((s.chan p).pwm (s.cfg Item.pwmPeriod (pumpCode p))) else s)

/-- The 200 ms since a STROKES frame have passed (R62). -/
def State.strokesHoldoffEnd (s : State) (p : PumpId) : State :=
  let c := s.chan p
  let s' := s.setChan p { c with holdoff := none, callKept := false }
  if c.callKept then s'.handStrokes p else s'

/-- STROKES_HOLDOFF_EXPIRY (R62). -/
def execStrokesHoldoffExpiry (p : PumpId) (s : State) : Outcome State Fault Refusal :=
  .next (s.inRunDo fun s => if (s.chan p).holdoff.isSome then s.strokesHoldoffEnd p else s)

/-! ## Circulation -/

/-- WATER_PULSE (R69). -/
def execWaterPulse (s : State) : Outcome State Fault Refusal :=
  .next (s.inRunDo fun s => if s.isPit then s.waterPulse else s)

/-- BALANCE_EVALUATION (R73). -/
def execBalanceEvaluation (s : State) : Outcome State Fault Refusal :=
  .next (s.inRunDo fun s =>
    if s.circ.evalTimer.isSome then
      ({ s with circ := { s.circ with evalTimer := some 2000 } }).takeEvaluation s.evaluate
    else s)

/-! ## Head -/

/-- h moved by one count, clamped to 0 to the mast travel (R86). -/
def State.movedHead (s : State) (up : Bool) : Nat :=
  let feed := s.cfg Item.feedPerCount 0
  if up then min (s.cfg Item.mastTravel 0) (s.depth.h + feed)
  else min (s.cfg Item.mastTravel 0) (s.depth.h - feed)

/-- What follows a count or a homing of the own head taken at `before` (R88, R89, R93, R109). -/
def State.headMoved (s before : State) (call : Bool) : State :=
  let s := if call || s.depth.movedFar then s.headCall else s
  (s.depthFollows before).seqRun

/-- ENCODER_COUNT (R86). -/
def execEncoderCount (up : Bool) (s : State) : Outcome State Fault Refusal :=
  .next (s.inRunDo fun s =>
    if s.straps.head then
      ({ s with depth := { s.depth with h := s.movedHead up } }).headMoved s false
    else s)

/-- The top limit switch becomes asserted (R86). -/
def State.homed (s : State) : State :=
  let was := s.depth.headKnown
  ({ s with depth := { s.depth with h := s.cfg Item.mastTravel 0, headKnown := true } }).headMoved s !was

/-- TOP_LIMIT (R86). -/
def execTopLimit (level : Bool) (s : State) : Outcome State Fault Refusal :=
  let rises := level && !s.pins.topLimit
  .next (({ s with pins := { s.pins with topLimit := level } }).inRunDo fun s =>
    if rises && s.straps.head then s.homed else s)

/-- rpm at a completed turn (R87). -/
def DepthUnit.turnRpm (d : DepthUnit) (now : Nat) : Nat :=
  match d.turnRef with
  | none => d.rpm
  | some t => if now ≤ t then 254 else min 254 (60000 / (now - t))

/-- A turn completes (R87): the head values have changed, so bit depth is formed again (R89, R93), and wear is
credited (R101). -/
def State.turnDone (s : State) (now : Nat) : State :=
  (({ s with
      ret := { s.ret with
        turns := next32 s.ret.turns
        spinTurns := if s.spin.state = SpinState.running then next32 s.ret.spinTurns else s.ret.spinTurns }
      depth := { s.depth with pulses := 0, rpm := s.depth.turnRpm now, turnRef := some now } }).depthFollows s).wearCredit

/-- A rotation pulse (R87). -/
def State.rotationPulse (s : State) (now : Nat) : State :=
  let s := { s with depth := { s.depth with pulses := s.depth.pulses + 1, idleTimer := some 2000 } }
  if s.cfg Item.pulsesPerTurn 0 ≤ s.depth.pulses then s.turnDone now else s

/-- ROTATION_PULSE (R87). -/
def execRotationPulse (now : Nat) (s : State) : Outcome State Fault Refusal :=
  .next (s.inRunDo fun s =>
    let s := s.stamp now
    if s.straps.head then s.rotationPulse now else s)

/-- ROTATION_IDLE_TIMEOUT: 2 s without a pulse (R87); an rpm that falls to 0 is a change of the head values (R89, R93). -/
def execRotationIdleTimeout (s : State) : Outcome State Fault Refusal :=
  .next (s.inRunDo fun s =>
    if s.depth.idleTimer.isSome then
      ({ s with depth := { s.depth with rpm := 0, turnRef := none, idleTimer := none } }).depthFollows s
    else s)

/-- The 200 ms since a HEAD frame have passed (R88). -/
def State.headHoldoffEnd (s : State) : State :=
  let kept := s.depth.callKept
  let s := { s with depth := { s.depth with holdoff := none, callKept := false } }
  if kept then s.handHead else s

/-- HEAD_HOLDOFF_EXPIRY (R88). -/
def execHeadHoldoffExpiry (s : State) : Outcome State Fault Refusal :=
  .next (s.inRunDo fun s => if s.depth.holdoff.isSome then s.headHoldoffEnd else s)

/-! ## Rod handler inputs (R110, R113, R115) -/

/-- CLAMP_CLOSED (R110). -/
def execClampClosed (level : Bool) (s : State) : Outcome State Fault Refusal :=
  .next (({ s with pins := { s.pins with clampClosed := level } }).inRunDo State.seqRun)

/-- CLAMP_OPEN (R110). -/
def execClampOpen (level : Bool) (s : State) : Outcome State Fault Refusal :=
  .next (({ s with pins := { s.pins with clampOpen := level } }).inRunDo State.seqRun)

/-- SLOT_CODE (R113, R115). -/
def execSlotCode (code : Nat) (s : State) : Outcome State Fault Refusal :=
  .next (({ s with pins := { s.pins with slotCode := code } }).inRunDo State.seqRun)

/-- ROD_PRESENTED (R113). -/
def execRodPresented (level : Bool) (s : State) : Outcome State Fault Refusal :=
  .next (({ s with pins := { s.pins with rodPresented := level } }).inRunDo State.seqRun)

/-- GRIPPED (R115). -/
def execGripped (level : Bool) (s : State) : Outcome State Fault Refusal :=
  .next (({ s with pins := { s.pins with gripped := level } }).inRunDo State.seqRun)

/-- SLOT_OCCUPIED (R115). -/
def execSlotOccupied (level : Bool) (s : State) : Outcome State Fault Refusal :=
  .next (({ s with pins := { s.pins with slotOccupied := level } }).inRunDo State.seqRun)

/-- The fault cause of a step or phase timer (section 7.2, step timers). -/
def stepCause (k : StepKind) (phase : StepPhase) : StopCause :=
  match k, phase with
  | .waitPumps, _ => .pumpsNotDown
  | .waitPosition, _ => .position
  | .clamp, _ => .clamp
  | .release, _ => .clamp
  | .fetch, .first => .carousel
  | .fetch, _ => .loader
  | .store, .first => .carousel
  | .store, _ => .loader
  | .grip, _ => .grip
  | .spin _, _ => .spin
  | .claim, _ => .spin

/-- The timer of the running step or phase expires (R111, R119). -/
def State.stepTimeout (s : State) : State :=
  match s.ret.unit with
  | some u =>
    if s.seq.timer.isSome && s.seq.state == .running then
      s.seqFault (stepCause u.kindOfStep s.seq.phase)
    else s
  | none => s

/-- STEP_TIMER_EXPIRY (R111). -/
def execStepTimerExpiry (s : State) : Outcome State Fault Refusal :=
  .next (s.inRunDo State.stepTimeout)

/-! ## Spins (R118) -/

/-- A running spin ends in a state, which an own sequencer sees directly (R116, R118). -/
def State.spinOver (s : State) (st : SpinState) : State :=
  if s.spin.state = .running then (s.spinEnd st).ownSpinReport else s

/-- SPIN_DONE_INPUT: the input becomes asserted while a spin runs (R118, R116). -/
def execSpinDoneInput (level : Bool) (s : State) : Outcome State Fault Refusal :=
  let rises := level && !s.pins.spinDone
  .next (({ s with pins := { s.pins with spinDone := level } }).inRunDo fun s =>
    if rises then s.spinOver .done else s)

/-- SPIN_TIMER_EXPIRY (R118, R116). -/
def execSpinTimerExpiry (s : State) : Outcome State Fault Refusal :=
  .next (s.inRunDo fun s =>
    if s.spin.timer.isSome then s.spinOver .failed else s)

/-! ## The job second (R147 to R149) -/

/-- A claim of a kind stands in the view (R148). -/
def State.kindInView (s : State) (k : ClaimKind) : Bool := s.claimView.any fun c => c.kind == k

/-- The activity class of this second: DOWN 0 to STANDBY 7 (R148). -/
def State.activityClass (s : State) : Nat :=
  if s.ret.down then 0
  else if s.kindInView .still then 1
  else if s.kindInView .connection then
    (if s.depth.bitDepth.any fun d => decide (s.ret.hole ≤ d + 10000) then 3 else 2)
  else if (s.ret.balState == .losing || s.ret.balState == .totalLoss) && s.pumpRunning then 4
  else if s.depth.onBottom && decide (0 < s.headRpm) && s.pumpRunning then 5
  else if s.pumpRunning then 6
  else 7

/-- An unsure second (R149). -/
def State.unsureNow (s : State) : Bool :=
  s.claimView.any (·.stale) || !s.noStalePump ||
    (!s.isPit && (s.circ.heardStale || s.circ.heardSource.isNone)) ||
    s.depth.bitDepth.isNone || s.depth.headSource.isNone

/-- The second charged at a RECORD station (R148, R149). -/
def State.meterSecond (s : State) : State :=
  if s.straps.record then
    { s with ret := { s.ret with
        meters := countAdd top32 s.ret.meters s.activityClass 1
        unsure := if s.unsureNow then satAdd top32 s.ret.unsure 1 else s.ret.unsure } }
  else s

/-- On-bottom seconds of the open interval (R129). -/
def State.strataSecond (s : State) : State :=
  if s.strataOn && s.depth.onBottom then s.mapOpen fun iv => { iv with seconds := satAdd 65535 iv.seconds 1 }
  else s

/-- The closing seconds and the close limit (R147, step 4; R159, R161). -/
def State.closingSecond (s : State) : State :=
  if s.ret.job = .closing then
    let n := s.ret.closingSeconds + 1
    let s := { s with ret := { s.ret with closingSeconds := n } }
    if 1800 ≤ n then (if s.straps.record then s.abruptClose .timedOut else s.plainClose .timedOut) else s
  else s

/-- One job second (R147). -/
def State.jobSecond (s : State) : State :=
  if top32 ≤ s.ret.jobTime then s
  else
    let s := { s with ret := { s.ret with jobTime := s.ret.jobTime + 1 } }
    let s := s.meterSecond.strataSecond.closingSecond
    if s.straps.record && s.ret.jobTime % 60 == 0 then s.checkCeiling else s

/-- JOB_SECOND (R147). -/
def execJobSecond (s : State) : Outcome State Fault Refusal :=
  .next (s.inRunDo fun s => if s.billing.jobTimer.isSome then s.jobSecond else s)

end Sys2Proof.Machine
end

