-- ==== Sys2Proof/Machine/LinkLine.lean ====
section
/-! DEFINITION. Commands of the rig link: the line, sending, receiving, the status period and the outstanding
request table (chapter 1). A command that does not apply to the state of the line has no effect (log 13). -/

namespace Sys2Proof.Machine

open Host

/-! ## The line (R1, R2, R5) -/

/-- LINE_QUIET: 11 bit times of rest (R1, R2, R5); `trailing` says that bytes came after a complete frame. -/
def execLineQuiet (trailing : Bool) (s : State) : Outcome State Fault Refusal :=
  .next (s.poweredDo fun s =>
    if s.link.lineBusy && !s.link.sending then s.onLink fun e => Link.goQuiet e trailing else s)

/-- A start bit on a line that is BUSY already: while nothing has been gathered since the start, an own send or
a discarded frame, a frame is being gathered (R1). -/
def Link.gather (l : Link) : Link := if l.rx = .idle then { l with rx := .gathering } else l

/-- LINE_BUSY: a start bit of another station (R1, R2). While the station sends it gathers nothing. -/
def execLineBusy (s : State) : Outcome State Fault Refusal :=
  .next (s.poweredDo fun s =>
    if !s.link.lineBusy then s.onLink fun e => Link.goBusy e
    else if s.link.sending then s
    else { s with link := s.link.gather })

/-- DEFERRAL: the line becomes BUSY while an access delay runs (R2). -/
def execDeferral (s : State) : Outcome State Fault Refusal :=
  .next (s.poweredDo fun s =>
    if !s.link.lineBusy && s.link.inHand.any (·.delay.isSome) then s.onLink fun e => Link.goBusy e else s)

/-- A byte without its stop bit: what has been gathered, if only that byte, is one broken frame (R1, log 12). After a
complete frame it belongs to the bytes discarded at QUIET. -/
def Link.stopBitMissing (l : Link) : Link :=
  match l.rx with
  | .complete => { l with rx := .trailing }
  | .trailing => l
  | .idle => l.rxError
  | .gathering => { l.rxError with rx := RxPhase.idle }

/-- STOP_BIT_MISSING: what has been gathered is discarded as a broken frame (R1). -/
def execStopBitMissing (s : State) : Outcome State Fault Refusal :=
  .next (s.poweredDo fun s =>
    if s.link.lineBusy && !s.link.sending then { s with link := s.link.stopBitMissing } else s)

/-- LINE_STUCK: BUSY for more than 960 bit times, once for each such period (R5). -/
def execLineStuck (s : State) : Outcome State Fault Refusal :=
  .next (s.poweredDo fun s =>
    if s.link.lineBusy && !s.link.sending && !s.link.stuck then
      s.onLink fun e l => { l.record e .lineStuck none none none with stuck := true }
    else s)

/-! ## Sending (R2, R3, R9, R10) -/

/-- The frame in hand begins to be sent; its first send gives it the sequence number (R2, R3). -/
def Link.beginSend (h : InHand) (l : Link) : Link :=
  { l with
      lineBusy := true
      inHand := some { h with
        frame := { h.frame with seq := some (h.frame.seq.getD l.ownSeq) }
        sending := true
        delay := none } }

/-- ACCESS_DELAY_EXPIRY: the line stayed QUIET for the whole delay (R2). -/
def execAccessDelayExpiry (s : State) : Outcome State Fault Refusal :=
  .next (s.poweredDo fun s =>
    match s.link.inHand with
    | some h => if h.delay.isSome && !s.link.lineBusy then { s with link := s.link.beginSend h } else s
    | none => s)

/-- The frame in hand meets a read-back mismatch (R3): COLLISION is recorded and a deferral and a collision
are counted; a waiting URGENT frame is taken next (R10), and that the current queue's count then falls by one as for a
frame that is not being sent is the model's choice (DESIGN CHOICE, log 44). The third collision of one frame is another
matter (`State.collide`). -/
def Link.collide (e : LinkEnv) (h : InHand) (l : Link) : Link :=
  let f := { h.frame with collisions := h.frame.collisions + 1 }
  (((l.record e .collision none (some f.kind) f.seq).defer e { h with frame := f }).settle e)

/-- A collision; the third of one frame records DUPLICATE_STATION and enters LISTEN_ONLY (R3, R4). -/
def State.collide (s : State) (h : InHand) : State :=
  let s := s.onLink fun e => Link.collide e h
  if 3 ≤ h.frame.collisions + 1 then
    (s.recordFault .duplicateStation (some s.straps.number) (some h.frame.kind) h.frame.seq).listenOnlyNow
  else s

/-- COLLISION: a bit read differs from the bit driven (R3). -/
def execCollision (s : State) : Outcome State Fault Refusal :=
  .next (s.poweredDo fun s =>
    match s.link.inHand with
    | some h => if h.sending then s.collide h else s
    | none => s)

/-- FRAME_SENT: the frame in hand was sent whole (R3, R10). -/
def execFrameSent (s : State) : Outcome State Fault Refusal :=
  .next (s.poweredDo fun s =>
    if s.link.sending then
      s.onLink fun e l => ({ l with ownSeq := (l.ownSeq + 1) % 256 }).release e
    else s)

/-- ROD_EVENT_JOIN: a waiting ROD_EVENT frame joins its queue, and the step that made it may end (R9, log 45). -/
def execRodEventJoin (s : State) : Outcome State Fault Refusal :=
  .next (s.poweredDo fun s =>
    let s := s.onLink Link.joinFirst
    if s.inRun then s.seqRun else s)

/-! ## Receiving (R6, R11, R14) -/

/-- FRAME_RECEIVED: a complete frame ends on the line (R6, R11). -/
def execFrameReceived (bytes : List Byte) (s : State) : Outcome State Fault Refusal :=
  .next (s.poweredDo fun s => s.frameReceived bytes)

/-- PEER_STALE: the silence timer of a heard peer has run out (R14). -/
def execPeerStale (station : Nat) (s : State) : Outcome State Fault Refusal :=
  .next (s.poweredDo fun s => s.peerStale station)

/-! ## The status period (R7, R62, R88, R100) -/

/-- What a status period hands, in order: STATUS, STROKES A and B, HEAD, and a page request. -/
def State.statusPeriodEnd (s : State) : State :=
  let s := { s with link := { s.link with statusTimer := some s.statusPeriod } }
  let s := s.handStatus
  if s.inRun then
    let s := (s.periodStrokes .a).periodStrokes .b
    let s := if s.straps.head then s.handHead else s
    s.resyncPeriod
  else s

/-- STATUS_PERIOD_EXPIRY (R7). -/
def execStatusPeriodExpiry (s : State) : Outcome State Fault Refusal :=
  .next (s.poweredDo fun s => if s.link.statusTimer.isSome then s.statusPeriodEnd else s)

/-! ## Requests to peers (R13) -/

/-- A waiting issuer takes the room that has appeared (R13). DESIGN CHOICE (log 57): a page request enters even when
its rod source has gone stale since it was issued (R100). -/
def State.requestEntry (s : State) (issuer : Issuer) : State :=
  if s.link.canIssue && !s.link.listenOnly then
    match issuer with
    | .sequencer =>
      match s.seq.spin with
      | .waiting dest kind => s.issueSpin dest kind
      | _ => s
    | .rodUnit =>
      match s.rod.resync.request with
      | .waiting dest page => s.issuePage dest page
      | _ => s
  else s

/-- REQUEST_ENTRY (R13). -/
def execRequestEntry (issuer : Issuer) (s : State) : Outcome State Fault Refusal :=
  .next (s.inRunDo fun s => s.requestEntry issuer)

/-- ANSWER_TIMEOUT: an entry has run out unanswered (R13). -/
def execAnswerTimeout (tag : Byte) (s : State) : Outcome State Fault Refusal :=
  .next (s.poweredDo fun s => s.answerTimedOut tag.toNat)

end Sys2Proof.Machine
end

