-- ==== Sys2Proof/Machine/Requests.lean ====
section
/-! DEFINITION. The requests (R12, section 11.4). A command presents its request (log 7); the gate names the
role it needs, the bytes its arguments take, and whether CONFIG serves it (R22). -/

namespace Sys2Proof.Machine

open Host

/-- UNKNOWN_REQUEST: a request code the station does not know is answered UNKNOWN (R12). A known code only
arrives (log 7). -/
def execUnknownRequest (rq : ReqHead) (code : Byte) (s : State) : Outcome State Fault Refusal :=
  .next (s.poweredDo fun s =>
    if knownCode code.toNat then s.arrive (requestOf rq code.toNat [])
    else s.present (requestOf rq code.toNat []) fun q s => s.answer .exchange q .unknown [])

/-- IDENTIFY (R29). -/
def execIdentify (rq : ReqHead) (s : State) : Outcome State Fault Refusal :=
  .next (s.poweredDo fun s =>
    s.present (requestOf rq identifyCode []) fun q s =>
      s.serve .exchange ⟨true, 0, true⟩ q serveIdentify)

/-- CONFIG_SET (R23, R28; the key's level is the operand (log 9)). -/
def execConfigSet (rq : ReqHead) (key : Bool) (item index : Byte) (value : BitVec 32) (s : State) :
    Outcome State Fault Refusal :=
  .next (s.poweredDo fun s =>
    let s := { s with pins := { s.pins with serviceKey := key } }
    s.present (requestOf rq configSetCode ([item, index] ++ leBytes 4 value.toNat)) fun q s =>
      s.serve .exchange ⟨true, 6, true⟩ q serveConfigSet)

/-- CONFIG_LOCK (R26, R27). -/
def execConfigLock (rq : ReqHead) (s : State) : Outcome State Fault Refusal :=
  .next (s.poweredDo fun s =>
    s.present (requestOf rq configLockCode []) fun q s =>
      s.serve .exchange ⟨true, 0, true⟩ q serveConfigLock)

/-- STATUS_READ (R17). -/
def execStatusRead (rq : ReqHead) (part : Byte) (s : State) : Outcome State Fault Refusal :=
  .next (s.poweredDo fun s =>
    s.present (requestOf rq statusReadCode [part]) fun q s =>
      s.serve .exchange ⟨true, 1, true⟩ q serveStatusRead)

/-- FAULT_CLEAR (R17). -/
def execFaultClear (rq : ReqHead) (s : State) : Outcome State Fault Refusal :=
  .next (s.poweredDo fun s =>
    s.present (requestOf rq faultClearCode []) fun q s =>
      s.serve .exchange ⟨true, 0, true⟩ q serveFaultClear)

/-- CLAIM_CLEAR (R39). -/
def execClaimClear (rq : ReqHead) (station : Byte) (s : State) : Outcome State Fault Refusal :=
  .next (s.poweredDo fun s =>
    s.present (requestOf rq claimClearCode [station]) fun q s =>
      s.serve .exchange ⟨true, 1, false⟩ q serveClaimClear)

/-- PUMP_RATE (R53, R54). -/
def execPumpRate (rq : ReqHead) (pump rate : Byte) (s : State) : Outcome State Fault Refusal :=
  .next (s.poweredDo fun s =>
    s.present (requestOf rq pumpRateCode [pump, rate]) fun q s =>
      s.serve .exchange ⟨s.straps.pump, 2, false⟩ q servePumpRate)

/-- RACK_LOAD (R103). -/
def execRackLoad (rq : ReqHead) (slot : Byte) (rod : BitVec 16) (s : State) : Outcome State Fault Refusal :=
  .next (s.poweredDo fun s =>
    s.present (requestOf rq rackLoadCode ([slot] ++ leBytes 2 rod.toNat)) fun q s =>
      s.serve .exchange ⟨s.straps.rod, 3, false⟩ q serveRackLoad)

/-- RACK_UNLOAD (R104). -/
def execRackUnload (rq : ReqHead) (slot : Byte) (s : State) : Outcome State Fault Refusal :=
  .next (s.poweredDo fun s =>
    s.present (requestOf rq rackUnloadCode [slot]) fun q s =>
      s.serve .exchange ⟨s.straps.rod, 1, false⟩ q serveRackUnload)

/-- STRING_READ (R99). -/
def execStringRead (rq : ReqHead) (page : Byte) (s : State) : Outcome State Fault Refusal :=
  .next (s.poweredDo fun s =>
    s.present (requestOf rq stringReadCode [page]) fun q s =>
      s.serve .exchange ⟨s.straps.rod, 1, false⟩ q serveStringRead)

/-- ROD_OP (R106). -/
def execRodOp (rq : ReqHead) (kind count : Byte) (s : State) : Outcome State Fault Refusal :=
  .next (s.poweredDo fun s =>
    s.present (requestOf rq rodOpCode [kind, count]) fun q s =>
      s.serve .exchange ⟨s.straps.rod, 2, false⟩ q serveRodOp)

/-- ROD_ABORT (R120). -/
def execRodAbort (rq : ReqHead) (s : State) : Outcome State Fault Refusal :=
  .next (s.poweredDo fun s =>
    s.present (requestOf rq rodAbortCode []) fun q s =>
      s.serve .exchange ⟨s.straps.rod, 0, false⟩ q serveRodAbort)

/-- ROD_RESUME (R121). -/
def execRodResume (rq : ReqHead) (s : State) : Outcome State Fault Refusal :=
  .next (s.poweredDo fun s =>
    s.present (requestOf rq rodResumeCode []) fun q s =>
      s.serve .exchange ⟨s.straps.rod, 0, false⟩ q serveRodResume)

/-- ROD_CONFIRM (R122). -/
def execRodConfirm (rq : ReqHead) (rod : BitVec 16) (place slot hold : Byte) (s : State) :
    Outcome State Fault Refusal :=
  .next (s.poweredDo fun s =>
    s.present (requestOf rq rodConfirmCode (leBytes 2 rod.toNat ++ [place, slot, hold])) fun q s =>
      s.serve .exchange ⟨s.straps.rod, 5, false⟩ q serveRodConfirm)

/-- SPIN (R117, R118). -/
def execSpin (rq : ReqHead) (kind : Byte) (s : State) : Outcome State Fault Refusal :=
  .next (s.poweredDo fun s =>
    s.present (requestOf rq spinCode [kind]) fun q s =>
      s.serve .exchange ⟨s.straps.head, 1, false⟩ q serveSpin)

/-- DESCRIBE (R136, R137, R153). -/
def execDescribe (rq : ReqHead) (interval : BitVec 16) (lithology cls source : Byte) (s : State) :
    Outcome State Fault Refusal :=
  .next (s.poweredDo fun s =>
    s.present (requestOf rq describeCode (leBytes 2 interval.toNat ++ [lithology, cls, source])) fun q s =>
      s.serve .exchange ⟨s.straps.record, 5, false⟩ q serveDescribe)

/-- RECORD_READ (R142). -/
def execRecordRead (rq : ReqHead) (selector : Byte) (index : BitVec 16) (s : State) :
    Outcome State Fault Refusal :=
  .next (s.poweredDo fun s =>
    s.present (requestOf rq recordReadCode ([selector] ++ leBytes 2 index.toNat)) fun q s =>
      s.serve .bulk ⟨s.straps.record, 3, false⟩ q serveRecordRead)

/-- DOWN_BEGIN (R150). -/
def execDownBegin (rq : ReqHead) (cause : Byte) (s : State) : Outcome State Fault Refusal :=
  .next (s.poweredDo fun s =>
    s.present (requestOf rq downBeginCode [cause]) fun q s =>
      s.serve .exchange ⟨s.straps.record, 1, false⟩ q serveDownBegin)

/-- DOWN_END (R150). -/
def execDownEnd (rq : ReqHead) (s : State) : Outcome State Fault Refusal :=
  .next (s.poweredDo fun s =>
    s.present (requestOf rq downEndCode []) fun q s =>
      s.serve .exchange ⟨s.straps.record, 0, false⟩ q serveDownEnd)

/-- ADDITIVE (R154). -/
def execAdditive (rq : ReqHead) (kind : Byte) (units : BitVec 16) (s : State) : Outcome State Fault Refusal :=
  .next (s.poweredDo fun s =>
    s.present (requestOf rq additiveCode ([kind] ++ leBytes 2 units.toNat)) fun q s =>
      s.serve .exchange ⟨s.straps.record, 3, false⟩ q serveAdditive)

/-- STATEMENT_READ (R163). -/
def execStatementRead (rq : ReqHead) (part : Byte) (s : State) : Outcome State Fault Refusal :=
  .next (s.poweredDo fun s =>
    s.present (requestOf rq statementReadCode [part]) fun q s =>
      s.serve .bulk ⟨s.straps.record, 1, false⟩ q serveStatementRead)

/-- JOB_CLOSE (R158). -/
def execJobClose (rq : ReqHead) (mode : Byte) (s : State) : Outcome State Fault Refusal :=
  .next (s.poweredDo fun s =>
    s.present (requestOf rq jobCloseCode [mode]) fun q s =>
      s.serve .exchange ⟨true, 1, false⟩ q serveJobClose)

/-- JOB_CLEAR (R164); its answer is handed before the station enters CONFIG. -/
def execJobClear (rq : ReqHead) (s : State) : Outcome State Fault Refusal :=
  .next (s.poweredDo fun s => s.present (requestOf rq jobClearCode []) fun q s => s.jobClear q)

/-- ALARM_ACK (R169). -/
def execAlarmAck (rq : ReqHead) (condition : Byte) (s : State) : Outcome State Fault Refusal :=
  .next (s.poweredDo fun s =>
    s.present (requestOf rq alarmAckCode [condition]) fun q s =>
      s.serve .exchange ⟨true, 1, true⟩ q serveAlarmAck)

end Sys2Proof.Machine
end

