-- ==== Sys2Proof/Machine/Supply.lean ====
section
/-! DEFINITION. Commands of the supply and the reset line: POWER_START, PIN_START, RESET_ASSERT, SUPPLY_LOSS
and BACKUP_SUPPLY_EXHAUSTED (R19 to R21). -/

namespace Sys2Proof.Machine

open Host

/-- POWER_START: the supply comes up and CHECK runs (R19 to R21, log 34). -/
def execPowerStart (straps : Straps) (s : State) : Outcome State Fault Refusal :=
  .next (s.check straps .power)

/-- PIN_START: the reset line is released and CHECK runs; without supply nothing happens (R21, log 34). -/
def execPinStart (straps : Straps) (s : State) : Outcome State Fault Refusal :=
  .next (if s.mode = .off then s else s.check straps .pin)

/-- RESET_ASSERT: the station does nothing while the reset line is held (R19). -/
def execResetAssert (torn : Bool) (s : State) : Outcome State Fault Refusal :=
  .next (if s.mode = .off then s else s.halt .resetHeld torn)

/-- SUPPLY_LOSS: the station stops; the backup supply holds both images (R20). -/
def execSupplyLoss (torn : Bool) (s : State) : Outcome State Fault Refusal :=
  .next (s.halt .off torn)

/-- BACKUP_SUPPLY_EXHAUSTED: without main supply, both images fail their checks (R20). -/
def execBackupSupplyExhausted (s : State) : Outcome State Fault Refusal :=
  .next
    (if s.mode = .off then
      { s with first := s.first.failed, second := s.second.failed }
    else s)

end Sys2Proof.Machine
end

