-- ==== Sys2Proof/Machine/Dispatch.lean ====
section
/-! DEFINITION. One arm for each command, each one direct call of its meaning. -/

namespace Sys2Proof.Machine

open Host

def exec (i : Instr) (s : State) : Host.Outcome State Fault Refusal :=
  match i with
  | .powerStart straps => Sys2Proof.Machine.execPowerStart straps s
  | .pinStart straps => Sys2Proof.Machine.execPinStart straps s
  | .resetAssert torn => Sys2Proof.Machine.execResetAssert torn s
  | .supplyLoss torn => Sys2Proof.Machine.execSupplyLoss torn s
  | .lineQuiet trailing => Sys2Proof.Machine.execLineQuiet trailing s
  | .frameReceived bytes => Sys2Proof.Machine.execFrameReceived bytes s
  | .accessDelayExpiry => Sys2Proof.Machine.execAccessDelayExpiry s
  | .deferral => Sys2Proof.Machine.execDeferral s
  | .collision => Sys2Proof.Machine.execCollision s
  | .frameSent => Sys2Proof.Machine.execFrameSent s
  | .rodEventJoin => Sys2Proof.Machine.execRodEventJoin s
  | .lineStuck => Sys2Proof.Machine.execLineStuck s
  | .statusPeriodExpiry => Sys2Proof.Machine.execStatusPeriodExpiry s
  | .unknownRequest rq code => Sys2Proof.Machine.execUnknownRequest rq code s
  | .requestEntry issuer => Sys2Proof.Machine.execRequestEntry issuer s
  | .answerTimeout tag => Sys2Proof.Machine.execAnswerTimeout tag s
  | .peerStale station => Sys2Proof.Machine.execPeerStale station s
  | .identify rq => Sys2Proof.Machine.execIdentify rq s
  | .configSet rq key item index value => Sys2Proof.Machine.execConfigSet rq key item index value s
  | .configLock rq => Sys2Proof.Machine.execConfigLock rq s
  | .statusRead rq part => Sys2Proof.Machine.execStatusRead rq part s
  | .faultClear rq => Sys2Proof.Machine.execFaultClear rq s
  | .claimClear rq station => Sys2Proof.Machine.execClaimClear rq station s
  | .pumpRate rq pump rate => Sys2Proof.Machine.execPumpRate rq pump rate s
  | .rackLoad rq slot rod => Sys2Proof.Machine.execRackLoad rq slot rod s
  | .rackUnload rq slot => Sys2Proof.Machine.execRackUnload rq slot s
  | .stringRead rq page => Sys2Proof.Machine.execStringRead rq page s
  | .rodOp rq kind count => Sys2Proof.Machine.execRodOp rq kind count s
  | .rodAbort rq => Sys2Proof.Machine.execRodAbort rq s
  | .rodResume rq => Sys2Proof.Machine.execRodResume rq s
  | .rodConfirm rq rod place slot hold => Sys2Proof.Machine.execRodConfirm rq rod place slot hold s
  | .spin rq kind => Sys2Proof.Machine.execSpin rq kind s
  | .describe rq interval lithology cls source => Sys2Proof.Machine.execDescribe rq interval lithology cls source s
  | .recordRead rq selector index => Sys2Proof.Machine.execRecordRead rq selector index s
  | .downBegin rq cause => Sys2Proof.Machine.execDownBegin rq cause s
  | .downEnd rq => Sys2Proof.Machine.execDownEnd rq s
  | .additive rq kind units => Sys2Proof.Machine.execAdditive rq kind units s
  | .statementRead rq part => Sys2Proof.Machine.execStatementRead rq part s
  | .jobClose rq mode => Sys2Proof.Machine.execJobClose rq mode s
  | .jobClear rq => Sys2Proof.Machine.execJobClear rq s
  | .alarmAck rq condition => Sys2Proof.Machine.execAlarmAck rq condition s
  | .settleExpiry => Sys2Proof.Machine.execSettleExpiry s
  | .listenWindowEnd => Sys2Proof.Machine.execListenWindowEnd s
  | .thresholdSample channel first second third fourth => Sys2Proof.Machine.execThresholdSample channel first second third fourth s
  | .strokeEdge pump edge now => Sys2Proof.Machine.execStrokeEdge pump edge now s
  | .strokeStoppedExpiry pump => Sys2Proof.Machine.execStrokeStoppedExpiry pump s
  | .startTimerExpiry pump => Sys2Proof.Machine.execStartTimerExpiry pump s
  | .pwmPeriod pump => Sys2Proof.Machine.execPwmPeriod pump s
  | .strokesHoldoffExpiry pump => Sys2Proof.Machine.execStrokesHoldoffExpiry pump s
  | .waterPulse => Sys2Proof.Machine.execWaterPulse s
  | .balanceEvaluation => Sys2Proof.Machine.execBalanceEvaluation s
  | .encoderCount up => Sys2Proof.Machine.execEncoderCount up s
  | .topLimit level => Sys2Proof.Machine.execTopLimit level s
  | .rotationPulse now => Sys2Proof.Machine.execRotationPulse now s
  | .rotationIdleTimeout => Sys2Proof.Machine.execRotationIdleTimeout s
  | .headHoldoffExpiry => Sys2Proof.Machine.execHeadHoldoffExpiry s
  | .clampClosed level => Sys2Proof.Machine.execClampClosed level s
  | .clampOpen level => Sys2Proof.Machine.execClampOpen level s
  | .slotCode code => Sys2Proof.Machine.execSlotCode code s
  | .rodPresented level => Sys2Proof.Machine.execRodPresented level s
  | .gripped level => Sys2Proof.Machine.execGripped level s
  | .slotOccupied level => Sys2Proof.Machine.execSlotOccupied level s
  | .stepTimerExpiry => Sys2Proof.Machine.execStepTimerExpiry s
  | .spinDoneInput level => Sys2Proof.Machine.execSpinDoneInput level s
  | .spinTimerExpiry => Sys2Proof.Machine.execSpinTimerExpiry s
  | .jobSecond => Sys2Proof.Machine.execJobSecond s
  | .lineBusy => Sys2Proof.Machine.execLineBusy s
  | .stopBitMissing => Sys2Proof.Machine.execStopBitMissing s
  | .backupSupplyExhausted => Sys2Proof.Machine.execBackupSupplyExhausted s

end Sys2Proof.Machine
end

