-- ==== Sys2Proof/WellFormed.lean ====
section
/-! DEFINITION. Which commands a sender can spell: operands in the ranges the manual gives them. The meanings
are defined on every operand all the same. -/

namespace Sys2Proof

/-- A station number (R19). -/
def stationNumber (n : Nat) : Bool := decide (1 ≤ n) && decide (n ≤ 30)

/-- The straps as pins give them: five of station number (section 11.7). -/
def Straps.wf (p : Straps) : Bool := decide (p.number ≤ 31)

/-- A request comes from a station. -/
def ReqHead.wf (h : ReqHead) : Bool := stationNumber h.source

/-- The step an analogue input stands in (R45). -/
def inputStep (n : Nat) : Bool := decide (n ≤ 15)

/-- The operands of a command are in range. -/
def Instr.wf : Instr → Bool
  | .powerStart straps => straps.wf
  | .pinStart straps => straps.wf
  | .resetAssert _ => true
  | .supplyLoss _ => true
  | .lineQuiet _ => true
  | .frameReceived bytes => decide (8 ≤ bytes.length) && decide (bytes.length ≤ 48)
  | .accessDelayExpiry => true
  | .deferral => true
  | .collision => true
  | .frameSent => true
  | .rodEventJoin => true
  | .lineStuck => true
  | .statusPeriodExpiry => true
  | .unknownRequest rq code => rq.wf && !(decide (1 ≤ code.toNat) && decide (code.toNat ≤ 24))
  | .requestEntry _ => true
  | .answerTimeout _ => true
  | .peerStale station => stationNumber station
  | .identify rq => rq.wf
  | .configSet rq _ _ _ _ => rq.wf
  | .configLock rq => rq.wf
  | .statusRead rq _ => rq.wf
  | .faultClear rq => rq.wf
  | .claimClear rq _ => rq.wf
  | .pumpRate rq _ _ => rq.wf
  | .rackLoad rq _ _ => rq.wf
  | .rackUnload rq _ => rq.wf
  | .stringRead rq _ => rq.wf
  | .rodOp rq _ _ => rq.wf
  | .rodAbort rq => rq.wf
  | .rodResume rq => rq.wf
  | .rodConfirm rq _ _ _ _ => rq.wf
  | .spin rq _ => rq.wf
  | .describe rq _ _ _ _ => rq.wf
  | .recordRead rq _ _ => rq.wf
  | .downBegin rq _ => rq.wf
  | .downEnd rq => rq.wf
  | .additive rq _ _ => rq.wf
  | .statementRead rq _ => rq.wf
  | .jobClose rq _ => rq.wf
  | .jobClear rq => rq.wf
  | .alarmAck rq _ => rq.wf
  | .settleExpiry => true
  | .listenWindowEnd => true
  | .thresholdSample _ a b c d => inputStep a && inputStep b && inputStep c && inputStep d
  | .strokeEdge _ _ _ => true
  | .strokeStoppedExpiry _ => true
  | .startTimerExpiry _ => true
  | .pwmPeriod _ => true
  | .strokesHoldoffExpiry _ => true
  | .waterPulse => true
  | .balanceEvaluation => true
  | .encoderCount _ => true
  | .topLimit _ => true
  | .rotationPulse _ => true
  | .rotationIdleTimeout => true
  | .headHoldoffExpiry => true
  | .clampClosed _ => true
  | .clampOpen _ => true
  | .slotCode code => decide (code ≤ 63)
  | .rodPresented _ => true
  | .gripped _ => true
  | .slotOccupied _ => true
  | .stepTimerExpiry => true
  | .spinDoneInput _ => true
  | .spinTimerExpiry => true
  | .jobSecond => true
  | .lineBusy => true
  | .stopBitMissing => true
  | .backupSupplyExhausted => true

end Sys2Proof
end

