-- ==== Sys2Proof/Safety.lean ====
section
/-! DEFINITION. What a sound station is, in the terms the statements use: the invariants every step keeps, and what it
means that a step changes the named parts of the station and nothing else. -/

namespace Sys2Proof.Machine

/-! ## Invariants -/

/-- In RUN every active flag stands as its condition does (R166, R167). -/
def State.AlarmsSettled (s : State) : Prop := s.inRun = true → ∀ c, s.alarm.isActive c = s.alarmCond c

/-- The field outputs stand as the blocks drive them, and are de-asserted outside RUN (R19, R22). -/
def State.OutputsAgree (s : State) : Prop := s.outs = s.outputsNow

/-- While the station runs, the newest good image holds the retained state (R20). -/
def State.ImagesAgree (s : State) : Prop := s.powered = true → s.retainedImage = some s.ret

/-- A station in RUN reads a good station number from its straps (R19). -/
def State.NumberGood (s : State) : Prop := s.powered = true → 1 ≤ s.straps.number ∧ s.straps.number ≤ 30

/-- The invariants together. -/
structure State.Sound (s : State) : Prop where
  alarms : s.AlarmsSettled
  outputs : s.OutputsAgree
  images : s.ImagesAgree
  number : s.NumberGood

/-- While the claim view holds a claim no pump is STARTING or RUNNING, and a duty above 0 is staged in those states
only (R57); in CONFIG neither pump is in them (R22). -/
structure State.PumpsYield (s : State) : Prop where
  driven : ∀ p, 0 < (s.chan p).staged → (s.chan p).state = .starting ∨ (s.chan p).state = .running
  yields : s.viewHolds = true ∨ s.mode = .config → ∀ p, (s.chan p).state ≠ .starting ∧ (s.chan p).state ≠ .running

/-- The retained state and the two copies of it that the images hold (R20). -/
def State.records (s : State) : List Retained := [s.ret, s.first.content, s.second.content]

/-- The eight meters sum to the job time where a RECORD station was locked, and count nothing elsewhere (R148). -/
def Retained.Metered (r : Retained) : Prop :=
  r.meters.length = 8 ∧ r.meters.sum = if r.recorded.any (·.roles.record) then r.jobTime else 0

/-- Every copy of the retained state is metered; in RUN the straps are those recorded (R21, R27, R148). -/
structure State.Metered (s : State) : Prop where
  records : ∀ r ∈ s.records, r.Metered
  straps : s.mode = .run → s.ret.recorded = some ⟨s.straps.number, s.roles, s.isPit⟩

/-- The lag queue has its room and its order (R134); a new tag's mark and depth will not be below those in it. The
string list has its room (R93). -/
structure State.LagInOrder (s : State) : Prop where
  room : s.ret.lag.length ≤ 32
  order : s.ret.lag.Pairwise fun a b => a.mark ≤ b.mark
  marks : ∀ t ∈ s.ret.lag, t.mark ≤ min top48 (s.ret.pumped + s.annVol t.depth)
  depths : ∀ t ∈ s.ret.lag, ∀ iv, s.openInterval = some iv → t.depth ≤ iv.index * s.cfg Item.intervalLength 0
  pumped : s.ret.pumped ≤ top48
  string : s.ret.string.length ≤ 128

/-- Every copy of the retained state has its lag queue in order; in CONFIG the queue is empty (R85, R145). -/
structure State.LagsInOrder (s : State) : Prop where
  records : ∀ r ∈ s.records, ({ s with ret := r } : State).LagInOrder
  config : s.mode = .config → s.ret.lag = []

/-! ## Frames -/

/-- The parts of the station a command may change. The fields not named here (queue, mode, straps and start
cause) are changed by no command of a running station but JOB_CLEAR and CONFIG_LOCK. -/
inductive Part where
  | clock
  | pins
  | ret
  | link
  | peers
  | claims
  | thresholds
  | pumps
  | circ
  | depth
  | rod
  | seq
  | spin
  | strata
  | billing
  | alarm
  deriving DecidableEq, Repr

/-- What a change of the retained state does to the images (R20): it is written to the image that does not
hold the newest good state, with the next number, and the other image is untouched; without a change neither
image is touched. -/
def ImagesFollow (s t : State) : Prop :=
  if t.ret = s.ret then t.first = s.first ∧ t.second = s.second
  else if newestGood s.first s.second = some .first then
    t.first = s.first ∧ t.second = .written t.ret ((s.first.number + 1) % 65536)
  else t.second = s.second ∧ t.first = .written t.ret ((s.second.number + 1) % 65536)

/-- `t` has the queue, the mode, the straps, the start cause and every part not listed from `s`. -/
structure LeavesOther (parts : List Part) (s t : State) : Prop where
  pending : t.pending = s.pending
  mode : t.mode = s.mode
  straps : t.straps = s.straps
  startKind : t.startKind = s.startKind
  startSource : t.startSource = s.startSource
  clock : Part.clock ∉ parts → t.clockMs = s.clockMs
  pins : Part.pins ∉ parts → t.pins = s.pins
  ret : Part.ret ∉ parts → t.ret = s.ret
  link : Part.link ∉ parts → t.link = s.link
  peers : Part.peers ∉ parts → t.peers = s.peers
  claims : Part.claims ∉ parts → t.claims = s.claims
  thresholds : Part.thresholds ∉ parts → t.thresholds = s.thresholds
  pumps : Part.pumps ∉ parts → t.pumps = s.pumps
  circ : Part.circ ∉ parts → t.circ = s.circ
  depth : Part.depth ∉ parts → t.depth = s.depth
  rod : Part.rod ∉ parts → t.rod = s.rod
  seq : Part.seq ∉ parts → t.seq = s.seq
  spin : Part.spin ∉ parts → t.spin = s.spin
  strata : Part.strata ∉ parts → t.strata = s.strata
  billing : Part.billing ∉ parts → t.billing = s.billing
  alarm : Part.alarm ∉ parts → t.alarm = s.alarm

/-- `t` differs from `s` in the listed parts only, but for the images, which follow the retained state, and
the outputs, which follow the blocks. -/
structure ChangesOnly (parts : List Part) (s t : State) : Prop where
  other : LeavesOther parts s t
  images : ImagesFollow s t
  outs : t.outs = t.outputsNow

/-- `t` is `w`, the state a command taken at `s` makes, but for the listed parts, the images, which follow the
retained state, and the outputs, which follow the blocks. With no part listed it is `w` whole. -/
structure Leaves (parts : List Part) (s w t : State) : Prop where
  other : LeavesOther parts w t
  images : ImagesFollow s t
  outs : t.outs = t.outputsNow

/-- `t` is `w` once the alarm unit has followed (R166): but for the alarm flags and the ALARM frames handed to
the link unit nothing else has changed. -/
structure Settles (s w t : State) : Prop where
  rest : Leaves [.alarm, .link] s w t
  alarm : t.alarm = w.alarmsFollow.alarm
  link : t.link = w.alarmsFollow.link

/-! ## Frames on the line -/

/-- A good frame of another station that is for this one ends on the line (R1, R6, R11). -/
structure State.Hears (s : State) (bytes : List Byte) (f : RxFrame) : Prop where
  powered : s.powered = true
  busy : s.link.lineBusy = true
  listening : s.link.sending = false
  receiving : s.link.rx = .idle ∨ s.link.rx = .gathering
  good : decodeFrame bytes = some f
  other : f.source ≠ s.straps.number
  handed : f.dest = s.straps.number ∨ f.dest = 31

/-- The entry of a station in the peer table, and the only one (R14). -/
def State.Knows (s : State) (station : Nat) (p : PeerEntry) : Prop :=
  s.peer? station = some p ∧ ∀ q ∈ s.peers, q.station = station → q = p

/-! ## Frames in the link unit -/

/-- A frame waits to be sent in RIG or URGENT or outside them (R9), or is in hand. -/
def Link.Holds (l : Link) (f : TxFrame) : Prop :=
  f ∈ l.rodWait ∨ f ∈ l.urgent ∨ f ∈ l.rig ∨ ∃ h, l.inHand = some h ∧ h.frame = f

/-- Two frames more find room in RIG and in URGENT, and no ROD_EVENT frame waits outside a full queue (R8, R9). -/
def Link.Roomy (l : Link) : Prop := l.rodWait = [] ∧ l.count .rig + 1 < 16 ∧ l.count .urgent + 1 < 8

/-- `t` has `r` as its retained state, but for the own claim, the unit and the maintained outputs, and for H with the
intervals it closes. -/
def State.Keeps (t : State) (r : Retained) : Prop :=
  t.ret = { r with
    claim := t.ret.claim
    unit := t.ret.unit
    clampOut := t.ret.clampOut
    gripOut := t.ret.gripOut
    hole := t.ret.hole
    intervals := t.ret.intervals
    lag := t.ret.lag
    closedFootage := t.ret.closedFootage
    sumProvisional := t.ret.sumProvisional
    sumCurrent := t.ret.sumCurrent }

/-! ## Starts -/

/-- The command of a start of a source (section 2.1). -/
def startCommand (straps : Straps) : StartSource → Instr
  | .power => .powerStart straps
  | .pin => .pinStart straps

/-! ## Contents a payload can carry (sections 11.2 and 11.3) -/

/-- Target spm up to 150 and measured spm up to 255 fit their bytes; 255 is the target's absent code. -/
def PumpSummary.Fits (p : PumpSummary) : Prop := p.target < 255 ∧ p.spm < 256

/-- Each field is in its range, and each field that is absent in some states is so in those and no others
(section 11.2). -/
structure StatusMsg.Fits (m : StatusMsg) : Prop where
  digest : m.digest < 65536
  pumps : m.pumpA.Fits ∧ m.pumpB.Fits
  lastOp : ∀ o, m.lastOp = some o →
    o.requester.isSome = o.queued.isSome ∧ (∀ r, o.requester = some r → r < 31) ∧
      ∀ q, o.queued = some q → q < 4294967296
  balance : ∀ b, m.balance = some b →
    (∀ r, b.ret = some r → r < 31) ∧ b.lost < 4294967296 ∧ b.gained < 4294967296
  step : (m.seq = .idle → m.step = none) ∧ (m.seq ≠ .idle → m.seq ≠ .hold → m.step.isSome = true) ∧
    ∀ n, m.step = some n → n < 15
  unitKind : m.unitKind.isSome = m.step.isSome
  cause : m.cause.isSome = true ↔ m.seq = .hold ∨ m.seq = .fault
  entries : m.entries < 15 ∧ (m.headEntry = none ↔ m.entries = 0)
  headEntry : ∀ e, m.headEntry = some e → e.count < 63 ∧ e.requester < 31
  string : m.eventNo < 65536 ∧ m.stringCount < 255 ∧ m.stringLength < 2097151
  water : m.water < 4294967296
  alarms : m.active < 32768 ∧ m.pending < 32768

def StrokesMsg.Fits (m : StrokesMsg) : Prop := m.count < 4294967296 ∧ m.volume < 65535 ∧ m.spm < 256

/-- The spin kind is absent at IDLE, and only there. -/
structure HeadMsg.Fits (m : HeadMsg) : Prop where
  position : m.h < 65535
  turns : m.turns < 4294967296 ∧ m.spinTurns < 4294967296
  bytes : m.rpm < 255 ∧ m.number < 256
  owner : ∀ k, m.owner = some k → k < 31
  kind : m.kind = none ↔ m.spin = .idle

/-- A place stands in a CONFIRMED event only, and there with every rod (section 11.3). -/
structure RodEventMsg.Fits (m : RodEventMsg) : Prop where
  number : m.number < 65536
  rod : ∀ r, m.rod = some r → r < 65535
  slot : ∀ k, m.slot = some k → k < 255
  place : (m.kind ≠ .confirmed → m.place = none) ∧ (m.kind = .confirmed → m.rod.isSome = true → m.place.isSome = true)
  present : eventFieldsPresent m.kind m.rod m.slot m.place = true
  string : m.count < 255 ∧ m.length < 16777215

/-! ## Requests -/

/-- The request waits at the head of the intake queue, or the queue is empty and the station takes it in
(R4, R12): it is served now (log 7). -/
def State.Serves (s : State) (r : Request) : Prop :=
  s.powered = true ∧
    ((s.link.intake = [] ∧ (r.toAll = true ∨ s.link.listenOnly = false)) ∨ ∃ rest, s.link.intake = r :: rest)

/-- The station once the request at the head of its intake queue is taken out. -/
def State.taken (s : State) : State := { s with link := s.link.popIntake }

/-- The station `w` once the answer to a request is handed to a queue (R12, R173). -/
def State.replied (w : State) (q : QueueId) (rq : ReqHead) (code : ResultCode) (data : List Byte) : State :=
  w.answer q (requestOf rq 0 []) code data

/-- A request a command presents: its head, code and argument bytes, the queue its answer takes, the role it
needs and whether CONFIG serves it (R12, R22, section 11.4). -/
structure Ask where
  rq : ReqHead
  code : Nat
  args : List Byte
  queue : QueueId
  role : Straps → Bool
  inConfig : Bool

def Ask.request (a : Ask) : Request := requestOf a.rq a.code a.args

/-- Any station serves it. -/
abbrev anyRole : Straps → Bool := fun _ => true

end Sys2Proof.Machine

namespace Sys2Proof

open Machine

/-- The station number of straps is one a station may have (R19). -/
def Straps.goodNumber (p : Straps) : Prop := 1 ≤ p.number ∧ p.number ≤ 30

/-- What CONFIG_LOCK records of the straps (R27): number, roles, and the pit station flag, which needs PUMP
(R19). -/
def Straps.recorded (p : Straps) : Recorded :=
  ⟨p.number, ⟨p.pump, p.head, p.rod, p.record⟩, p.pump && p.pitSensor⟩

/-- The request of a request command with a code of section 11.4. -/
def Instr.ask? : Instr → Option Ask
  | .identify rq => some ⟨rq, identifyCode, [], .exchange, anyRole, true⟩
  | .configSet rq _ item index value =>
    some ⟨rq, configSetCode, [item, index] ++ leBytes 4 value.toNat, .exchange, anyRole, true⟩
  | .configLock rq => some ⟨rq, configLockCode, [], .exchange, anyRole, true⟩
  | .statusRead rq part => some ⟨rq, statusReadCode, [part], .exchange, anyRole, true⟩
  | .faultClear rq => some ⟨rq, faultClearCode, [], .exchange, anyRole, true⟩
  | .claimClear rq station => some ⟨rq, claimClearCode, [station], .exchange, anyRole, false⟩
  | .pumpRate rq pump rate => some ⟨rq, pumpRateCode, [pump, rate], .exchange, Straps.pump, false⟩
  | .rackLoad rq slot rod =>
    some ⟨rq, rackLoadCode, [slot] ++ leBytes 2 rod.toNat, .exchange, Straps.rod, false⟩
  | .rackUnload rq slot => some ⟨rq, rackUnloadCode, [slot], .exchange, Straps.rod, false⟩
  | .stringRead rq page => some ⟨rq, stringReadCode, [page], .exchange, Straps.rod, false⟩
  | .rodOp rq kind count => some ⟨rq, rodOpCode, [kind, count], .exchange, Straps.rod, false⟩
  | .rodAbort rq => some ⟨rq, rodAbortCode, [], .exchange, Straps.rod, false⟩
  | .rodResume rq => some ⟨rq, rodResumeCode, [], .exchange, Straps.rod, false⟩
  | .rodConfirm rq rod place slot hold =>
    some ⟨rq, rodConfirmCode, leBytes 2 rod.toNat ++ [place, slot, hold], .exchange, Straps.rod, false⟩
  | .spin rq kind => some ⟨rq, spinCode, [kind], .exchange, Straps.head, false⟩
  | .describe rq interval lithology cls source =>
    some ⟨rq, describeCode, leBytes 2 interval.toNat ++ [lithology, cls, source], .exchange, Straps.record, false⟩
  | .recordRead rq selector index =>
    some ⟨rq, recordReadCode, [selector] ++ leBytes 2 index.toNat, .bulk, Straps.record, false⟩
  | .downBegin rq cause => some ⟨rq, downBeginCode, [cause], .exchange, Straps.record, false⟩
  | .downEnd rq => some ⟨rq, downEndCode, [], .exchange, Straps.record, false⟩
  | .additive rq kind units =>
    some ⟨rq, additiveCode, [kind] ++ leBytes 2 units.toNat, .exchange, Straps.record, false⟩
  | .statementRead rq part => some ⟨rq, statementReadCode, [part], .bulk, Straps.record, false⟩
  | .jobClose rq mode => some ⟨rq, jobCloseCode, [mode], .exchange, anyRole, false⟩
  | .jobClear rq => some ⟨rq, jobClearCode, [], .exchange, anyRole, false⟩
  | .alarmAck rq condition => some ⟨rq, alarmAckCode, [condition], .exchange, anyRole, true⟩
  | .powerStart _ => none
  | .pinStart _ => none
  | .resetAssert _ => none
  | .supplyLoss _ => none
  | .lineQuiet _ => none
  | .frameReceived _ => none
  | .accessDelayExpiry => none
  | .deferral => none
  | .collision => none
  | .frameSent => none
  | .rodEventJoin => none
  | .lineStuck => none
  | .statusPeriodExpiry => none
  | .unknownRequest _ _ => none
  | .requestEntry _ => none
  | .answerTimeout _ => none
  | .peerStale _ => none
  | .settleExpiry => none
  | .listenWindowEnd => none
  | .thresholdSample _ _ _ _ _ => none
  | .strokeEdge _ _ _ => none
  | .strokeStoppedExpiry _ => none
  | .startTimerExpiry _ => none
  | .pwmPeriod _ => none
  | .strokesHoldoffExpiry _ => none
  | .waterPulse => none
  | .balanceEvaluation => none
  | .encoderCount _ => none
  | .topLimit _ => none
  | .rotationPulse _ => none
  | .rotationIdleTimeout => none
  | .headHoldoffExpiry => none
  | .clampClosed _ => none
  | .clampOpen _ => none
  | .slotCode _ => none
  | .rodPresented _ => none
  | .gripped _ => none
  | .slotOccupied _ => none
  | .stepTimerExpiry => none
  | .spinDoneInput _ => none
  | .spinTimerExpiry => none
  | .jobSecond => none
  | .lineBusy => none
  | .stopBitMissing => none
  | .backupSupplyExhausted => none

/-- The commands of the supply and the reset line (R19 to R21). -/
def Instr.isSupply : Instr → Bool
  | .powerStart _ => true
  | .pinStart _ => true
  | .resetAssert _ => true
  | .supplyLoss _ => true
  | _ => false

end Sys2Proof
end

