-- ==== Sys2Proof/Certificates/Slice0/Obligations.lean ====
section
/-! DEFINITION. The statements for the provers, about every state and operand unless they say otherwise. A
statement about a command's effect has the next state as its conclusion: `Leaves parts s w t` says that `t` is
the state `w` written out in the statement, but for the listed parts, the images and the outputs; `Settles s w t`
says the same with the alarm flags and ALARM frames that follow. -/

open Sys2Proof Sys2Proof.Machine Host

/-! ## The machine -/

/-- A step runs the command at the front of the queue with the queue's rest; on an empty queue the station idles
(the model's choice, logs 5 and 6: the manual has no queue). -/
def Obligations.StepRunsFrontCommand : Prop :=
  ∀ s : State,
    (s.pending = [] → step s = .next s) ∧
    ∀ (c : Instr) (rest : List Instr), s.pending = c :: rest → step s = exec c { s with pending := rest }

/-- No command stops the machine: each answers a next state, and the queue of waiting commands is left to the
step (the model's choice of queue, log 5). -/
def Obligations.EveryCommandCompletes : Prop :=
  ∀ (c : Instr) (s : State), ∃ t, exec c s = .next t ∧ t.pending = s.pending

/-- At the end of every step of a station in RUN each active flag stands as its condition does (R166, R167; when
within the step it is set is the model's choice, log 14). -/
def Obligations.StepKeepsAlarmsSettled : Prop :=
  ∀ s t : State, s.AlarmsSettled → step s = .next t → t.AlarmsSettled

/-- The field outputs stand as the blocks drive them and are de-asserted outside RUN (R19, R22), and a station that
runs has a station number of 1 to 30 (R19). -/
def Obligations.StepKeepsOutputsAndNumber : Prop :=
  ∀ s t : State, step s = .next t →
    (s.OutputsAgree → t.OutputsAgree ∧ (t.mode ≠ .run → t.outs = Outputs.off)) ∧ (s.NumberGood → t.NumberGood)

/-- While the station runs, the good image with the greater number holds the retained state (R20). -/
def Obligations.StepKeepsImagesAgree : Prop :=
  ∀ s t : State, s.ImagesAgree → step s = .next t → t.ImagesAgree

/-- No pump STARTING or RUNNING, and no duty above 0 staged, while the claim view holds a claim (R57). -/
def Obligations.StepKeepsPumpsYielding : Prop :=
  ∀ s t : State, s.PumpsYield → step s = .next t →
    t.PumpsYield ∧
      (t.viewHolds = true → ∀ p, (t.chan p).state ≠ .starting ∧ (t.chan p).state ≠ .running ∧ (t.chan p).staged = 0)

/-- The eight activity meters of a RECORD station sum to its job time (R148), in the retained state and in both of
its images. -/
def Obligations.StepKeepsMetersSummed : Prop :=
  ∀ s t : State, s.Metered → step s = .next t →
    t.Metered ∧ (t.mode = .run → t.straps.record = true → t.ret.meters.sum = t.ret.jobTime)

/-- The lag queue holds at most 32 tags in non-decreasing order of volume mark (R134) and the string list at most
128 rods (R93), in the retained state and in both of its images. -/
def Obligations.StepKeepsTheLagQueueInOrder : Prop :=
  ∀ s t : State, s.LagsInOrder → step s = .next t →
    t.LagsInOrder ∧ t.ret.lag.length ≤ 32 ∧ (t.ret.lag.Pairwise fun a b => a.mark ≤ b.mark) ∧ t.ret.string.length ≤ 128

/-- The station before its first start is sound, has no command waiting and drives nothing
(no supply before the first start: the model's choice, log 1). -/
def Obligations.ResetIsSound : Prop :=
  State.reset.Sound ∧ State.reset.PumpsYield ∧ State.reset.Metered ∧ State.reset.LagsInOrder ∧
    State.reset.pending = [] ∧ State.reset.outs = Outputs.off ∧ State.reset.mode = .off

/-- In RUN no command but those of the supply, the reset line and JOB_CLEAR takes the station out of RUN, changes
its straps or its start cause, brings it out of LISTEN_ONLY (R4), or takes H (R94), V (R65), the job time (R147) or
the job state (R146) back. -/
def Obligations.RunGoesOnward : Prop :=
  ∀ (c : Instr) (s t : State), s.mode = .run → c.isSupply = false → (∀ rq, c ≠ .jobClear rq) →
    exec c s = .next t →
      t.mode = .run ∧ t.straps = s.straps ∧ t.startKind = s.startKind ∧ t.startSource = s.startSource ∧
      (s.link.listenOnly = true → t.link.listenOnly = true) ∧
      s.ret.hole ≤ t.ret.hole ∧
      (s.ret.pumped ≤ top48 → s.ret.pumped ≤ t.ret.pumped) ∧
      s.ret.jobTime ≤ t.ret.jobTime ∧
      s.ret.job.code ≤ t.ret.job.code

/-! ## Starts and losses of supply -/

/-- A station number of 0 or 31, and straps other than those recorded for a retained job, put the station in
START_FAULT with retained memory left as it is (R19, R21). With good straps and no retained image, or one with job
state NONE, a start is COLD: both images take the COLD defaults with numbers 0 and 1, every other state its start
value, the status period runs at 250 ms, and the station is in CONFIG (R18, R21). The hold record before a lock, the
effective stroke volume and the pressure limit 0 before a lock, the captured period 0 before the first capture, and
that POWER_START starts the station whatever state it stood in are the model's choice (logs 2, 31, 47 and 34). -/
def Obligations.StartWithoutAJob : Prop :=
  ∀ (src : StartSource) (straps : Straps) (s : State), (src = .pin → s.mode ≠ .off) →
    ((¬straps.goodNumber ∨
        ∃ r, s.retainedImage = some r ∧ r.job ≠ .noJob ∧ r.recorded ≠ some straps.recorded) →
      ∃ t, exec (startCommand straps src) s = .next t ∧
        t.mode = .startFault ∧ t.straps = straps ∧ t.outs = Outputs.off ∧
        t.first = s.first ∧ t.second = s.second ∧ t.pins = s.pins ∧ t.pending = s.pending) ∧
    (straps.goodNumber → (∀ r, s.retainedImage = some r → r.job = .noJob) →
      ∃ t, exec (startCommand straps src) s = .next t ∧
        t.mode = .config ∧ t.straps = straps ∧ t.startKind = .cold ∧ t.startSource = src ∧
        t.outs = Outputs.off ∧ t.pins = s.pins ∧ t.pending = s.pending ∧
        t.first = .written t.ret 0 ∧ t.second = .written t.ret 1 ∧ t.first.good = true ∧ t.second.good = true ∧
        t.ret = Retained.cold ∧ t.ret.job = .noJob ∧ (∀ code i, itemGet t.ret.items code i = coldValue code i) ∧
        t.link = { Link.start with statusTimer := some 250 } ∧
        t.peers = [] ∧ t.claims = ClaimUnit.start ∧ t.thresholds = ⟨.start, .start, .start⟩ ∧
        t.pumps = ⟨.start, .start⟩ ∧
        t.circ = { CircUnit.start with
          heardSource := if straps.pump = true ∧ straps.pitSensor = true then some straps.number else none } ∧
        t.depth = DepthUnit.start ∧ t.rod = RodUnit.start ∧ t.seq = Sequencer.start ∧ t.spin = SpinService.start ∧
        t.strata = ⟨[]⟩ ∧ t.billing = ⟨none, false, false⟩ ∧ t.alarm = ⟨0, 0⟩)

/-- With a retained image of a job and the straps recorded in it, a start is WARM (R21): the station is in RUN with
its records as the image holds them (H among them: log 19), a balance that is SUSPENDED, a listen window running,
and the sequencer and the own claim by R43 and R125 (a dropped unit's record: log 26; the marks of an abort are
forgotten: log 22). While the job runs at a RECORD station every open zone is closed, a POWER_GAP mark is appended and
the open interval marked (R144); a close under way goes on, and is complete at once where nothing is left to wait for (R159, R161, R165). -/
def Obligations.WarmStartResumesTheJob : Prop :=
  ∀ (src : StartSource) (straps : Straps) (s : State) (r : Retained), (src = .pin → s.mode ≠ .off) →
    straps.goodNumber → s.retainedImage = some r → r.job ≠ .noJob → r.recorded = some straps.recorded →
    let live := straps.record = true ∧ (r.job = .opened ∨ r.job = .closing)
    let completes := r.job = .closing ∧ (straps.record = true → r.lag = [])
    let entered := fun (z : ZoneEntry) (l : List ZoneEntry × Nat) =>
      if l.1.length < 96 then (l.1 ++ [z], l.2) else (l.1, min 65535 (l.2 + 1))
    let closed := r.zones.map fun z =>
      match z with
      | .zone k top none opened _ v => ZoneEntry.zone k top (some r.hole) opened (some r.jobTime) v
      | z => z
    let gapped := entered (.mark .powerGap r.hole r.jobTime (if src = .power then 0 else 1)) (closed, r.unrecorded)
    ∃ t, exec (startCommand straps src) s = .next t ∧
      t.mode = .run ∧ t.straps = straps ∧ t.startKind = .warm ∧ t.startSource = src ∧
      t.pins = s.pins ∧ t.pending = s.pending ∧
      t.ret.items = r.items ∧ t.ret.digest = r.digest ∧ t.ret.recorded = r.recorded ∧
      t.ret.strokesA = r.strokesA ∧ t.ret.strokesB = r.strokesB ∧ t.ret.pumped = r.pumped ∧
      t.ret.water = r.water ∧ t.ret.lost = r.lost ∧ t.ret.gained = r.gained ∧
      t.ret.balState = .suspended ∧ t.ret.reference = none ∧
      t.ret.turns = r.turns ∧ t.ret.spinTurns = r.spinTurns ∧ t.ret.hole = r.hole ∧
      t.ret.rods = r.rods ∧ t.ret.string = r.string ∧ t.ret.hold = r.hold ∧ t.ret.eventNo = r.eventNo ∧
      t.ret.carousel = r.carousel ∧ t.ret.clampOut = r.clampOut ∧ t.ret.gripOut = r.gripOut ∧
      t.ret.lag = r.lag ∧ t.ret.jobTime = r.jobTime ∧ t.ret.meters = r.meters ∧ t.ret.unsure = r.unsure ∧
      t.ret.down = r.down ∧ t.ret.units = r.units ∧ t.ret.billedWater = r.billedWater ∧
      t.ret.retirements = r.retirements ∧
      t.ret.adjustments = r.adjustments ∧ t.ret.droppedAdj = r.droppedAdj ∧ t.ret.closedFootage = r.closedFootage ∧
      t.ret.sumProvisional = r.sumProvisional ∧ t.ret.sumCurrent = r.sumCurrent ∧ t.ret.additions = r.additions ∧
      t.ret.reductions = r.reductions ∧ t.ret.closingSeconds = r.closingSeconds ∧
      (¬completes → t.ret.job = r.job ∧ t.ret.close = r.close ∧ t.ret.closeKind = r.closeKind ∧
        t.ret.frozen = r.frozen) ∧
      (completes → t.ret.job = .closed ∧ t.ret.close = .complete ∧
        t.ret.closeKind = (if straps.record then r.closeKind else some .normal) ∧
        (straps.record = true → t.ret.frozen.isSome = true)) ∧
      (t.billing.jobTimer = if t.ret.job = .closed then none else some 1000) ∧
      (¬live → t.ret.intervals = r.intervals ∧ t.ret.zones = r.zones ∧ t.ret.unrecorded = r.unrecorded) ∧
      (live →
        (t.ret.zones, t.ret.unrecorded) =
          (if completes then entered (.mark .close r.hole r.jobTime 0) gapped else gapped) ∧
        t.ret.intervals = r.intervals.map fun iv =>
          if ∃ op, r.intervals.getLast? = some op ∧ op.closedTime = none ∧ iv.index = op.index then
            { iv with flags := { iv.flags with
                afterWarm := true
                depthUnsure := iv.flags.depthUnsure || !straps.rod || t.depth.bitDepth.isNone } }
          else iv) ∧
      t.peers = [] ∧ t.link.intake = [] ∧ t.link.outstanding = [] ∧ t.link.ownSeq = 0 ∧
      t.link.statusTimer = some (itemGet r.items Item.statusPeriod 0) ∧
      t.claims.listen = some (3 * itemGet r.items Item.statusPeriod 0) ∧ t.claims.settle = none ∧
      (r.claim.phase = .active → r.unit.isSome = true →
        t.ret.claim = r.claim ∧ t.ret.unit = r.unit ∧ t.seq.state = .hold .interrupted ∧
        t.claims.takeRequest = true) ∧
      (r.claim.phase ≠ .active ∨ r.unit = none →
        t.ret.claim = Claim.absent ∧ t.ret.unit = none ∧ t.seq.state = .idle ∧ t.claims.takeRequest = false) ∧
      (∀ u, r.claim.phase ≠ .active → r.unit = some u →
        t.seq.lastOp = some ⟨u.kind, .dropped, none, none⟩)

/-- The reset line and the loss of supply stop the station with its outputs de-asserted and its pumps' duties 0
(R19, R51); an image that was being written then fails its check and the other stays good; without main supply the
end of the backup supply makes both fail (R20). That the commands say whether an image was torn, that of a COLD start's two
writes only the second can be, and that the reset line does nothing without main supply, are the model's choice (logs
11, 73 and 34); what stands in the rest of a
stopped station is log 33. No command but those of the supply and the reset line changes more of a stopped station
than the level of an input pin (logs 8 and 33). -/
def Obligations.StoppedStationDoesNothing : Prop :=
  (∀ s : State,
    (∀ (torn : Bool) (reset : Bool), (reset = true → s.mode ≠ .off) →
      ∃ t, exec (if reset then .resetAssert torn else .supplyLoss torn) s = .next t ∧
        t.mode = (if reset then Mode.resetHeld else Mode.off) ∧ t.outs = Outputs.off ∧ t.ret = s.ret ∧
        (∀ p, t.chan p = { s.chan p with applied := 0, staged := 0, high := 0 }) ∧
        (∀ id, (if id = .first then t.first else t.second) =
          let image := if id = .first then s.first else s.second
          if torn = true ∧ s.lastWrite = some id then image.failed else image) ∧
        t.pending = s.pending) ∧
    (s.mode = .off → ∀ torn straps,
      exec (.resetAssert torn) s = .next s ∧ exec (.pinStart straps) s = .next s ∧
      exec .backupSupplyExhausted s = .next { s with first := s.first.failed, second := s.second.failed }) ∧
    (s.mode ≠ .off → exec .backupSupplyExhausted s = .next s) ∧
    s.first.failed.good = false ∧ s.second.failed.good = false) ∧
  ∀ (c : Instr) (s : State), s.powered = false → c.isSupply = false → c ≠ .backupSupplyExhausted →
    ∃ t, exec c s = .next t ∧ LeavesOther [.pins] s t ∧ t.outs = s.outs ∧
      t.first = s.first ∧ t.second = s.second

/-! ## The line and the transmitter -/

/-- LINE_QUIET, LINE_BUSY and STOP_BIT_MISSING (R1, R2, R5): what the receiver has gathered is a broken frame when
the line falls QUIET before it is complete, when bytes followed a complete frame, or when a stop bit is missing (the
operand `trailing`, a stop bit with nothing gathered and a start bit on a line that is BUSY already are the model's,
logs 12 and 13); a frame in hand starts its access delay at QUIET, which also ends the line-stuck condition.
ACCESS_DELAY_EXPIRY and FRAME_SENT (R2, R3): that frame begins to be sent and takes the own sequence counter as its
number, unless it has one; sent whole, it leaves, the counter advances, and the arbiter chooses. -/
def Obligations.LineMovesReceiverAndSender : Prop :=
  (∀ s : State, s.powered = true → s.AlarmsSettled →
    (∀ trailing : Bool, s.link.lineBusy = true → s.link.sending = false →
      ∃ t, exec (.lineQuiet trailing) s = .next t ∧
        Leaves [] s
          { s with link := { s.link with
              lineBusy := false
              stuck := false
              rx := .idle
              rxErrors :=
                if s.link.rx = .gathering ∨ s.link.rx = .trailing ∨ (s.link.rx = .complete ∧ trailing = true) then
                  min 255 (s.link.rxErrors + 1)
                else s.link.rxErrors
              inHand := s.link.inHand.map fun h =>
                { h with delay := some ((if h.frame.urgent then 0 else 32) + s.straps.number) } } } t) ∧
    (s.link.lineBusy = false → (∀ h, s.link.inHand = some h → h.delay = none) →
      ∃ t, exec .lineBusy s = .next t ∧
        Leaves [] s { s with link := { s.link with lineBusy := true, rx := .gathering } } t) ∧
    (s.link.lineBusy = true →
      ∃ t, exec .lineBusy s = .next t ∧
        Leaves [] s
          { s with link := { s.link with
              rx := if s.link.sending = false ∧ s.link.rx = .idle then .gathering else s.link.rx } } t) ∧
    (s.link.lineBusy = true → s.link.sending = false →
      ∃ t, exec .stopBitMissing s = .next t ∧
        Leaves [] s
          { s with link := { s.link with
              rx := if s.link.rx = .complete ∨ s.link.rx = .trailing then .trailing else .idle
              rxErrors :=
                if s.link.rx = .complete ∨ s.link.rx = .trailing then s.link.rxErrors
                else min 255 (s.link.rxErrors + 1) } } t)) ∧
  ∀ (s : State) (h : InHand), s.powered = true → s.AlarmsSettled → s.link.inHand = some h →
    (h.delay.isSome = true → s.link.lineBusy = false →
      ∃ t, exec .accessDelayExpiry s = .next t ∧
        Leaves [] s
          { s with link := { s.link with
              lineBusy := true
              inHand := some ⟨h.queue, { h.frame with seq := some (h.frame.seq.getD s.link.ownSeq) }, true, none⟩ } }
          t) ∧
    (h.sending = true →
      ∃ t, exec .frameSent s = .next t ∧
        Leaves [] s
          { s with link :=
            ({ s.link with ownSeq := (s.link.ownSeq + 1) % 256, inHand := none }).arbitrate s.linkEnv } t)

/-- A fault is recorded (R16): the count of its kind rises, saturating at 255, and no other; an unlatched record
latches with the fault's fields; a latched one keeps its fields and sets MORE. LINE_STUCK records one and sets the
line-stuck condition (R5). DEFERRAL, or LINE_BUSY while an access delay runs (R2): one more attempt, and a wait for
QUIET; the 64th attempt drops the frame with the fault ACCESS_DROP, unless *access limit off* is set, and the
arbiter chooses again (that a frame whose attempts passed 64 while the item was set is dropped at its next deferral
once it is clear is the model's choice, log 70). COLLISION, the first or second of a frame (R3, R10): the fault COLLISION is recorded, an
attempt and a collision are counted and the frame waits for QUIET, or at the 64th attempt is dropped as at a
deferral; a waiting URGENT frame goes before a ROUTINE one, whose queue's count
then falls by one (that it falls at a collision too is the model's choice, log 44). -/
def Obligations.LinkFaultsAreRecorded : Prop :=
  (∀ (e : LinkEnv) (kind : FaultKind) (peer : Option Nat) (frame : Option FrameKind) (seqTag : Option Nat) (l : Link),
    let n := fun k old => if k = kind then min 255 (old + 1) else old
    l.record e kind peer frame seqTag =
      { l with
          counts :=
            { collision := n .collision l.counts.collision
              duplicateStation := n .duplicateStation l.counts.duplicateStation
              accessDrop := n .accessDrop l.counts.accessDrop
              lineStuck := n .lineStuck l.counts.lineStuck
              urgentDrop := n .urgentDrop l.counts.urgentDrop
              requestTimeout := n .requestTimeout l.counts.requestTimeout
              configMismatch := n .configMismatch l.counts.configMismatch }
          fault := if l.fault = none then some ⟨kind, peer, frame, seqTag, e.jobTime⟩ else l.fault
          more := if l.fault = none then l.more else true }) ∧
  (∀ s : State, s.powered = true → s.link.lineBusy = true → s.link.sending = false → s.link.stuck = false →
    ∃ t, exec .lineStuck s = .next t ∧
      Settles s
        { s with link := { s.link.record s.linkEnv .lineStuck none none none with stuck := true } } t) ∧
  (∀ (c : Instr) (s : State) (h : InHand), c = .deferral ∨ c = .lineBusy → s.powered = true → s.AlarmsSettled →
    s.link.lineBusy = false → s.link.inHand = some h → h.delay.isSome = true →
    (h.frame.attempts + 1 < 64 ∨ s.cfg Item.accessLimitOff 0 = 1 →
      ∃ t, exec c s = .next t ∧
        Leaves [] s
          { s with link := { s.link with
              lineBusy := true
              rx := .gathering
              inHand := some { h with
                frame := { h.frame with attempts := h.frame.attempts + 1 }, sending := false, delay := none } } }
          t) ∧
    (64 ≤ h.frame.attempts + 1 → s.cfg Item.accessLimitOff 0 ≠ 1 →
      ∃ t, exec c s = .next t ∧
        Settles s
          { s with link :=
            ({ { s.link with lineBusy := true, rx := RxPhase.gathering }.record s.linkEnv .accessDrop none
                (some h.frame.kind)
                (if h.frame.kind = FrameKind.request ∨ h.frame.kind = FrameKind.answer then some (byteAt h.frame.payload 0) else none)
              with inHand := none }).arbitrate s.linkEnv }
          t)) ∧
  (∀ (s : State) (h : InHand), s.powered = true → s.link.inHand = some h → h.sending = true →
    h.frame.collisions < 2 → 64 ≤ h.frame.attempts + 1 → s.cfg Item.accessLimitOff 0 ≠ 1 →
    ∃ t, exec .collision s = .next t ∧
      Settles s
        { s with link :=
          ({ (s.link.record s.linkEnv .collision none (some h.frame.kind) h.frame.seq).record s.linkEnv .accessDrop none
              (some h.frame.kind)
              (if h.frame.kind = FrameKind.request ∨ h.frame.kind = FrameKind.answer then
                some (byteAt h.frame.payload 0) else none)
            with inHand := none }).arbitrate s.linkEnv }
        t) ∧
  ∀ (s : State) (h : InHand), s.powered = true → s.link.inHand = some h → h.sending = true →
    h.frame.collisions < 2 → (h.frame.attempts + 1 < 64 ∨ s.cfg Item.accessLimitOff 0 = 1) →
    ∃ t, exec .collision s = .next t ∧
      Settles s
        { s with link :=
            let again : InHand := ⟨h.queue, { h.frame with
              attempts := h.frame.attempts + 1, collisions := h.frame.collisions + 1 }, false, none⟩
            let l := s.link.record s.linkEnv .collision none (some h.frame.kind) h.frame.seq
            match s.link.urgent with
            | f :: rest =>
              if h.queue = .urgent then { l with inHand := some again }
              else
                { l.setQueue h.queue (again.frame :: s.link.queue h.queue) with
                    urgent := rest
                    arbCount := s.link.arbCount - 1
                    inHand := some ⟨.urgent, f, false,
                      if s.link.lineBusy then none else some ((if f.urgent then 0 else 32) + s.straps.number)⟩ }
            | [] => { l with inHand := some again } }
        t

/-- LISTEN_ONLY is entered at the third collision of a frame and at a good frame with the own source number (R3,
R4): DUPLICATE_STATION is recorded, everything waiting to be sent is gone, both pumps stop (R58), and the sequencer
goes to HOLD with cause SILENCED or keeps CLAIM_CONFLICT (R123; that the op queue is emptied there too is the
model's reading, log 29). -/
def Obligations.DuplicateStationSilencesTheStation : Prop :=
  ∀ (c : Instr) (s : State), s.powered = true → s.link.listenOnly = false →
    ((c = .collision ∧ ∃ h, s.link.inHand = some h ∧ h.sending = true ∧ 2 ≤ h.frame.collisions) ∨
      ∃ bytes f, c = .frameReceived bytes ∧ s.link.sending = false ∧ (s.link.rx = .idle ∨ s.link.rx = .gathering) ∧
        decodeFrame bytes = some f ∧
        f.source = s.straps.number) →
    ∃ t, exec c s = .next t ∧
      t.link.listenOnly = true ∧ t.link.inHand = none ∧ t.link.urgent = [] ∧ t.link.rig = [] ∧
      t.link.exchange = [] ∧ t.link.bulk = [] ∧ t.link.rodWait = [] ∧
      t.link.counts.duplicateStation = min 255 (s.link.counts.duplicateStation + 1) ∧
      t.link.fault.isSome = true ∧ t.peers = s.peers ∧
      (s.mode = .run →
        (∀ p, (t.chan p).state = .stopped ∧ (t.chan p).target = 0 ∧ (t.chan p).staged = 0) ∧
        t.claims.settle = none ∧
        (s.straps.rod = true →
          t.seq.queue = [] ∧
          t.seq.state = if s.seq.state = .hold .claimConflict then s.seq.state else .hold .silenced)) ∧
      ChangesOnly [.link, .pumps, .claims, .seq, .ret, .alarm] s t

/-- The arbiter's choice (R10): the oldest URGENT frame; else the current queue while its count is below its
weight; else the next queue in the order RIG, EXCHANGE, BULK that holds a frame, with count one. With a frame in
hand, or with nothing queued, it does nothing; and an URGENT frame sends a ROUTINE frame that is not being sent
back to the head of its queue, the current count falling by one. -/
def Obligations.ArbiterTakesTurns : Prop :=
  ∀ (e : LinkEnv) (l : Link),
    let inHand := fun q f => some (InHand.mk q f false
      (if l.lineBusy then none else some ((if f.urgent then 0 else 32) + e.own)))
    (∀ h, l.inHand = some h → l.arbitrate e = l) ∧
    (l.inHand = none →
      (∀ f rest, l.urgent = f :: rest →
        l.arbitrate e = { l with urgent := rest, inHand := inHand .urgent f }) ∧
      (∀ f rest, l.urgent = [] → l.queue l.arbQueue = f :: rest → l.arbCount < e.weight l.arbQueue →
        l.arbitrate e =
          { l.setQueue l.arbQueue rest with arbCount := l.arbCount + 1, inHand := inHand l.arbQueue f }) ∧
      (∀ (q : QueueId) f rest, l.urgent = [] → (l.queue l.arbQueue = [] ∨ e.weight l.arbQueue ≤ l.arbCount) →
        ((match l.arbQueue with
          | .rig => [.exchange, .bulk, .rig]
          | .exchange => [.bulk, .rig, .exchange]
          | _ => [.rig, .exchange, .bulk]) : List QueueId).find? (fun q => !(l.queue q).isEmpty) = some q →
        l.queue q = f :: rest →
        l.arbitrate e = { l.setQueue q rest with arbQueue := q, arbCount := 1, inHand := inHand q f }) ∧
      (l.urgent = [] → l.rig = [] → l.exchange = [] → l.bulk = [] → l.arbitrate e = l)) ∧
    (∀ h f rest, l.inHand = some h → h.queue ≠ .urgent → h.sending = false → l.urgent = f :: rest →
      l.settle e =
        { l.setQueue h.queue (h.frame :: l.queue h.queue) with
            urgent := rest, arbCount := l.arbCount - 1, inHand := inHand .urgent f })

/-- A frame that meets a full queue (R8, R9): in RIG and in URGENT a STATUS, STROKES or HEAD frame takes the place
of a queued frame of its kind (for STROKES, of its pump), whether the queue is full or not; else an URGENT frame is
dropped with URGENT_DROP, an answer is dropped and counted, the oldest STATUS, STROKES or HEAD frame of RIG makes
room, and where there is none a ROD_EVENT waits and any other frame is discarded. In LISTEN_ONLY every frame is
discarded (R4). ROD_EVENT_JOIN (R9): the first ROD_EVENT frame that waits outside a full queue joins the tail of
its queue when there is room, and the arbiter chooses; a sequencer that does not run stays as it is (when it joins
is a command's, log 45). Of two queued frames that it could replace, the newer one, which stands behind the other, is
the one replaced, so that the counts of a pump never go backwards (R62); that the older one stays is the model's choice
(log 68). -/
def Obligations.FullQueuesFollowTheirRules : Prop :=
  (∀ (e : LinkEnv) (q : QueueId) (f : TxFrame) (l : Link),
    (l.listenOnly = true → l.handOver e q f = l) ∧
    (l.listenOnly = false → l.rodWait = [] →
      (∀ before old after, f.urgent = true → l.urgent = before ++ old :: after →
        (∀ g ∈ after, g.replacedBy f = false) →
        (f.kind = .status ∨ f.kind = .strokes ∨ f.kind = .head) → old.kind = f.kind → old.pump = f.pump →
        l.handOver e q f = { l with urgent := before ++ f :: after }) ∧
      (f.urgent = true → 8 ≤ l.count .urgent → (∀ g ∈ l.urgent, g.replacedBy f = false) →
        l.handOver e q f =
          if f.kind = .rodEvent then { l with rodWait := [f] }
          else l.record e .urgentDrop none (some f.kind) none) ∧
      (f.urgent = false → q = .exchange → 8 ≤ l.count .exchange →
        l.handOver e q f = { l with answerDrops := min 255 (l.answerDrops + 1) }) ∧
      (f.urgent = false → q = .bulk → 4 ≤ l.count .bulk →
        l.handOver e q f = { l with answerDrops := min 255 (l.answerDrops + 1) }) ∧
      (∀ before old after, f.urgent = false → q = .rig → l.rig = before ++ old :: after →
        (∀ g ∈ after, g.replacedBy f = false) →
        (f.kind = .status ∨ f.kind = .strokes ∨ f.kind = .head) → old.kind = f.kind → old.pump = f.pump →
        l.handOver e q f = { l with rig := before ++ f :: after }) ∧
      (f.urgent = false → q = .rig → 16 ≤ l.count .rig → (∀ g ∈ l.rig, g.replacedBy f = false) →
        (∀ before old after, l.rig = before ++ old :: after →
          (∀ g ∈ before, g.kind ≠ .status ∧ g.kind ≠ .strokes ∧ g.kind ≠ .head) →
          (old.kind = .status ∨ old.kind = .strokes ∨ old.kind = .head) →
          l.handOver e q f = ({ l with rig := before ++ after ++ [f] }).settle e) ∧
        ((∀ g ∈ l.rig, g.kind ≠ .status ∧ g.kind ≠ .strokes ∧ g.kind ≠ .head) →
          l.handOver e q f = if f.kind = .rodEvent then { l with rodWait := [f] } else l)))) ∧
  ∀ (f : TxFrame) (rest : List TxFrame) (s : State), s.powered = true → s.link.rodWait = f :: rest →
    s.seq.state ≠ .running →
    let q : QueueId := if f.urgent then .urgent else .rig
    (s.link.count q < (if f.urgent then 8 else 16) →
      ∃ t, exec .rodEventJoin s = .next t ∧
        Settles s
          { s with
            link := (({ s.link with rodWait := rest }).setQueue q (s.link.queue q ++ [f])).settle s.linkEnv } t) ∧
    ((if f.urgent then 8 else 16) ≤ s.link.count q →
      ∃ t, exec .rodEventJoin s = .next t ∧ Settles s s t)

/-- STATUS_PERIOD_EXPIRY (R7, R62, R88): the timer restarts and a STATUS frame with the contents of that moment is
handed (R7, R63, R83, R124, R170); in RUN a STROKES frame follows for each fitted pump, A before B, and a HEAD
frame at a HEAD station, each of which starts its 200 ms anew, and an UNSURE view may then ask for a page (R100).
That a kept HEAD call survives the frame of the status period is the model's choice (log 49; R88 is silent). So is
the string length that STATUS carries in CONFIG, with the bottom assembly length as set there (log 69). -/
def Obligations.StatusPeriodHandsStatus : Prop :=
  ∀ s : State, s.powered = true → s.link.statusTimer.isSome = true →
    let run := s.mode = .run
    let fitted := fun p => run ∧ s.straps.pump = true ∧ s.cfg Item.fitted (pumpCode p) = 1
    let summary := fun p =>
      let c := s.chan p
      if fitted p then PumpSummary.mk c.state true c.strokeStopped c.target c.spm else ⟨.stopped, false, true, 0, 0⟩
    let head := s.seq.queue.head?
    let back := s.thresholds.ret
    let status : StatusMsg :=
      { roles := ⟨s.straps.pump, s.straps.head, s.straps.rod, s.straps.record⟩
        startKind := s.startKind
        startSource := s.startSource
        job := s.ret.job
        digest := s.ret.digest
        pumpA := summary .a
        pumpB := summary .b
        lastOp := s.seq.lastOp
        balance :=
          if s.straps.pump = true ∧ s.straps.pitSensor = true then
            some ⟨s.ret.balState, if back.known then some back.accepted else none, s.ret.lost, s.ret.gained⟩
          else none
        seq :=
          match s.seq.state, s.ret.unit with
          | .idle, _ => .idle
          | .waitClaim, _ => .waitClaim
          | .claiming, _ => .claiming
          | .hold _, _ => .hold
          | .fault _, _ => .fault
          | .running, none => .idle
          | .running, some u =>
            match u.kindOfStep with
            | .claim => .claiming
            | .waitPumps => .waitPumps
            | .waitPosition => .waitPosition
            | .clamp => .clamp
            | .fetch => .fetch
            | .spin _ => .spin
            | .grip => .grip
            | .store => .store
            | .release => .release
        step := s.ret.unit.map (·.step)
        cause :=
          match s.seq.state with
          | .hold c => some c
          | .fault c => some c
          | _ => none
        entries := s.seq.queue.length
        headEntry := head.map fun e => ⟨e.count, e.requester⟩
        claim := s.ret.claim
        eventNo := s.ret.eventNo
        stringCount := s.ret.string.length
        stringLength := s.stringLength
        hold := s.ret.hold
        water := s.ret.water
        active := s.alarm.active.toNat
        pending := s.alarm.pending.toNat
        unitKind := s.ret.unit.map (·.kind) }
    let hand := fun (kind : FrameKind) (pump : Option PumpId) (payload : List Byte) (l : Link) =>
      l.handOver s.linkEnv .rig (TxFrame.mk kind 31 (s.cfg Item.kindClass kind.code == 0) pump payload 0 0 none)
    let strokes := fun (p : PumpId) (l : Link) =>
      if fitted p then
        hand .strokes (some p) (encodeStrokes ⟨p, if p = .a then s.ret.strokesA else s.ret.strokesB,
          (s.chan p).effVolume, (s.chan p).spm⟩) l
      else l
    let heads := fun l : Link =>
      if run ∧ s.straps.head = true then
        hand .head none (encodeHead ⟨s.depth.h, s.depth.headKnown, s.spin.permit, s.spin.state, s.ret.turns,
          s.ret.spinTurns, s.depth.rpm, s.spin.number, s.spin.owner, s.spin.kind⟩) l
      else l
    let timed := fun p => if fitted p then { s.chan p with holdoff := some 200 } else s.chan p
    let w : State := { s with
      link := heads (strokes .b (strokes .a
        (hand .status none (encodeStatus status) { s.link with statusTimer := some (s.cfg Item.statusPeriod 0) })))
      pumps := ⟨timed .a, timed .b⟩
      depth :=
        if run ∧ s.straps.head = true then { s.depth with holdoff := some 200, lastHanded := some s.depth.h }
        else s.depth }
    ∃ t, exec .statusPeriodExpiry s = .next t ∧
      (s.mode = .config ∨ s.viewSure = true → Settles s w t) ∧
      Settles s w.resyncPeriod t

/-! ## Frames -/

/-- A STATUS, STROKES, HEAD, ROD_EVENT or CLAIM payload read back is what was put into it, every field at every
value it can carry (sections 11.1 to 11.3). That a field whose own range includes the all-ones code reads back with
it (log 62) and that a CONFIRMED event without a rod needs no place (log 65) are the model's choices. -/
def Obligations.PayloadsReadBack : Prop :=
  (∀ m : StatusMsg, m.Fits → (encodeStatus m).length = 40 ∧ decodeStatus (encodeStatus m) = some m) ∧
  (∀ m : StrokesMsg, m.Fits → decodeStrokes (encodeStrokes m) = some m) ∧
  (∀ m : HeadMsg, m.Fits → decodeHead (encodeHead m) = some m) ∧
  (∀ m : RodEventMsg, m.Fits → decodeRodEvent (encodeRodEvent m) = some m) ∧
  ∀ c : Claim, decodeClaim (encodeClaim c) = some c

/-- A frame as it goes on the line is a good frame of its source, destination, kind and sequence number, with the
contents of its payload (R6, sections 11.1 and 11.4). -/
def Obligations.WireFrameIsAGoodFrame : Prop :=
  ∀ (source : Nat) (f : TxFrame) (seq : Nat) (body : RxBody),
    1 ≤ source → source ≤ 30 → 1 ≤ f.dest → f.dest ≤ 31 → seq < 256 → f.payload.length ≤ 40 →
    decodeBody f.kind f.payload = some body →
    decodeFrame (wireFrame source f seq) = some ⟨source, f.dest, f.kind, seq, body⟩

/-- FRAME_RECEIVED with a frame that fails a test of R6: it is discarded, the receive error counter rises by one,
saturating at 255, and no peer entry is refreshed; a frame that ends after a complete one and before QUIET is
discarded with the bytes it is part of (R1). With a good frame that is for another station, or an ALARM, the entry
of its source is refreshed and nothing else happens (R11, R14): a peer heard for the first time has no stored
contents; of a fresh peer the gap count rises unless the number is the last one's successor. That a header with a
payload length above 40 ends a frame, so that what follows it is discarded at QUIET as one more broken frame, is
the model's choice (log 67). -/
def Obligations.FramesRefreshTheirPeer : Prop :=
  (∀ (bytes : List Byte) (s : State), s.powered = true → s.AlarmsSettled → s.link.lineBusy = true →
    s.link.sending = false →
    (s.link.rx = .complete ∨ s.link.rx = .trailing →
      ∃ t, exec (.frameReceived bytes) s = .next t ∧
        Leaves [] s { s with link := { s.link with rx := .trailing } } t) ∧
    (s.link.rx = .idle ∨ s.link.rx = .gathering → decodeFrame bytes = none →
      ∃ t, exec (.frameReceived bytes) s = .next t ∧
        Leaves [] s
          { s with link := { s.link with rx := .complete, rxErrors := min 255 (s.link.rxErrors + 1) } } t)) ∧
  ∀ (bytes : List Byte) (f : RxFrame) (s : State), s.powered = true → s.AlarmsSettled → s.link.lineBusy = true →
    s.link.sending = false → (s.link.rx = .idle ∨ s.link.rx = .gathering) → decodeFrame bytes = some f → f.source ≠ s.straps.number →
    (f.dest ≠ s.straps.number ∧ f.dest ≠ 31 ∨ f.body = .alarm) → (∀ p, s.peer? f.source = some p → p.stale = false) →
    ∃ t, exec (.frameReceived bytes) s = .next t ∧
      t.link = { s.link with rx := .complete } ∧
      (s.peer? f.source = none →
        t.peer? f.source = some
          { station := f.source, stale := false, lastSeq := f.seq, gaps := 0, silence := some (3 * s.statusPeriod)
            status := none, claim := Claim.absent, strokesA := ⟨none, false⟩, strokesB := ⟨none, false⟩
            head := none, headFresh := false, differed := false }) ∧
      (∀ p, s.peer? f.source = some p →
        t.peer? f.source = some { p with
          lastSeq := f.seq
          gaps := if f.seq = (p.lastSeq + 1) % 256 then p.gaps else min 255 (p.gaps + 1)
          silence := some (3 * s.statusPeriod) }) ∧
      (∀ k, k ≠ f.source → t.peer? k = s.peer? k) ∧
      ChangesOnly [.link, .peers] s t

/-- A CLAIM heard from a fresh peer (R31, R32, R35, R36, R37, R41, R42, R57), no spin running. Into a view that
held no claim: each pump that is STARTING, RUNNING or STOPPING is HELD with duty 0 staged, the rotation permit is
withdrawn, and an own claim that is NONE stays so. One that leaves the peer's phase as it was changes the peer's
entry only. Against an own PENDING claim: an ACTIVE one, or one of a lower station, has it withdrawn and announced,
the take request kept and a CLAIMING sequencer back in WAIT_CLAIM; another starts the settle time anew. Against an
own ACTIVE claim: an ACTIVE one puts the sequencer in HOLD with CLAIM_CONFLICT, its motion outputs and timer off; a
PENDING one changes nothing of the own. With phase NONE: while the view holds another claim nothing of the own
changes but the conflict alarm; when the view is then empty the HELD pumps resume, or a waiting take request takes
the claim, which holds them again. That the pumps resume before the claim is taken is the model's reading (log 14).
-/
def Obligations.ClaimHeardHoldsThePumps : Prop :=
  (∀ (bytes : List Byte) (f : RxFrame) (c : Claim) (p : PeerEntry) (s : State), s.mode = .run →
    s.Hears bytes f → f.body = .claim c →
    s.peer? f.source = some p → p.stale = false → s.viewHolds = false → s.spin.state ≠ .running →
    c.phase ≠ .none →
    ∃ t, exec (.frameReceived bytes) s = .next t ∧
      (∀ i, t.chan i =
        if (s.chan i).state = .starting ∨ (s.chan i).state = .running ∨ (s.chan i).state = .stopping then
          { s.chan i with state := .held, staged := 0, startTimer := none, highCount := 0 }
        else s.chan i) ∧
      t.spin = { s.spin with permit := false } ∧
      (t.peer? f.source).map (·.claim) = some c ∧
      t.viewHolds = true ∧
      t.ret = s.ret ∧ t.claims = s.claims ∧
      ChangesOnly [.link, .peers, .pumps, .spin, .depth, .alarm] s t) ∧
  ∀ (bytes : List Byte) (f : RxFrame) (c : Claim) (p : PeerEntry) (s : State), s.mode = .run → s.AlarmsSettled →
    s.Hears bytes f → f.body = .claim c → s.Knows f.source p → p.stale = false → s.spin.state ≠ .running →
    let own := s.ret.claim.phase
    let others := fun active : Bool => ∃ q ∈ s.peers, q.station ≠ f.source ∧
      (q.claim.phase = .active ∨ (active = false ∧ q.claim.phase = .pending))
    let period := s.cfg Item.statusPeriod 0
    let w : State := { s with link := { s.link with rx := .complete } }
    let waits : SeqState := if s.seq.state = .claiming then .waitClaim else s.seq.state
    let takes := s.claims.takeRequest = true ∧ s.claims.listen = none ∧ s.link.listenOnly = false
    let held := fun c : PumpChannel => { c with state := .held, staged := 0, startTimer := none, highCount := 0 }
    let resumed := fun i : PumpId =>
      let c := s.chan i
      let stopped := { c with state := PumpState.stopped, staged := 0, startTimer := none, highCount := 0 }
      if c.state ≠ .held then c
      else if 0 < c.target then
        { c with
            state := .starting
            staged := s.cfg Item.startDuty (if i = .a then 0 else 1)
            startTimer := some 5000
            refValid := false }
      else if c.strokeStopped then stopped
      else { stopped with state := .stopping }
    ∃ t, exec (.frameReceived bytes) s = .next t ∧
      (t.peer? f.source).map (·.claim) = some c ∧ (∀ j, j ≠ f.source → t.peer? j = s.peer? j) ∧
      (c.phase = p.claim.phase → Leaves [.peers] s w t) ∧
      (c.phase ≠ p.claim.phase → c.phase ≠ .none →
        (own = .pending → s.link.listenOnly = false →
          ((c.phase = .active ∨ f.source < s.straps.number) →
            Settles s
              ({ w with
                  peers := t.peers
                  ret := { s.ret with claim := ⟨.connection, .none⟩ }
                  claims := { s.claims with settle := none }
                  seq := { s.seq with state := waits } } : State).announceClaim t) ∧
          (c.phase = .pending → s.straps.number ≤ f.source →
            Leaves [.peers] s { w with claims := { s.claims with settle := some (2 * period) } } t)) ∧
        (own = .active → c.phase = .active →
          t.seq.state = .hold .claimConflict ∧ t.alarm.isActive .claimConflict = true ∧
          t.alarm.isActive .sequenceHold = true ∧ t.ret.claim = s.ret.claim ∧
          (s.seq.state ≠ .hold .claimConflict → t.seq.timer = none ∧ t.seq.index = false ∧ t.seq.present = false ∧
            t.seq.store = false ∧ t.seq.retract = false ∧ t.seq.queue = s.seq.queue) ∧
          ChangesOnly [.link, .peers, .ret, .seq, .alarm] s t) ∧
        (own = .active → c.phase = .pending → ¬others true →
          t.alarm.isActive .claimConflict = false ∧ ChangesOnly [.link, .peers, .alarm] s t)) ∧
      (c.phase ≠ p.claim.phase → c.phase = .none →
        ((own ≠ .none ∨ others false) →
          (own = .active → ¬others true → t.alarm.isActive .claimConflict = false) ∧
          ChangesOnly [.link, .peers, .alarm] s t) ∧
        (own = .none → ¬others false → ¬takes →
          (∀ i, t.chan i = resumed i) ∧
          t.spin = { s.spin with permit := s.straps.head && s.claims.listen.isNone } ∧
          ChangesOnly [.link, .peers, .pumps, .spin, .depth, .alarm] s t) ∧
        (own = .none → ¬others false → takes →
          (∀ i, t.chan i =
            let c := resumed i
            if c.state = .starting ∨ c.state = .running ∨ c.state = .stopping then held c else c) ∧
          t.ret = { s.ret with claim := ⟨.connection, .pending⟩ } ∧
          t.claims = { s.claims with settle := some (2 * period) } ∧
          t.seq = { s.seq with state := if s.seq.state = .waitClaim then .claiming else s.seq.state } ∧
          t.spin = { s.spin with permit := false } ∧
          (s.link.Roomy → t.link.Holds (TxFrame.mk .claim 31 true none [0, 1] 0 0 none)) ∧
          ChangesOnly [.link, .peers, .ret, .claims, .seq, .pumps, .spin, .depth, .alarm] s t))

/-- STROKES heard from a fresh peer in RUN (R65, R67, R68, R130, R135, R141, R159): with a credit baseline and a
difference of at most 1,000 strokes V rises by the difference times the frame's volume; else V and the lag queue
stand; the count becomes the baseline. While the strata rules apply, the tags whose marks V has reached leave the
queue, each making its interval LOST or SURFACED with the job time, which in CLOSING may complete the close, whose
total is checked against the ceiling (R157); a stroke gap flags the open interval GAP; and a volume that differs
from the last one heard of that pump appends a SERVICE mark and takes its place. That the credit comes before the
SERVICE mark is the model's reading (log 14). -/
def Obligations.PeerStrokesAreCredited : Prop :=
  ∀ (bytes : List Byte) (f : RxFrame) (m : StrokesMsg) (p : PeerEntry) (s : State), s.mode = .run →
    s.Hears bytes f → f.body = .strokes m →
    s.peer? f.source = some p → p.stale = false →
    let old := match m.pump with
      | .a => p.strokesA
      | .b => p.strokesB
    let since := fun last : Nat => (m.count + 4294967296 - last % 4294967296) % 4294967296
    let credit := old.last.bind fun last =>
      if old.baseline = true ∧ since last ≤ 1000 then some (since last * m.volume) else none
    let v := match credit with
      | some volume => min 281474976710655 (s.ret.pumped + volume)
      | none => s.ret.pumped
    let rises := s.strataOn = true ∧ v ≠ s.ret.pumped
    let due := fun g : LagTag => decide (g.mark ≤ v)
    let released := if rises then s.ret.lag.takeWhile due else []
    let left := if rises then s.ret.lag.dropWhile due else s.ret.lag
    let lost := s.circ.heardReturn = some 0 ∨ s.ret.balState = .totalLoss
    let gap := s.strataOn = true ∧ credit = none
    let opened := fun iv : Interval => ∃ op, s.openInterval = some op ∧ op.index = iv.index
    let closes := rises ∧ s.ret.job = .closing ∧ left = [] ∧ ∀ z ∈ s.ret.zones, z.openKind = none
    let ceiling := s.cfg Item.ceiling 0
    let reached := ceiling ≠ 0 ∧ ceiling ≤ s.total
    let near := ceiling ≠ 0 ∧ ceiling * 9 ≤ s.total * 10
    let stored := s.strata.lastVolumes.find? fun x => x.station == f.source && x.pump == m.pump
    let applies := s.strataOn = true ∧ ¬closes
    let service := applies ∧ ∃ x, stored = some x ∧ x.volume ≠ m.volume
    let mark :=
      if closes then some (ZoneEntry.mark .close s.ret.hole s.ret.jobTime 0)
      else if service then
        some (ZoneEntry.mark .service s.ret.hole s.ret.jobTime (f.source + 256 * if m.pump = .a then 0 else 1))
      else none
    let heardVolume := fun (u : State) (k : Nat) (i : PumpId) =>
      (u.strata.lastVolumes.find? fun x => x.station == k && x.pump == i).map (·.volume)
    ∃ t, exec (.frameReceived bytes) s = .next t ∧
      (∀ last, old.last = some last → old.baseline = true → (m.count + 4294967296 - last) % 4294967296 ≤ 1000 →
        last < 4294967296 → s.ret.pumped ≤ top48 →
        t.ret.pumped = min top48 (s.ret.pumped + (m.count + 4294967296 - last) % 4294967296 * m.volume)) ∧
      ((old.last = none ∨ old.baseline = false) →
        t.ret.pumped = s.ret.pumped ∧ t.ret.lag = s.ret.lag) ∧
      (∀ last, old.last = some last → last < 4294967296 →
        1000 < (m.count + 4294967296 - last) % 4294967296 →
        t.ret.pumped = s.ret.pumped ∧ t.ret.lag = s.ret.lag) ∧
      (t.peer? f.source).map (fun q => match m.pump with
        | .a => q.strokesA
        | .b => q.strokesB) = some ⟨some m.count, true⟩ ∧
      t.ret.pumped = v ∧ t.ret.lag = left ∧
      t.ret.intervals = s.ret.intervals.map (fun iv : Interval =>
        if ∃ g ∈ released, g.index = iv.index then
          { iv with sample := if lost then .lost else .surfaced, sampleTime := some s.ret.jobTime }
        else if gap ∧ opened iv then { iv with flags := { iv.flags with gap := true } }
        else iv) ∧
      (closes → t.ret.job = .closed ∧ t.ret.close = .complete ∧ t.billing = ⟨none, decide near, decide reached⟩ ∧
        ∃ frozen, t.ret.frozen = some frozen ∧ frozen.jobTime = s.ret.jobTime ∧ frozen.total = s.total) ∧
      (¬closes → t.ret.job = s.ret.job ∧ t.ret.close = s.ret.close ∧ t.ret.frozen = s.ret.frozen ∧
        t.pumps = s.pumps ∧ t.billing = s.billing) ∧
      t.ret.zones = (match mark with
        | some z => if s.ret.zones.length < 96 then s.ret.zones ++ [z] else s.ret.zones
        | none => s.ret.zones) ∧
      t.ret.unrecorded =
        (if mark.isSome ∧ 96 ≤ s.ret.zones.length then min 65535 (s.ret.unrecorded + 1) else s.ret.unrecorded) ∧
      (applies → heardVolume t f.source m.pump = some m.volume) ∧
      (∀ k i, ¬(applies ∧ k = f.source ∧ i = m.pump) → heardVolume t k i = heardVolume s k i) ∧
      t.ret = { s.ret with
        pumped := t.ret.pumped, lag := t.ret.lag, intervals := t.ret.intervals, zones := t.ret.zones
        unrecorded := t.ret.unrecorded, job := t.ret.job, close := t.ret.close, frozen := t.ret.frozen
        overCeiling := s.ret.overCeiling || decide (closes ∧ reached) } ∧
      ChangesOnly [.link, .peers, .ret, .pumps, .billing, .strata, .alarm] s t

/-- STATUS heard from a fresh peer whose claim it leaves as it is (R14, R15, R70, R89, R97, R98, R161), the
sequencer at rest and no spin running: the entry takes the contents; a digest that first differs records
CONFIG_MISMATCH; the heard balance record follows the lowest fresh pit peer, or the lowest stale one; the head
source and the rod source are chosen again; the rod source's event number, count and length are compared; the last
RECORD peer's CLOSED ends a close. In CONFIG the peer table and the fault record alone change. That the events held
by an UNSURE view stay held when its source changes (log 51) and that a digest heard while the own job is NONE
counts as no difference (log 17) are the model's choices. So is that a SURE view whose source changes asks for its
first page at once and does not begin again (log 63), that a CONFIG_MISMATCH record takes the job time in CLOSING and
CLOSED too (log 55), and, read from R161, that a STATUS makes the test of a close only where it names the RECORD role
(log 42). D is formed again, and H may rise with it, only where the head source or the rod view state changes (R93,
R94; log 71). -/
def Obligations.StatusHeard : Prop :=
  ∀ (bytes : List Byte) (f : RxFrame) (m : StatusMsg) (p : PeerEntry) (s : State), s.Hears bytes f →
    s.AlarmsSettled → f.body = .status m → s.Knows f.source p → p.stale = false → m.claim = p.claim →
    s.spin.state ≠ .running → s.seq.state ≠ .running →
    let differs := s.ret.job ≠ .noJob ∧ m.job ≠ .noJob ∧ m.digest ≠ s.ret.digest
    let first := differs ∧ p.differed = false
    let carries := fun q : PeerEntry => q.status.any fun n => n.balance.isSome
    let names := fun (role : Roles → Bool) (q : PeerEntry) => q.status.any fun n => role n.roles
    ∃ t, exec (.frameReceived bytes) s = .next t ∧
      t.peer? f.source = some { p with
        lastSeq := f.seq
        gaps := if f.seq = (p.lastSeq + 1) % 256 then p.gaps else min 255 (p.gaps + 1)
        silence := some (3 * s.statusPeriod)
        status := some m
        differed := decide differs } ∧
      (∀ j, j ≠ f.source → t.peer? j = s.peer? j) ∧
      (first → t.link.counts.configMismatch = min 255 (s.link.counts.configMismatch + 1) ∧
        (s.link.fault = none →
          t.link.fault = some ⟨.configMismatch, some f.source, some .status, some f.seq, s.ret.jobTime⟩)) ∧
      (¬first → t.link.counts.configMismatch = s.link.counts.configMismatch) ∧
      (s.mode = .config → ChangesOnly [.peers, .link] s t) ∧
      (s.mode = .run →
        (differs → t.alarm.isActive .configMismatch = true) ∧
        (s.isPit = true → t.circ = s.circ ∧ t.ret.balState = s.ret.balState ∧ t.ret.lost = s.ret.lost ∧
          t.ret.gained = s.ret.gained ∧ t.ret.water = s.ret.water) ∧
        (s.isPit = false →
          let heard := (t.ret.balState, t.circ.heardReturn, t.ret.lost, t.ret.gained, t.ret.water, t.circ.heardSource,
            t.circ.heardStale)
          let pick := (t.peers.find? fun q => carries q && !q.stale).or (t.peers.find? carries)
          (pick = none → heard = (.suspended, none, s.ret.lost, s.ret.gained, s.ret.water, none, false)) ∧
          (∀ q, pick = some q → ∀ n, q.status = some n → ∀ b, n.balance = some b →
            heard = (b.state, b.ret, b.lost, b.gained, n.water, some q.station, q.stale))) ∧
        (s.straps.head = true → t.depth.headSource = s.depth.headSource ∧ t.depth.wear = s.depth.wear) ∧
        (s.straps.head = false →
          t.depth.headSource =
            (t.peers.find? fun q => !q.stale && names (·.head) q && q.headFresh).map (·.station) ∧
          (t.depth.headSource ≠ s.depth.headSource →
            t.depth.wear = none ∧ t.depth.bitDepth = t.depthNow ∧ s.ret.hole ≤ t.ret.hole ∧
            (t.viewSure = s.viewSure → t.ret.hole = max s.ret.hole (t.depthNow.getD 0))) ∧
          (t.depth.headSource = s.depth.headSource → t.viewSure = s.viewSure → t.depth = s.depth)) ∧
        (t.depth.headSource = s.depth.headSource → t.ret.hole = s.ret.hole) ∧
        (s.straps.rod = true → t.rod = s.rod) ∧
        (s.straps.rod = false →
          let source := (t.peers.find? (names (·.rod))).map (·.station)
          let unsure := t.rod.sure = false ∧ t.rod.lagCount = 0 ∧ t.rod.held = [] ∧ t.rod.resync.nextPage = 0 ∧
            t.rod.resync.scratch = [] ∧ t.depth.bitDepth = none
          let same := m.stringCount = s.ret.string.length ∧ m.stringLength = s.stringLength
          t.rod.source = source ∧ t.ret.eventNo = s.ret.eventNo ∧ t.ret.string = s.ret.string ∧
          (source ≠ s.rod.source → s.rod.sure = true → unsure) ∧
          (source ≠ s.rod.source → s.rod.sure = false →
            t.rod.sure = false ∧ t.rod.lagCount = 0 ∧ t.rod.held = s.rod.held ∧ t.rod.resync.again = true) ∧
          (source = s.rod.source → (s.rod.sure = false ∨ source ≠ some f.source) → t.rod = s.rod) ∧
          (source = s.rod.source → s.rod.sure = true → source = some f.source →
            (m.eventNo = s.ret.eventNo → same → t.rod = { s.rod with lagCount := 0 }) ∧
            (m.eventNo = s.ret.eventNo → ¬same → unsure) ∧
            (m.eventNo ≠ s.ret.eventNo → s.rod.lagCount + 1 < 3 →
              t.rod = { s.rod with lagCount := s.rod.lagCount + 1 }) ∧
            (m.eventNo ≠ s.ret.eventNo → 3 ≤ s.rod.lagCount + 1 → unsure))) ∧
        (s.straps.record = false →
          let ends := s.ret.job = .closing ∧ m.roles.record = true ∧
            ∀ q ∈ t.peers, ∀ n, q.status = some n → n.roles.record = true → n.job = .closed
          (ends → t.ret.job = .closed ∧ t.ret.close = .complete ∧ t.ret.closeKind = some .normal ∧
            t.billing.jobTimer = none ∧ t.ret.frozen = s.ret.frozen) ∧
          (¬ends → t.ret.job = s.ret.job ∧ t.pumps = s.pumps ∧ t.billing = s.billing))) ∧
      ChangesOnly [.peers, .link, .ret, .circ, .depth, .rod, .pumps, .billing, .alarm] s t

/-- HEAD heard from a fresh peer (R14, R15, R88, R89, R93, R94, R101, R102, R116), the sequencer at rest or at a
SPIN step: the entry takes the contents; at a station without the HEAD role the source is chosen again, and D and H
follow where the source or its values have changed and stand where they have not (that a frame which repeats the
values is no change is the model's reading, log 71); a change of the source's counts credits its non-spin turns against a valid baseline to the rods of the
string (that the frame of a new source sets the baseline at a change of its stored counts is the model's reading,
log 21); FAILED or ABANDONED for the kept spin number is a FAULT of the step, and IDLE, RUNNING or another number
changes nothing. -/
def Obligations.HeadHeard : Prop :=
  ∀ (bytes : List Byte) (f : RxFrame) (m : HeadMsg) (p : PeerEntry) (s : State), s.Hears bytes f →
    s.AlarmsSettled → f.body = .head m → s.Knows f.source p → p.stale = false →
    (s.seq.state ≠ .running ∨ s.seq.phase ≠ .ending ∧ ∃ u kind, s.ret.unit = some u ∧ u.kindOfStep = .spin kind) →
    let top := 4294967295
    let watched := s.seq.spin = .accepted f.source m.number
    (watched → m.spin ≠ .done) →
    ∃ t, exec (.frameReceived bytes) s = .next t ∧
      t.peer? f.source = some { p with
        lastSeq := f.seq
        gaps := if f.seq = (p.lastSeq + 1) % 256 then p.gaps else min 255 (p.gaps + 1)
        silence := some (3 * s.statusPeriod)
        head := some m
        headFresh := true } ∧
      (∀ j, j ≠ f.source → t.peer? j = s.peer? j) ∧
      (s.mode = .config → ChangesOnly [.peers, .link] s t) ∧
      (s.mode = .run → s.straps.head = true → t.depth = s.depth ∧ t.ret.hole = s.ret.hole ∧ t.ret.rods = s.ret.rods) ∧
      (s.mode = .run → s.straps.head = false →
        let source := (t.peers.find? fun q => !q.stale && q.headFresh && q.status.any fun n => n.roles.head).map
          (·.station)
        let kept := source = s.depth.headSource
        let turned := p.head.any fun v => v.turns != m.turns || v.spinTurns != m.spinTurns
        let since := fun n old : Nat => (n + 4294967296 - old) % 4294967296
        let values := fun v : HeadMsg => (v.h, v.known, v.turns, v.spinTurns, v.rpm)
        let moved := ¬kept ∨ (source = some f.source ∧ p.head.map values ≠ some (values m))
        t.depth.headSource = source ∧
        (moved → t.depth.bitDepth = t.depthNow ∧ t.ret.hole = max s.ret.hole (t.depthNow.getD 0)) ∧
        (¬moved → t.depth.bitDepth = s.depth.bitDepth ∧ t.depth.onBottom = s.depth.onBottom ∧
          t.ret.hole = s.ret.hole) ∧
        (source = some f.source → turned = true → t.depth.wear = some (m.turns, m.spinTurns)) ∧
        (source ≠ some f.source ∨ turned = false → t.depth.wear = (if kept then s.depth.wear else none) ∧
          t.ret.rods = s.ret.rods) ∧
        (∀ a b, s.depth.wear = some (a, b) → a ≤ top → b ≤ top → m.turns ≤ top → m.spinTurns ≤ top →
          source = some f.source → turned = true →
          let n := since m.turns a - since m.spinTurns b
          let credits := kept ∧ since m.turns a ≤ 100000 ∧ since m.spinTurns b ≤ since m.turns a ∧ s.straps.rod = true
          t.ret.rods = s.ret.rods.map fun r : Rod =>
            if credits ∧ r.id ∈ s.ret.string then
              { r with
                turns := min top (r.turns + n)
                due := r.due || decide (s.cfg Item.typeWear r.type * 1000 ≤ r.turns + n ∧
                  s.cfg Item.typeWear r.type * 1000 ≤ top) }
            else r) ∧
        (s.depth.wear = none ∨ ¬kept → t.ret.rods = s.ret.rods)) ∧
      (s.mode = .run →
        let fails := watched ∧ (m.spin = .failed ∨ m.spin = .abandoned) ∧ s.seq.state = .running
        (¬fails → t.seq = s.seq) ∧
        (fails → t.seq = { s.seq with
            state := .fault .spin, phase := .first, timer := none
            index := false, present := false, store := false, retract := false } ∧
          t.alarm.isActive .sequenceHold = true)) ∧
      ChangesOnly [.peers, .link, .ret, .depth, .seq, .alarm] s t

/-- ROD_EVENT heard at a station without the ROD role in RUN (R92, R96, R97, R98, R100, R155): from the rod source,
a SURE view applies the next event that can be made, with its hold record, and stays SURE where count and length
agree; every other event makes it UNSURE with its first page requested; an UNSURE view holds up to 8. A RETIRED
event is counted when it arrives. From any other station it changes nothing. D and H follow a change of the string
list or the hold record, and stand where an event applied changes neither (R93, R94; log 71). Which rods a kind may take, an event
without a rod or place, and the hold record of CONFIRMED are read as log 27 says. -/
def Obligations.RodEventHeard : Prop :=
  ∀ (bytes : List Byte) (f : RxFrame) (m : RodEventMsg) (p : PeerEntry) (s : State), s.mode = .run →
    s.straps.rod = false → s.Hears bytes f → s.AlarmsSettled → f.body = .rodEvent m → s.Knows f.source p →
    p.stale = false →
    let id := m.rod.getD 0
    let found := m.rod.bind fun id => s.ret.rods.find? fun r => r.id == id
    let moved := fun (st : RodState) (slot : Option Nat) =>
      s.ret.rods.map fun r : Rod => if r.id = id then { r with state := st, slot := slot } else r
    let out := s.ret.string.filter (· != id)
    let other := fun test : Rod → Prop => ∃ r ∈ s.ret.rods, test r ∧ r.id ≠ id
    let kept := fun (d : Rod) (st : RodState) => if d.state = .retired then .retired else st
    let racked := fun (d : Rod) (st : RodState) => match m.slot with
      | none => none
      | some n => if n < 64 ∧ ¬other (fun r => r.slot = some n) then some (moved (kept d st) (some n), out) else none
    let changed : Option (List Rod × List Nat) :=
      match m.kind, found with
      | .holdChanged, _ => some (s.ret.rods, s.ret.string)
      | .confirmed, none => if m.rod = none then some (s.ret.rods, s.ret.string) else none
      | _, none => none
      | .added, some d =>
        if (d.slot ≠ none ∨ d.state = .loader) ∧ s.ret.string.length < 128 then some (moved .string none, out ++ [id])
        else none
      | .removed, some _ =>
        if s.ret.string.getLast? = some id ∧ ¬other (fun r => r.state = .loader) then some (moved .loader none, out)
        else none
      | .rackLoaded, some d => if d.state = .offRig ∨ d.state = .loader then racked d .rack else none
      | .rackUnloaded, some d =>
        if m.slot ≠ none ∧ d.slot = m.slot then some (moved (kept d .offRig) none, out) else none
      | .retired, some d =>
        if d.state = .string ∨ d.state = .loader then none
        else some (s.ret.rods.map fun r : Rod => if r.id = id then { r with state := .retired, due := true } else r,
          s.ret.string)
      | .confirmed, some d =>
        match m.place with
        | none => none
        | some .offRig => some (moved (kept d .offRig) none, out)
        | some .slot => racked d .rack
        | some .loader =>
          if d.state = .retired ∨ other (fun r => r.state = .loader) then none else some (moved .loader none, out)
        | some .stringTop =>
          if d.state = .retired then none
          else if id ∈ s.ret.string then
            (if s.ret.string.getLast? = some id then some (s.ret.rods, s.ret.string) else none)
          else if s.ret.string.length < 128 then some (moved .string none, out ++ [id])
          else none
    let held := fun (r : HoldRec) (string : List Nat) => r = ⟨.hung, .latched, false⟩ ∨ r = ⟨.clamped, .free, false⟩ ∨
      r = ⟨.clamped, .latched, false⟩ ∨ (r = ⟨.clamped, .latched, true⟩ ∧ string ≠ [])
    let result := changed.bind fun r => if held m.hold r.2 then some r else none
    let counts := s.straps.record = true ∧ (s.ret.job = .opened ∨ s.ret.job = .closing) ∧ m.kind = .retired
    let retired := match found with
      | some d => if counts then
          s.ret.retirements.set (d.type - 1) (min 65535 (s.ret.retirements.getD (d.type - 1) 0 + 1))
        else s.ret.retirements
      | none => s.ret.retirements
    ∃ t, exec (.frameReceived bytes) s = .next t ∧
      ChangesOnly [.peers, .link, .ret, .depth, .rod, .alarm] s t ∧
      let records := fun (rods : List Rod) (string : List Nat) (hold : HoldRec) (n : Nat) =>
        t.Keeps { s.ret with rods := rods, string := string, hold := hold, eventNo := n, retirements := retired }
      let asIs := records s.ret.rods s.ret.string s.ret.hold s.ret.eventNo
      let unsure := t.rod.sure = false ∧ t.rod.lagCount = 0 ∧ t.rod.held = [] ∧ t.rod.resync.nextPage = 0 ∧
        t.rod.resync.scratch = [] ∧ t.depth.bitDepth = none ∧
        (s.rod.resync.request = .none → s.link.listenOnly = false → (∀ o ∈ s.link.outstanding, o.code ≠ 10) →
          s.link.outstanding.length < 4 → s.link.count .exchange < 8 →
          ∃ o : OutEntry, t.link.outstanding = s.link.outstanding ++ [o] ∧ o.dest = f.source ∧ o.code = 10 ∧
            t.rod.resync.request = .sent f.source o.tag false)
      (s.rod.source ≠ some f.source → ChangesOnly [.peers, .link] s t) ∧
      (s.rod.source = some f.source → s.ret.retirements.length = 4 → (∀ d, found = some d → d.type ≤ 4) →
        (s.rod.sure = false → asIs ∧
          t.rod = { s.rod with held := if s.rod.held.length < 8 then s.rod.held ++ [m] else s.rod.held }) ∧
        (s.rod.sure = true → m.number ≠ (s.ret.eventNo + 1) % 65536 ∨ result = none → asIs ∧ unsure) ∧
        (∀ rods string, result = some (rods, string) → s.rod.sure = true → m.number = (s.ret.eventNo + 1) % 65536 →
          records rods string m.hold m.number ∧
          (string.length = m.count ∧ s.lengthOf string = m.length →
            t.rod = s.rod ∧
            (string ≠ s.ret.string ∨ m.hold ≠ s.ret.hold →
              t.depth.bitDepth = t.depthNow ∧ t.ret.hole = max s.ret.hole (t.depthNow.getD 0)) ∧
            (string = s.ret.string → m.hold = s.ret.hold → t.depth = s.depth ∧ t.ret.hole = s.ret.hole)) ∧
          (¬(string.length = m.count ∧ s.lengthOf string = m.length) → unsure)))

/-- A REQUEST and an ANSWER heard from a fresh peer (R4, R11, R12, R13, R100, R116). A REQUEST joins the intake
queue; at a full one it is answered BUSY, or discarded when it was sent to 31, and LISTEN_ONLY discards one sent to
the station. An ANSWER that matches no entry of the outstanding request table is counted. One that matches frees
its entry: ACCEPTED gives a SPIN its number (0 without data: log 52) and any other result is a FAULT of the running
step; a DONE page goes to the scratch list and the next is asked for; the last page that passes the checks becomes
the string list of a SURE view, and one that fails them, another event number or NOT_FOUND begins again at the next
status period (the room of the string list and a hold record of R92 are checked too, and too short data is no page:
log 30; the hold record's bits in page data: log 66). That an answer to the SPIN request which comes while the
sequencer is not running gives its number when ACCEPTED, and else only ends the request, is the model's reading
(log 25). The last page of a view with events held, which are then worked through (R100), is not stated here. -/
def Obligations.RequestAndAnswerHeard : Prop :=
  ∀ (bytes : List Byte) (f : RxFrame) (p : PeerEntry) (s : State), s.Hears bytes f → s.AlarmsSettled →
    s.Knows f.source p → p.stale = false →
    let heard : Link := { s.link with rx := .complete }
    let busy := fun tag : Nat =>
      heard.handOver s.linkEnv .exchange (TxFrame.mk .answer f.source false none [byteOf tag, 2] 0 0 none)
    (∀ tag code args, f.body = .request tag code args →
      ∃ t, exec (.frameReceived bytes) s = .next t ∧
        Leaves [.peers] s
          { s with link :=
            if s.link.listenOnly = true ∧ f.dest ≠ 31 then heard
            else if s.link.intake.length < 8 then
              { heard with intake := s.link.intake ++ [⟨f.source, f.dest == 31, tag, code, args⟩] }
            else if f.dest = 31 then heard
            else busy tag } t) ∧
    (∀ tag code data, f.body = .answer tag code data →
      (∀ o ∈ s.link.outstanding, ¬(o.dest = f.source ∧ o.tag = tag)) →
      ∃ t, exec (.frameReceived bytes) s = .next t ∧
        Leaves [.peers] s { s with link := { heard with unmatched := min 255 (s.link.unmatched + 1) } } t) ∧
    ∀ tag code data o, f.body = .answer tag code data →
      s.link.outstanding.find? (fun o => o.dest == f.source && o.tag == tag) = some o →
      let freed : Link := { heard with outstanding := s.link.outstanding.filter fun x => decide (x ≠ o) }
      let w : State := { s with link := freed }
      (o.code = 15 → s.seq.spin = .sent f.source tag →
        ∃ t, exec (.frameReceived bytes) s = .next t ∧
          (code = 1 →
            Leaves [.peers] s { w with seq := { s.seq with
              spin := .accepted f.source ((data.head?.map (·.toNat)).getD 0) } } t) ∧
          (code ≠ 1 → s.seq.state ≠ .running → Leaves [.peers] s { w with seq := { s.seq with spin := .none } } t) ∧
          (code ≠ 1 → s.mode = .run → s.seq.state = .running → s.seq.phase ≠ .ending →
            t.seq = { s.seq with
              state := .fault .spin, phase := .first, timer := none, spin := .none
              index := false, present := false, store := false, retract := false } ∧
            t.alarm.isActive .sequenceHold = true ∧ ChangesOnly [.peers, .link, .seq, .alarm] s t)) ∧
      (∀ drop, o.code = 10 → s.rod.resync.request = .sent f.source tag drop → s.mode = .run → s.straps.rod = false →
        let r := s.rod.resync
        let resynced := fun r : Resync =>
          ∃ t, exec (.frameReceived bytes) s = .next t ∧
            Leaves [.peers] s { w with rod := { s.rod with resync := r } } t
        let again := resynced ⟨0, [], none, true, .none⟩
        let ended := resynced { r with request := .none }
        let unused := drop = true ∨ s.rod.sure = true ∨ s.rod.source ≠ some f.source
        let count := natAt data 1 1
        let event := natAt data 5 2
        let hold := HoldRec.ofCode (natAt data 7 1 % 8)
        let ids := (List.range ((data.length - 8) / 2)).map fun i => natAt data (8 + 2 * i) 2
        let list := r.scratch ++ ids
        let known := fun id => ∃ d ∈ s.ret.rods, d.id = id
        let valid := hold = ⟨.hung, .latched, false⟩ ∨ hold = ⟨.clamped, .free, false⟩ ∨
          hold = ⟨.clamped, .latched, false⟩ ∨ (hold = ⟨.clamped, .latched, true⟩ ∧ list ≠ [])
        let passes := (∀ id ∈ list, known id) ∧ list.Nodup ∧ list.length ≤ 128 ∧ valid ∧
          ∃ n, p.status = some n ∧ list.length = n.stringCount ∧ s.lengthOf list = n.stringLength
        (unused → ended) ∧
        (¬unused → code ≠ 0 → code ≠ 9 → ended) ∧
        (¬unused → code = 9 → again) ∧
        (¬unused → code = 0 → data.length < 8 → ended) ∧
        (¬unused → code = 0 → 8 ≤ data.length → (∃ n, r.firstEvent = some n ∧ n ≠ event) → again) ∧
        (¬unused → code = 0 → 8 ≤ data.length → (∀ n, r.firstEvent = some n → n = event) →
          (list.length ≠ count →
            ∃ t, exec (.frameReceived bytes) s = .next t ∧
              t.rod = { s.rod with resync := ⟨r.nextPage + 1, list, some event, r.again, t.rod.resync.request⟩ } ∧
              (r.again = false → s.link.listenOnly = false →
                (∀ x ∈ s.link.outstanding, x ≠ o → x.code ≠ 10) → freed.outstanding.length < 4 →
                s.link.count .exchange < 8 →
                ∃ x : OutEntry, t.link.outstanding = freed.outstanding ++ [x] ∧ x.dest = f.source ∧ x.code = 10 ∧
                  t.rod.resync.request = .sent f.source x.tag false) ∧
              ChangesOnly [.peers, .link, .rod] s t) ∧
          (list.length = count → ¬passes → again) ∧
          (list.length = count → passes → s.rod.held = [] →
            ∃ t, exec (.frameReceived bytes) s = .next t ∧
              t.Keeps { s.ret with
                string := list
                hold := hold
                eventNo := event
                rods := s.ret.rods.map fun d : Rod =>
                  if d.id ∈ list then { d with state := .string, slot := none }
                  else if d.state = .string then { d with state := .offRig, slot := none }
                  else d } ∧
              t.rod = ⟨true, s.rod.source, 0, [], ⟨0, [], none, false, .none⟩⟩ ∧
              t.depth.bitDepth = t.depthNow ∧ t.alarm.isActive .rodViewUnsure = false ∧
              ChangesOnly [.peers, .link, .ret, .depth, .rod, .alarm] s t)))

/-! ## Requests to peers -/

/-- REQUEST_ENTRY (R13): with an entry of the table and a place in EXCHANGE free, a waiting SPIN or STRING_READ
request takes the first tag from the tag counter on that no entry holds; it enters the table with its issue time
(the latest time the station was given: the model's choice, log 4), the counter goes one past its tag, and its
frame joins EXCHANGE. ANSWER_TIMEOUT (R13, R116): the entry is freed, its issuer is told, and REQUEST_TIMEOUT is
recorded with the destination and the tag. A page request is then no longer under way; a SPIN step in hand becomes
a FAULT. That a waiting page request enters also when its rod source has gone stale since is the model's choice
(log 57). -/
def Obligations.RequestsToPeersAreTracked : Prop :=
  (∀ s : State, s.mode = .run → s.link.outstanding.length < 4 → s.link.count .exchange < 8 →
    s.link.listenOnly = false →
    let issued := fun dest tag code (arg : Byte) =>
      ({ s.link with
          tagCounter := (tag + 1) % 256
          outstanding := s.link.outstanding ++ [OutEntry.mk dest tag code s.clockMs] }).handOver s.linkEnv .exchange
        (TxFrame.mk .request dest false none [byteOf tag, byteOf code, arg] 0 0 none)
    let nth := fun n => if n = 0 then s.link.tagCounter else (s.link.tagCounter + n) % 256
    let held := fun tag => ∃ o ∈ s.link.outstanding, o.tag = tag
    let free := fun tag => ¬held tag ∧ ∃ n, n < 4 ∧ tag = nth n ∧ ∀ m, m < n → held (nth m)
    (∀ dest kind, s.seq.spin = .waiting dest kind →
      ∃ t, exec (.requestEntry .sequencer) s = .next t ∧ ∃ tag, free tag ∧
        Settles s { s with link := issued dest tag 15 (byteOf kind.code), seq := { s.seq with spin := .sent dest tag } }
          t) ∧
    (∀ dest page, s.rod.resync.request = .waiting dest page →
      ∃ t, exec (.requestEntry .rodUnit) s = .next t ∧ ∃ tag, free tag ∧
        Settles s
          { s with
              link := issued dest tag 10 (byteOf page)
              rod := { s.rod with resync := { s.rod.resync with request := .sent dest tag false } } } t)) ∧
  ∀ (tag : Byte) (o : OutEntry) (before after : List OutEntry) (s : State), s.powered = true →
    s.link.outstanding = before ++ o :: after → (∀ b ∈ before, b.tag ≠ tag.toNat) → o.tag = tag.toNat →
    let link := ({ s.link with outstanding := s.link.outstanding.filter fun x => decide (x ≠ o) }).record s.linkEnv
      .requestTimeout (some o.dest) (some .request) (some o.tag)
    (∀ drop, o.code = 10 → s.rod.resync.request = .sent o.dest o.tag drop →
      ∃ t, exec (.answerTimeout tag) s = .next t ∧
        Settles s { s with link := link, rod := { s.rod with resync := { s.rod.resync with request := .none } } } t) ∧
    (o.code = 15 → s.seq.spin = .sent o.dest o.tag → s.seq.state = .running → s.seq.phase ≠ .ending →
      ∃ t, exec (.answerTimeout tag) s = .next t ∧
        Settles s
          { s with
              link := link
              seq := { s.seq with
                state := .fault .spin, phase := .first, timer := none, spin := .none
                index := false, present := false, store := false, retract := false } } t)

/-- PEER_STALE (R14, R38): a heard peer whose silence timer has run out is stale, with its stored contents kept;
its claim stays in the view as a stale claim. In CONFIG nothing else happens. A good frame of a stale peer (R14,
R36, R38, R68, R89, R100), here one for another station or an ALARM: the peer returns fresh without its credit
baselines and with its claim, an ACTIVE one against an own ACTIVE claim is a conflict, and the resynchronisation
from a rod source that returns begins again. -/
def Obligations.SilentPeerGoesStale : Prop :=
  (∀ (k : Nat) (p : PeerEntry) (s : State), s.powered = true → s.peer? k = some p → p.silence.isSome = true →
    ∃ t, exec (.peerStale k) s = .next t ∧
      t.peer? k = some { p with stale := true, silence := none } ∧
      (∀ j, j ≠ k → t.peer? j = s.peer? j) ∧
      (p.claim.phase ≠ .none → ⟨k, p.claim.kind, p.claim.phase, true⟩ ∈ t.otherClaims) ∧
      (s.mode = .run → p.claim.phase ≠ .none → t.alarm.isActive .staleClaim = true) ∧
      (s.mode = .config → ChangesOnly [.peers] s t) ∧
      ChangesOnly [.peers, .ret, .link, .claims, .pumps, .circ, .depth, .rod, .seq, .spin, .billing, .alarm] s t) ∧
  ∀ (bytes : List Byte) (f : RxFrame) (p : PeerEntry) (s : State), s.powered = true → s.link.lineBusy = true →
    s.link.sending = false → (s.link.rx = .idle ∨ s.link.rx = .gathering) → decodeFrame bytes = some f →
    f.source ≠ s.straps.number → (f.dest ≠ s.straps.number ∧ f.dest ≠ 31 ∨ f.body = .alarm) →
    s.peer? f.source = some p → p.stale = true →
    ∃ t, exec (.frameReceived bytes) s = .next t ∧
      t.peer? f.source = some { p with
        stale := false
        lastSeq := f.seq
        gaps := if f.seq = (p.lastSeq + 1) % 256 then p.gaps else min 255 (p.gaps + 1)
        silence := some (3 * s.statusPeriod)
        strokesA := { p.strokesA with baseline := false }
        strokesB := { p.strokesB with baseline := false }
        headFresh := false } ∧
      (∀ j, j ≠ f.source → t.peer? j = s.peer? j) ∧
      (p.claim.phase ≠ .none → ⟨f.source, p.claim.kind, p.claim.phase, false⟩ ∈ t.otherClaims) ∧
      (s.mode = .run → p.claim.phase = .active → s.ret.claim.phase = .active →
        t.seq.state = .hold .claimConflict ∧ t.alarm.isActive .claimConflict = true) ∧
      (s.mode = .run → s.rod.source = some f.source → s.rod.sure = false →
        t.rod = { s.rod with resync :=
          { nextPage := 0
            scratch := []
            firstEvent := none
            again := true
            request := match s.rod.resync.request with
              | .sent dest tag _ => .sent dest tag true
              | _ => .none } }) ∧
      (s.mode = .config → ChangesOnly [.peers, .link] s t) ∧
      ChangesOnly [.peers, .ret, .link, .claims, .pumps, .circ, .depth, .rod, .seq, .spin, .billing, .alarm] s t

/-! ## Requests -/

/-- R4, R12, R22 and R173 before a request's own rule (`a` is the request the command presents): LISTEN_ONLY
discards it, a full queue answers BUSY, one behind others joins the tail; at the head it is refused with NO_ROLE at
a station without its role, with RANGE when the request that waits there has fewer argument bytes than its code
takes (in CONFIG too), and with STATE in CONFIG. A code that is not of 1 to 24 is answered UNKNOWN. When the head
is served is the model's choice (log 7), and so is that one waiting since before LISTEN_ONLY is served (log 54). An
answer (R12, R173): none to a request sent to 31; else ANSWER frames with the tag, the result code and the data,
one of up to 38 bytes, or two numbered 0 and 1, the first with the more flag. -/
def Obligations.RequestsPassTheGate : Prop :=
  (∀ (c : Instr) (a : Ask) (s : State), c.ask? = some a → s.powered = true → s.AlarmsSettled →
    (s.link.listenOnly = true → a.rq.toAll = false → s.link.intake = [] →
      ∃ t, exec c s = .next t ∧ Leaves [.pins] s s t) ∧
    (8 ≤ s.link.intake.length → (∀ q rest, s.link.intake = q :: rest → q.same a.request = false) →
      s.link.listenOnly = false →
      ∃ t, exec c s = .next t ∧ Leaves [.pins] s (s.replied .exchange a.rq .busy []) t) ∧
    (s.link.intake.length < 8 → (∃ q rest, s.link.intake = q :: rest ∧ q.same a.request = false) →
      (s.link.listenOnly = false ∨ a.rq.toAll = true) →
      ∃ t, exec c s = .next t ∧
        Leaves [.pins] s { s with link := { s.link with intake := s.link.intake ++ [a.request] } } t) ∧
    (s.Serves a.request → a.role s.straps = false →
      ∃ t, exec c s = .next t ∧ Leaves [.pins] s (s.taken.replied a.queue a.rq .noRole []) t) ∧
    (∀ q rest, s.link.intake = q :: rest → q.same a.request = true → a.role s.straps = true →
      q.args.length < a.args.length →
      ∃ t, exec c s = .next t ∧ Leaves [.pins] s (s.taken.replied a.queue a.rq .range []) t) ∧
    (s.Serves a.request → a.role s.straps = true → s.mode = .config → a.inConfig = false →
      ∃ t, exec c s = .next t ∧ Leaves [.pins] s (s.taken.replied a.queue a.rq .state []) t)) ∧
  (∀ (rq : ReqHead) (code : Byte) (s : State), (code.toNat < 1 ∨ 24 < code.toNat) → s.AlarmsSettled →
    s.Serves (requestOf rq code.toNat []) →
    ∃ t, exec (.unknownRequest rq code) s = .next t ∧
      Leaves [] s (s.taken.replied .exchange rq .unknown []) t) ∧
  ∀ (s : State) (q : QueueId) (rq : ReqHead) (code : ResultCode) (data : List Byte),
    let frame := fun (seg : Nat) (part : List Byte) =>
      TxFrame.mk .answer rq.source false none ([rq.tag, byteOf (code.code + seg)] ++ part) 0 0 none
    (rq.toAll = true → s.replied q rq code data = s) ∧
    (rq.toAll = false → data.length ≤ 38 →
      s.replied q rq code data = { s with link := s.link.handOver s.linkEnv q (frame 0 data) }) ∧
    (rq.toAll = false → 38 < data.length → data.length ≤ 76 →
      let first := s.link.handOver s.linkEnv q (frame 128 (data.take 38))
      s.replied q rq code data = { s with link := first.handOver s.linkEnv q (frame 16 (data.drop 38)) })

/-- IDENTIFY (R29): answered DONE with the codes of the part, the station number and the role set, changing
nothing, in CONFIG and in RUN; in LISTEN_ONLY one addressed to the station is discarded. The bits of the role set
byte are the model's choice (log 66). -/
def Obligations.IdentifyAnswersTheStation : Prop :=
  ∀ (rq : ReqHead) (s : State), s.powered = true → s.AlarmsSettled →
    (s.Serves (requestOf rq 1 []) →
      ∃ t, exec (.identify rq) s = .next t ∧
        Leaves [] s
          (s.taken.replied .exchange rq .done
            [0x3D, 0x0A, 0x10, 0x04, 3, byteOf s.straps.number,
             byteOf ((if s.straps.pump then 1 else 0) + (if s.straps.head then 2 else 0) +
               (if s.straps.rod then 4 else 0) + (if s.straps.record then 8 else 0))]) t) ∧
    (s.link.listenOnly = true → rq.toAll = false → s.link.intake = [] →
      ∃ t, exec (.identify rq) s = .next t ∧ Leaves [] s s t)

/-- STATUS_READ, STRING_READ, RECORD_READ and STATEMENT_READ (R17, R99, R142, R163): refused as their rules say, and
else answered DONE, changing nothing; the data of the last two are laid out in `RecordsReadByTheirLayouts`. That an
unlatched fault record's fields are absent is the model's reading (log 37), and so are the bits of the
paired flags in STATUS_READ data (log 61) and of the hold record byte in STRING_READ data (log 66). -/
def Obligations.ReadsAnswerFromTheRecords : Prop :=
  ∀ (rq : ReqHead) (s : State), s.powered = true → s.AlarmsSettled →
    (∀ part : Byte, s.Serves (requestOf rq 4 [part]) →
      ∃ t, exec (.statusRead rq part) s = .next t ∧
        Leaves [] s
          (if 3 < part.toNat then s.taken.replied .exchange rq .range []
          else s.taken.replied .exchange rq .done
            (if part = 0 then
              [byteOf ((if s.link.fault.isSome then 1 else 0) + (if s.link.more then 2 else 0)),
               byteOf ((s.link.fault.map (·.kind.code)).getD 255),
               byteOf ((s.link.fault.bind (·.peer)).getD 255),
               byteOf (((s.link.fault.bind (·.frame)).map (·.code)).getD 255),
               byteOf ((s.link.fault.bind (·.seqTag)).getD 255)] ++
              leBytes 4 ((s.link.fault.map (·.jobTime)).getD 4294967295) ++
              [byteOf s.link.counts.collision, byteOf s.link.counts.duplicateStation,
               byteOf s.link.counts.accessDrop, byteOf s.link.counts.lineStuck, byteOf s.link.counts.urgentDrop,
               byteOf s.link.counts.requestTimeout, byteOf s.link.counts.configMismatch,
               byteOf s.link.rxErrors, byteOf s.link.answerDrops, byteOf s.link.unmatched,
               byteOf ((if s.link.listenOnly then 1 else 0) + (if s.link.stuck then 2 else 0))]
            else
              [1, 2, 3, 4, 5, 6, 7, 8, 9, 10].flatMap fun i =>
                match s.peer? (10 * (part.toNat - 1) + i) with
                | none => [0, 0]
                | some p => [if p.stale then 3 else 1, byteOf p.gaps])) t) ∧
    (s.mode = .run → s.straps.rod = true → ∀ page : Byte, s.Serves (requestOf rq 10 [page]) →
      ∃ t, exec (.stringRead rq page) s = .next t ∧
        Leaves [] s
          (if 10 < page.toNat then s.taken.replied .exchange rq .range []
          else if 0 < page.toNat ∧ s.ret.string.length < 12 * page.toNat + 1 then
            s.taken.replied .exchange rq .notFound []
          else s.taken.replied .exchange rq .done
            ([page, byteOf s.ret.string.length] ++ leBytes 3 s.stringLength ++ leBytes 2 s.ret.eventNo ++
              [byteOf s.ret.hold.code] ++
              ((s.ret.string.drop (12 * page.toNat)).take 12).flatMap (leBytes 2))) t) ∧
    (s.mode = .run → s.straps.record = true →
      (∀ (selector : Byte) (index : BitVec 16),
        s.Serves (requestOf rq 17 (selector :: leBytes 2 index.toNat)) →
        let found : Option (List Byte) :=
          if selector.toNat = 0 then (s.ret.intervals.find? fun iv => iv.index == index.toNat).map (·.data)
          else if selector.toNat = 1 then s.ret.zones[index.toNat]?.map (s.zoneData index.toNat)
          else s.ret.adjustments[index.toNat]?.map (s.adjustmentData index.toNat)
        ∃ t, exec (.recordRead rq selector index) s = .next t ∧
          Leaves [] s
            (if 2 < selector.toNat then s.taken.replied .bulk rq .range []
            else
              match found with
              | none => s.taken.replied .bulk rq .notFound []
              | some data => s.taken.replied .bulk rq .done data) t) ∧
      ∀ part : Byte, s.Serves (requestOf rq 21 [part]) →
        ∃ t, exec (.statementRead rq part) s = .next t ∧
          Leaves [] s
            (if 3 < part.toNat then s.taken.replied .bulk rq .range []
            else s.taken.replied .bulk rq .done (s.statementData part.toNat)) t)

/-- The records and the statement, byte by byte (R142, R163, sections 11.5 and 11.6): each field at its place, low
byte first, an absent one with every bit set; the frozen statement is read in CLOSED, and else the figures of that
moment with their charges (R151, R152, R154, R155, R156). -/
def Obligations.RecordsReadByTheirLayouts : Prop :=
  ∀ s : State,
    let flag := fun (b : Bool) (n : Nat) => if b then n else 0
    let money := fun l : List Nat => min 4294967295 l.sum
    (∀ iv : Interval,
      let d := iv.data
      let opt := fun (i n : Nat) (v : Option Nat) => natAt d i n = (v.map (· % 256 ^ n)).getD (256 ^ n - 1)
      d.length = 40 ∧ natAt d 0 2 = iv.index % 65536 ∧ opt 2 4 iv.closedTime ∧ natAt d 6 2 = iv.seconds % 65536 ∧
        natAt d 8 4 = iv.turns % 4294967296 ∧ opt 12 3 iv.rop ∧ opt 15 2 iv.meanRpm ∧
        natAt d 17 4 = iv.loss % 4294967296 ∧ natAt d 21 4 = iv.gain % 4294967296 ∧
        natAt d 25 1 = flag iv.flags.inLoss 1 + flag iv.flags.totalLoss 2 + flag iv.flags.water 4 +
          flag iv.flags.gap 8 + flag iv.flags.coarse 16 + flag iv.flags.afterWarm 32 + flag iv.flags.depthUnsure 64 ∧
        (iv.cls.getD 7 < 8 → natAt d 26 1 =
          (match iv.sample with
            | .none => 0
            | .inTransit => 1
            | .surfaced => 2
            | .lost => 3
            | .untracked => 4) + 8 * iv.cls.getD 7 +
            (match iv.source with
            | some .driller => 0
            | some .sample => 64
            | none => 192)) ∧
        opt 27 1 iv.lithology ∧ opt 28 4 iv.sampleTime ∧ opt 32 4 iv.provisional ∧ opt 36 4 iv.current) ∧
    (∀ (position : Nat) (z : ZoneEntry),
      let d := s.zoneData position z
      let opt := fun (i n : Nat) (v : Option Nat) => natAt d i n = (v.map (· % 256 ^ n)).getD (256 ^ n - 1)
      d.length = 27 ∧ natAt d 0 1 = position % 256 ∧ natAt d 1 1 = s.ret.zones.length % 256 ∧
        natAt d 2 2 = s.ret.unrecorded % 65536 ∧ natAt d 26 1 = 0 ∧
        match z with
        | .zone kind top bottom opened closed volume =>
          natAt d 4 1 = (match kind with
            | .loss => 0
            | .totalLoss => 1
            | .water => 2) ∧
          natAt d 5 1 = (if bottom = none then 1 else 0) ∧ natAt d 6 4 = top % 4294967296 ∧
          natAt d 10 4 = opened % 4294967296 ∧ opt 14 4 bottom ∧ opt 18 4 closed ∧ natAt d 22 4 = volume % 4294967296
        | .mark kind depth time code =>
          natAt d 4 1 = (match kind with
            | .powerGap => 3
            | .service => 4
            | .downBegin => 5
            | .downEnd => 6
            | .close => 7) ∧
          natAt d 5 1 = 255 ∧ natAt d 6 4 = depth % 4294967296 ∧ natAt d 10 4 = time % 4294967296 ∧ opt 14 4 none ∧
          opt 18 4 none ∧ natAt d 22 4 = code % 4294967296) ∧
    (∀ (position : Nat) (a : Adjustment), a.oldClass < 8 → a.newClass < 8 →
      let d := s.adjustmentData position a
      d.length = 18 ∧ natAt d 0 1 = position % 256 ∧ natAt d 1 1 = s.ret.adjustments.length % 256 ∧
        natAt d 2 2 = a.index % 65536 ∧ natAt d 4 1 = a.oldClass + 8 * a.newClass + flag a.afterClose 64 ∧
        natAt d 5 4 = a.oldCharge % 4294967296 ∧ natAt d 9 4 = a.newCharge % 4294967296 ∧
        natAt d 13 4 = a.time % 4294967296 ∧ natAt d 17 1 = a.describer % 256) ∧
    let f := s.statement
    (f.meters.length = 8 → f.timeCharges.length = 8 → f.units.length = 8 → f.retirements.length = 4 →
      let at' := fun (part i n v : Nat) => natAt (s.statementData part) i n = v % 256 ^ n
      let each := fun (part i n : Nat) (l : List Nat) => ∀ k, k < l.length → at' part (i + n * k) n (l.getD k 0)
      (∀ part, part < 4 → natAt (s.statementData part) 0 1 = (if s.ret.job = .closed then 1 else 0)) ∧
      (s.statementData 0).length = 46 ∧ at' 0 1 2 f.jobNumber ∧
        at' 0 3 1 ((match f.job with
          | .noJob => 0
          | .opened => 1
          | .closing => 2
          | .closed => 3) + (match f.close with
          | .noClose => 0
          | .processing => 4
          | .complete => 8) + (match f.closeKind with
          | some .normal => 0
          | some .abrupt => 16
          | some .timedOut => 32
          | none => 48) + flag f.down 64) ∧
        at' 0 4 2 f.closingSeconds ∧ at' 0 6 4 f.jobTime ∧ each 0 10 4 f.meters ∧ at' 0 42 4 f.unsure ∧
      (s.statementData 1).length = 37 ∧ each 1 1 4 f.timeCharges ∧ at' 1 33 4 (money f.timeCharges) ∧
      (s.statementData 2).length = 32 ∧ at' 2 1 4 f.closedFootage ∧ at' 2 5 4 f.sumProvisional ∧
        at' 2 9 4 f.sumCurrent ∧ at' 2 13 4 f.overFootage ∧ at' 2 17 4 f.overCharge ∧
        at' 2 21 1 s.ret.adjustments.length ∧ at' 2 22 2 s.ret.droppedAdj ∧ at' 2 24 4 s.ret.additions ∧
        at' 2 28 4 s.ret.reductions ∧
      (s.statementData 3).length = 66 ∧ each 3 1 4 f.units ∧ at' 3 33 4 f.additiveCharge ∧ at' 3 37 4 f.billedWater ∧
        at' 3 41 4 f.waterCharge ∧ each 3 45 2 f.retirements ∧ at' 3 53 4 f.retirementCharge ∧ at' 3 57 4 f.total ∧
        at' 3 61 4 f.ceiling ∧ at' 3 65 1 (flag f.near 1 + flag f.reached 2 + flag f.overCeiling 4)) ∧
    (∀ g, s.ret.job = .closed → s.ret.frozen = some g → f = g) ∧
    (s.ret.job ≠ .closed →
      let top := 4294967295
      let rate := fun c => s.cfg Item.classRate c
      let beyond := s.ret.hole - s.cfg Item.depthLimit 0
      let last := s.cfg Item.bandRate (s.cfg Item.bandCount 0)
      let percent := s.cfg Item.classPercent (s.cfg Item.defaultClass 0)
      f.jobNumber = s.cfg Item.jobNumber 0 ∧ f.job = s.ret.job ∧ f.close = s.ret.close ∧
        f.closeKind = s.ret.closeKind ∧ f.closingSeconds = s.ret.closingSeconds ∧ f.jobTime = s.ret.jobTime ∧
        f.meters = s.ret.meters ∧ f.unsure = s.ret.unsure ∧ f.down = s.ret.down ∧
        f.timeCharges =
          [0, 1, 2, 3, 4, 5, 6, 7].map (fun c => min top ((s.ret.meters.getD c 0 * rate c + 1800) / 3600)) ∧
        f.closedFootage = s.ret.closedFootage ∧ f.sumProvisional = s.ret.sumProvisional ∧
        f.sumCurrent = s.ret.sumCurrent ∧ f.overFootage = beyond ∧
        f.overCharge = min top ((beyond * last * percent + 50000) / 100000) ∧ f.units = s.ret.units ∧
        f.additiveCharge =
          money ([0, 1, 2, 3, 4, 5, 6, 7].map fun k => s.ret.units.getD k 0 * s.cfg Item.additivePrice k) ∧
        f.billedWater = s.ret.billedWater ∧
        f.waterCharge = min top ((s.ret.billedWater * s.cfg Item.waterPrice 0 + 500000) / 1000000) ∧
        f.retirements = s.ret.retirements ∧
        f.retirementCharge = money ((List.range (s.cfg Item.typeCount 0)).map fun k =>
          s.ret.retirements.getD k 0 * s.cfg Item.typeCharge (k + 1)) ∧
        f.total = money (f.timeCharges ++
          [f.sumCurrent, f.overCharge, f.additiveCharge, f.waterCharge, f.retirementCharge]) ∧
        f.ceiling = s.cfg Item.ceiling 0 ∧ f.near = s.billing.near ∧ f.reached = s.billing.reached ∧
        f.overCeiling = s.ret.overCeiling)

/-- CONFIG_SET in CONFIG (R23, R25): NOT_FOUND for an unknown item, RANGE outside its ranges; else that entry takes
the value, no other entry changes, and the digest is computed again. `itemRow` is the item's row of R24. In RUN
(R28, R141): LOCKED without the service key and for every item but 29, 30 and 32 (stroke volume, yield and pressure
limit of a pump); else the item is checked as in CONFIG, the pump's effective volume is computed again (the
pressure limit in force is taken at the next capture), and a change of it appends a SERVICE mark at a RECORD
station. The digest is not altered. The key's level is an operand that its pin keeps: the model's choice (log 9).
-/
def Obligations.ConfigSetTakesItems : Prop :=
  (∀ (rq : ReqHead) (key : Bool) (item index : Byte) (value : BitVec 32) (s : State), s.mode = .config →
    s.Serves (requestOf rq 2 ([item, index] ++ leBytes 4 value.toNat)) →
    let w := { s.taken with pins := { s.pins with serviceKey := key } }
    let items := itemSet s.ret.items item.toNat index.toNat value.toNat
    ∃ t, exec (.configSet rq key item index value) s = .next t ∧
      Leaves [] s
        (match itemRow item.toNat with
        | none => w.replied .exchange rq .notFound []
        | some row =>
          if index.toNat < row.indexLo ∨ row.indexHi < index.toNat ∨ value.toNat < row.lo ∨ row.hi < value.toNat then
            w.replied .exchange rq .range []
          else
            ({ w with ret := { s.ret with items := items, digest := configDigest items } }).replied .exchange rq
              .done []) t ∧
      ∀ code i, itemGet items code i =
        if code = item.toNat ∧ i = index.toNat then value.toNat else itemGet s.ret.items code i) ∧
  ∀ (rq : ReqHead) (key : Bool) (item index : Byte) (value : BitVec 32) (s : State), s.mode = .run →
    s.AlarmsSettled → s.Serves (requestOf rq 2 ([item, index] ++ leBytes 4 value.toNat)) →
    let w := { s.taken with pins := { s.pins with serviceKey := key } }
    let items := itemSet s.ret.items item.toNat index.toNat value.toNat
    (key = false ∨ (item ≠ 29 ∧ item ≠ 30 ∧ item ≠ 32) →
      ∃ t, exec (.configSet rq key item index value) s = .next t ∧
        Leaves [] s (w.replied .exchange rq .locked []) t) ∧
    (∀ row, key = true → (item = 29 ∨ item = 30 ∨ item = 32) → itemRow item.toNat = some row →
      (1 < index.toNat ∨ value.toNat < row.lo ∨ row.hi < value.toNat →
        ∃ t, exec (.configSet rq key item index value) s = .next t ∧
          Leaves [] s (w.replied .exchange rq .range []) t) ∧
      (row.lo ≤ value.toNat → value.toNat ≤ row.hi → ∀ p : PumpId, index.toNat = (if p = .a then 0 else 1) →
        let volume := itemGet items 29 index.toNat * itemGet items 30 index.toNat / 100
        let marked := volume ≠ (s.chan p).effVolume ∧ s.straps.record = true ∧
          (s.ret.job = .opened ∨ s.ret.job = .closing)
        ∃ t, exec (.configSet rq key item index value) s = .next t ∧
          Settles s
            (({ w with
                ret := { s.ret with
                  items := items
                  digest := configDigest items
                  zones :=
                    if marked ∧ s.ret.zones.length < 96 then
                      s.ret.zones ++
                        [ZoneEntry.mark .service s.ret.hole s.ret.jobTime (s.straps.number + 256 * index.toNat)]
                    else s.ret.zones
                  unrecorded :=
                    if marked ∧ 96 ≤ s.ret.zones.length then min 65535 (s.ret.unrecorded + 1)
                    else s.ret.unrecorded }
                pumps := s.pumps.set p { s.chan p with effVolume := volume } }).replied .exchange rq .done []) t ∧
          configDigest items = configDigest s.ret.items))

/-- CONFIG_LOCK (R26, R27): LOCKED in RUN; RANGE with the first failing item and index when a test of R26 fails,
changing nothing; else the station enters RUN with the records of a new job, and a head that the top limit shows
homed calls for a HEAD frame (R86, R88; which blocks keep the time of the last edge and the position last handed:
logs 18 and 20; that a running 200 ms and a kept call are dropped, so that the frame goes at once: log 56; that the
pressure limit in force is the configured one from the lock on: log 31; that the captured period is 0 before the first
capture: log 47). At a station that is not the pit station the heard figures, and at each the sources chosen from the
peer table, are left free (logs 18 and 36). -/
def Obligations.ConfigLockOpensTheJob : Prop :=
  ∀ (rq : ReqHead) (s : State), s.Serves (requestOf rq 3 []) → s.AlarmsSettled →
    let it := itemGet s.ret.items
    (s.mode = .run →
      ∃ t, exec (.configLock rq) s = .next t ∧ Leaves [] s (s.taken.replied .exchange rq .locked []) t) ∧
    (∀ code i, s.mode = .config → lockFails s.ret.items = some (code, i) →
      ∃ t, exec (.configLock rq) s = .next t ∧
        Leaves [] s (s.taken.replied .exchange rq .range [byteOf code, byteOf i]) t) ∧
    (s.mode = .config → lockFails s.ret.items = none →
      ∃ t, exec (.configLock rq) s = .next t ∧
        t.mode = .run ∧ t.straps = s.straps ∧ t.pins = s.pins ∧ t.pending = s.pending ∧
        t.startKind = s.startKind ∧ t.startSource = s.startSource ∧ t.outs = t.outputsNow ∧ ImagesFollow s t ∧
        (∃ heard : BalState × Nat × Nat × Nat, (s.isPit = true → heard = (.suspended, 0, 0, 0)) ∧
          t.ret = { Retained.cold with
            recorded := t.ret.recorded
            items := t.ret.items
            digest := t.ret.digest
            hole := t.ret.hole
            rods := t.ret.rods
            job := t.ret.job
            intervals := t.ret.intervals
            balState := heard.1
            lost := heard.2.1
            gained := heard.2.2.1
            water := heard.2.2.2 }) ∧
        t.ret.recorded = some s.straps.recorded ∧ t.ret.items = s.ret.items ∧
        t.ret.digest = configDigest s.ret.items ∧
        t.ret.job = .opened ∧ t.ret.close = .noClose ∧ t.ret.jobTime = 0 ∧ t.ret.hole = it Item.collarDepth 0 ∧
        t.ret.string = [] ∧ t.ret.hold = ⟨.clamped, .free, false⟩ ∧ t.ret.eventNo = 0 ∧
        t.ret.rods = ((List.range (it Item.inventoryCount 0)).map (· + 1)).map (fun k =>
          let id := it Item.inventoryRod k
          let slot := (List.range 64).find? fun n => it Item.rackSlot n != 0 && it Item.rackSlot n == id
          { id := id
            type := it Item.inventoryType k
            turns := it Item.inventoryTurns k
            state := if slot.isSome then RodState.rack else .offRig
            due := decide (it Item.typeWear (it Item.inventoryType k) * 1000 ≤ it Item.inventoryTurns k)
            slot := slot }) ∧
        t.ret.claim = Claim.absent ∧ t.ret.unit = none ∧ t.ret.lag = [] ∧ t.ret.zones = [] ∧
        t.ret.adjustments = [] ∧ t.ret.frozen = none ∧ t.ret.meters = zeros8 ∧ t.ret.pumped = 0 ∧
        (s.straps.record = false → t.ret.intervals = []) ∧
        (s.straps.record = true → ∃ iv, t.ret.intervals = [iv] ∧
          iv.index = it Item.collarDepth 0 / it Item.intervalLength 0 ∧ iv.closedTime = none) ∧
        t.rod.sure = true ∧ t.claims = ⟨false, none, some (3 * it Item.statusPeriod 0)⟩ ∧
        t.seq = Sequencer.start ∧ t.spin = SpinService.start ∧ t.billing.jobTimer = some 1000 ∧
        (∀ p : PumpId, t.chan p = { PumpChannel.start with
          effVolume := it Item.strokeVolume (if p = .a then 0 else 1) *
            it Item.yieldPercent (if p = .a then 0 else 1) / 100
          limit := it Item.pressureLimit (if p = .a then 0 else 1)
          lastEdge := (s.chan p).lastEdge }) ∧
        (let homed := s.straps.head = true ∧ s.pins.topLimit = true
         t.depth.h = (if homed then it Item.mastTravel 0 else s.depth.h) ∧ t.depth.headKnown = decide homed ∧
         t.depth.holdoff = (if homed then some 200 else none) ∧ t.depth.wear = none ∧
         t.depth.lastHanded = (if homed then some (it Item.mastTravel 0) else s.depth.lastHanded)) ∧
        (s.isPit = true → t.circ =
          { CircUnit.start with heardSource := some s.straps.number, evalTimer := some 2000 }) ∧
        (∀ p ∈ t.peers, p.strokesA.baseline = false ∧ p.strokesB.baseline = false))

/-- The tests of R26 in their order, and the item and index each names: the first section, band, inventory entry or
rack slot that fails it. An inventory entry is named by its rod ID where it repeats one and else by its rod type
(the model's choice, log 46). -/
def Obligations.LockNamesTheFirstFailingItem : Prop :=
  ∀ items : Items,
    let it := itemGet items
    let limit := it Item.depthLimit 0
    let length := it Item.intervalLength 0
    let collar := it Item.collarDepth 0
    let bands := it Item.bandCount 0
    let first := fun (fails : Nat → Prop) (i : Nat) => fails i ∧ ∀ j, j < i → ¬fails j
    let sect := fun i => 2 ≤ i ∧ i < it Item.sectionCount 0 ∧
      it Item.sectionBottom i ≤ it Item.sectionBottom (i - 1)
    let band := fun b => 1 ≤ b ∧ b ≤ bands ∧
      ((2 ≤ b ∧ it Item.bandBottom b ≤ it Item.bandBottom (b - 1)) ∨ it Item.bandBottom b % length ≠ 0)
    let used := fun k => 1 ≤ k ∧ k ≤ it Item.inventoryCount 0
    let repeats := fun k => ∃ j, j < k ∧ 1 ≤ j ∧ it Item.inventoryRod j = it Item.inventoryRod k
    let entry := fun k => used k ∧ (repeats k ∨ it Item.typeCount 0 < it Item.inventoryType k)
    let filled := fun n => n < 64 ∧ it Item.rackSlot n ≠ 0
    let unknown := fun n => filled n ∧
      ∀ k, k ≤ it Item.inventoryCount 0 → 1 ≤ k → it Item.inventoryRod k ≠ it Item.rackSlot n
    let twice := fun n => filled n ∧ ∃ m, m < n ∧ it Item.rackSlot m = it Item.rackSlot n
    let ends := it Item.bandBottom bands = limit
    let reaches := limit ≤ length * 1024
    let starts := collar % length = 0 ∧ collar < limit
    let fails := lockFails items
    (∀ i, first sect i → fails = some (Item.sectionBottom, i)) ∧
    ((∀ i, ¬sect i) →
      (∀ b, first band b → fails = some (Item.bandBottom, b)) ∧
      ((∀ b, ¬band b) →
        (¬ends → fails = some (Item.bandBottom, bands)) ∧
        (ends → ¬reaches → fails = some (Item.intervalLength, 0)) ∧
        (ends → reaches → ¬starts → fails = some (Item.collarDepth, 0)) ∧
        (ends → reaches → starts →
          (∀ k, first entry k → repeats k → fails = some (Item.inventoryRod, k)) ∧
          (∀ k, first entry k → ¬repeats k → fails = some (Item.inventoryType, k)) ∧
          ((∀ k, ¬entry k) →
            (∀ n, first unknown n → fails = some (Item.rackSlot, n)) ∧
            ((∀ n, ¬unknown n) →
              (∀ n, first twice n → fails = some (Item.rackSlot, n)) ∧
              ((∀ n, ¬twice n) → fails = none))))))

/-- A report of an alarm condition (R166, R167, section 10.1): without a change of its active flag nothing happens;
with one the flag takes the value, an enabled condition that becomes active becomes pending, and an enabled one
hands an ALARM frame with the code, whether it is raised or cleared, H and the job time. -/
def Obligations.AlarmReportRaisesAndClears : Prop :=
  ∀ (s : State) (c : AlarmCond) (holds : Bool),
    let enabled := s.cfg Item.conditionEnabled c.code = 1
    let frame := TxFrame.mk .alarm (s.cfg Item.alarmDestination 0) true none
      ([byteOf c.code, if holds then 0 else 1] ++ leBytes 4 s.ret.hole ++ leBytes 4 s.ret.jobTime) 0 0 none
    let t := s.report c holds
    (s.alarm.isActive c = holds → t = s) ∧
    (s.alarm.isActive c ≠ holds →
      (∀ d, t.alarm.isActive d = if d = c then holds else s.alarm.isActive d) ∧
      (∀ d, t.alarm.isPending d =
        if d = c ∧ holds = true ∧ enabled then true else s.alarm.isPending d) ∧
      t.link = (if enabled then s.link.handOver s.linkEnv .urgent frame else s.link) ∧
      LeavesOther [.alarm, .link] s t)

/-- FAULT_CLEAR, CLAIM_CLEAR and ALARM_ACK (R17, R39, R169): the record is unlocked, and latches again while the
line is stuck (how LINK_FAULT is then reported is the model's choice, log 15); a stale claim leaves the view, and
with the last claim the pumps resume (R57); pending flags are cleared. -/
def Obligations.ClearsAndAcknowledgements : Prop :=
  ∀ (rq : ReqHead) (s : State), s.powered = true → s.AlarmsSettled →
    (s.Serves (requestOf rq 5 []) →
      let w : State := { s.taken with link := { s.taken.link with
        fault :=
          if s.link.stuck then
            some ⟨.lineStuck, none, none, none, if s.ret.job = .noJob then 0 else s.ret.jobTime⟩
          else none
        more := false } }
      ∃ t, exec (.faultClear rq) s = .next t ∧
        Settles s ((if s.mode = .run then w.report .linkFault false else w).replied .exchange rq .done []) t) ∧
    (∀ station : Byte, s.mode = .run → s.Serves (requestOf rq 6 [station]) →
      let k := station.toNat
      let refused := fun code => ∃ t, exec (.claimClear rq station) s = .next t ∧
        Leaves [] s (s.taken.replied .exchange rq code []) t
      (k < 1 ∨ 30 < k → refused .range) ∧
      (1 ≤ k → k ≤ 30 → k = s.straps.number → refused .state) ∧
      (1 ≤ k → k ≤ 30 → k ≠ s.straps.number → (∀ p, s.peer? k = some p → p.claim.phase = .none) →
        refused .notFound) ∧
      (∀ p, 1 ≤ k → k ≤ 30 → k ≠ s.straps.number → s.peer? k = some p → p.claim.phase ≠ .none →
        (p.stale = false → refused .state) ∧
        (p.stale = true → s.spin.state ≠ .running →
          ∃ t, exec (.claimClear rq station) s = .next t ∧
            t.peer? k = some { p with claim := Claim.absent } ∧ (∀ j, j ≠ k → t.peer? j = s.peer? j) ∧
            t.otherClaims = s.otherClaims.filter (fun c => c.station != k) ∧
            ((∀ q ∈ s.peers, q.station ≠ k → q.claim.phase = .none) → s.ret.claim.phase = .none →
              s.claims.takeRequest = false →
              ∀ i, t.chan i =
                let c := s.chan i
                let stopped := { c with state := PumpState.stopped, staged := 0, startTimer := none, highCount := 0 }
                if c.state ≠ .held then c
                else if 0 < c.target then
                  { c with
                      state := .starting
                      staged := s.cfg Item.startDuty (if i = .a then 0 else 1)
                      startTimer := some 5000
                      refValid := false }
                else if c.strokeStopped then stopped
                else { stopped with state := .stopping }) ∧
            ChangesOnly [.peers, .ret, .claims, .pumps, .spin, .depth, .link, .seq, .alarm] s t))) ∧
    (∀ condition : Byte, s.Serves (requestOf rq 24 [condition]) →
      ∃ t, exec (.alarmAck rq condition) s = .next t ∧
        Leaves [] s
          (if s.mode = .config then s.taken.replied .exchange rq .done []
          else if condition.toNat = 255 then
            ({ s.taken with alarm := { s.alarm with pending := 0 } }).replied .exchange rq .done []
          else if condition.toNat < 15 then
            ({ s.taken with alarm := { s.alarm with
              pending := s.alarm.pending &&& ~~~(1#15 <<< condition.toNat) } }).replied .exchange rq .done []
          else s.taken.replied .exchange rq .range []) t)

/-- PUMP_RATE (R53, R54): the role and CONFIG, the tests in order, and the moves of the channel for each of its
states. A refused request changes nothing, and one sent to 31 is served without an answer. -/
def Obligations.PumpRateMovesTheChannel : Prop :=
  ∀ (rq : ReqHead) (pump rate : Byte) (s : State), s.AlarmsSettled → s.Serves (requestOf rq 7 [pump, rate]) →
    let refused := fun code => ∃ t, exec (.pumpRate rq pump rate) s = .next t ∧
      Leaves [] s (s.taken.replied .exchange rq code []) t
    let above := 0 < rate.toNat
    (s.straps.pump = false → refused .noRole) ∧
    (s.straps.pump = true → s.mode = .config → refused .state) ∧
    (s.straps.pump = true → s.mode = .run →
      (1 < pump.toNat ∨ 150 < rate.toNat → refused .range) ∧
      (∀ p : PumpId, pump.toNat = (if p = .a then 0 else 1) → rate.toNat ≤ 150 →
        let c := s.chan p
        let claimed := above ∧ (s.viewHolds = true ∨ s.claims.listen.isSome = true)
        let barred := above ∧ (s.ret.job = .closed ∨ s.link.listenOnly = true)
        (s.cfg Item.fitted pump.toNat ≠ 1 → refused .notFound) ∧
        (s.cfg Item.fitted pump.toNat = 1 →
          (claimed → refused .claimed) ∧
          (¬claimed → barred → refused .state) ∧
          (¬claimed → ¬barred → above → c.state = .held → refused .claimed) ∧
          (¬claimed → ¬barred → (above → c.state ≠ .held) →
            let kept := { c with target := rate.toNat }
            let starting := { kept with
              state := .starting
              staged := s.cfg Item.startDuty pump.toNat
              startTimer := some 5000
              refValid := false }
            let stopped := { kept with state := .stopped, staged := 0, startTimer := none, highCount := 0 }
            let stopping := if c.strokeStopped then stopped else { stopped with state := .stopping }
            let next :=
              if above then (if c.state = .starting ∨ c.state = .running then kept else starting)
              else if c.state = .stopped ∨ c.state = .stopping then kept
              else if c.state = .stalled then stopped
              else stopping
            ∃ t, exec (.pumpRate rq pump rate) s = .next t ∧
              Settles s (({ s.taken with pumps := s.pumps.set p next }).replied .exchange rq .done []) t))))

/-- RACK_LOAD and RACK_UNLOAD at a ROD station in RUN (R103, R104): the tests in order; the rod, its place, and
the event, which is handed in a ROD_EVENT frame; no handler output is driven. -/
def Obligations.RackRequestsMoveTheRod : Prop :=
  ∀ (rq : ReqHead) (slot : Byte) (s : State), s.mode = .run → s.straps.rod = true → s.AlarmsSettled →
    let busy := s.link.listenOnly = true ∨ s.seq.state ≠ .idle ∨ s.seq.queue ≠ []
    let placed := fun (id : Nat) (st : RodState → RodState) (place : Option Nat) (kind : RodEventKind) =>
      let w : State := { s.taken with ret := { s.ret with
        rods := s.ret.rods.map fun r => if r.id = id then { r with state := st r.state, slot := place } else r
        string := s.ret.string.filter (· != id)
        eventNo := (s.ret.eventNo + 1) % 65536 } }
      (w.broadcast .rodEvent none (encodeRodEvent
        { number := w.ret.eventNo, kind := kind, rod := some id, slot := some slot.toNat, place := none,
          count := w.ret.string.length, length := w.stringLength, hold := w.ret.hold })).replied .exchange rq .done []
    (∀ rod : BitVec 16, s.Serves (requestOf rq 8 (slot :: leBytes 2 rod.toNat)) →
      let id := rod.toNat
      let found := s.ret.rods.find? fun r => r.id == id
      let refused := fun code => ∃ t, exec (.rackLoad rq slot rod) s = .next t ∧
        Leaves [] s (s.taken.replied .exchange rq code []) t
      (63 < slot.toNat ∨ id < 1 ∨ 4095 < id → refused .range) ∧
      (slot.toNat ≤ 63 → 1 ≤ id → id ≤ 4095 →
        (found = none → refused .notFound) ∧
        (∀ d, found = some d →
          let barred := busy ∨ d.state ≠ .offRig ∨ ∃ r ∈ s.ret.rods, r.slot = some slot.toNat
          (barred → refused .state) ∧
          (¬barred → ∃ t, exec (.rackLoad rq slot rod) s = .next t ∧
            Settles s (placed id (fun _ => .rack) (some slot.toNat) .rackLoaded) t)))) ∧
    (s.Serves (requestOf rq 9 [slot]) →
      let found := s.ret.rods.find? fun r => r.slot == some slot.toNat
      let refused := fun code => ∃ t, exec (.rackUnload rq slot) s = .next t ∧
        Leaves [] s (s.taken.replied .exchange rq code []) t
      (63 < slot.toNat → refused .range) ∧
      (slot.toNat ≤ 63 →
        (found = none → refused .notFound) ∧
        (∀ d, found = some d →
          (busy → refused .state) ∧
          (¬busy → ∃ t, exec (.rackUnload rq slot) s = .next t ∧
            Settles s
              (placed d.id (fun st => if st = .retired then .retired else .offRig) none .rackUnloaded) t))))

/-- ROD_OP (R106, R107): the tests in order; the entry joins the op queue; from IDLE a unit begins at once: a
break-out of an empty string ends EMPTY, and else the claim is taken when the view is empty (R32) or waited for. -/
def Obligations.RodOpQueuesAndBegins : Prop :=
  ∀ (rq : ReqHead) (kind count : Byte) (s : State), s.mode = .run → s.straps.rod = true → s.AlarmsSettled →
    s.Serves (requestOf rq 11 [kind, count]) →
    let refused := fun code => ∃ t, exec (.rodOp rq kind count) s = .next t ∧
      Leaves [] s (s.taken.replied .exchange rq code []) t
    let barred := (∃ c, s.seq.state = .hold c ∨ s.seq.state = .fault c) ∨ s.ret.job = .closed ∨
      s.link.listenOnly = true
    (1 < kind.toNat ∨ count.toNat < 1 ∨ 32 < count.toNat → refused .range) ∧
    (∀ k : OpKind, kind.toNat = (if k = .makeUp then 0 else 1) → 1 ≤ count.toNat → count.toNat ≤ 32 →
      let e : OpEntry := ⟨k, count.toNat, rq.source, s.ret.jobTime⟩
      (barred → refused .state) ∧
      (¬barred → 8 ≤ s.seq.queue.length → refused .full) ∧
      (¬barred → s.seq.queue.length < 8 → s.seq.state ≠ .idle →
        ∃ t, exec (.rodOp rq kind count) s = .next t ∧
          Settles s (({ s.taken with seq := { s.seq with queue := s.seq.queue ++ [e] } }).replied .exchange rq
            .accepted []) t) ∧
      (¬barred → s.seq.state = .idle → s.seq.queue = [] → s.ret.claim.phase = .none →
        ∃ t, exec (.rodOp rq kind count) s = .next t ∧
          (k = .breakOut → s.ret.string = [] →
            t.seq.state = .idle ∧ t.seq.queue = [] ∧ t.ret.unit = none ∧ t.ret.claim = s.ret.claim ∧
            t.seq.lastOp = some ⟨.breakOut, .empty, some rq.source, some s.ret.jobTime⟩) ∧
          ((k = .breakOut → s.ret.string ≠ []) →
            t.seq.queue = [e] ∧ t.ret.unit = some ⟨k, 1, none, none, false⟩ ∧ t.claims.takeRequest = true ∧
            (s.viewHolds = false → s.claims.listen = none →
              t.seq.state = .claiming ∧ t.ret.claim = ⟨.connection, .pending⟩ ∧
              t.claims.settle = some (2 * s.statusPeriod)) ∧
            (s.viewHolds = true ∨ s.claims.listen.isSome = true →
              t.seq.state = .waitClaim ∧ t.ret.claim = s.ret.claim)) ∧
          ChangesOnly [.ret, .claims, .pumps, .spin, .depth, .link, .seq, .alarm] s t))

/-- ROD_ABORT and ROD_RESUME (R120, R121): an abort empties the op queue, ends a unit that only waits, and marks
one whose step runs on; a resume is refused as R121 says, and enters the step in hand anew, with its timer, its
outputs and the selection or check it makes on entry (R108 to R116), while the step does not end at once. The mark
that a clamp was driven, the abort mark on a resume, the requester and queue time in the last-op record, the mark
that the queue was emptied, and a resume without a unit are the model's reading (logs 22, 23, 26 and 41). -/
def Obligations.AbortAndResumeActOnTheUnit : Prop :=
  ∀ (rq : ReqHead) (s : State), s.mode = .run → s.straps.rod = true → s.AlarmsSettled →
    (s.Serves (requestOf rq 12 []) →
      (s.ret.unit = none →
        ∃ t, exec (.rodAbort rq) s = .next t ∧
          Leaves [] s (({ s.taken with seq := { s.seq with queue := [] } }).replied .exchange rq .done []) t) ∧
      (∀ u, s.ret.unit = some u →
        let waits := s.seq.state = .waitClaim ∨ s.seq.state = .claiming ∨
          (s.seq.state = .running ∧
            (u.kindOfStep = .waitPumps ∨ (u.kindOfStep = .waitPosition ∧ u.moved = false ∧
              (u.kind, u.step) ≠ (.breakOut, 11))))
        (waits →
          ∃ t, exec (.rodAbort rq) s = .next t ∧
            t.seq.queue = [] ∧ t.seq.state = .idle ∧ t.ret.unit = none ∧ t.ret.claim.phase = .none ∧
            t.claims.takeRequest = false ∧
            t.seq.lastOp = some ⟨u.kind, .aborted, s.seq.queue.head?.map (·.requester),
              s.seq.queue.head?.map (·.queued)⟩ ∧
            ChangesOnly [.ret, .claims, .pumps, .spin, .depth, .link, .seq, .alarm] s t) ∧
        (¬waits → s.seq.state ≠ .idle →
          ∃ t, exec (.rodAbort rq) s = .next t ∧
            Settles s
              (({ s.taken with seq := { s.seq with
                queue := []
                emptied := s.seq.emptied || !s.seq.queue.isEmpty
                aborted := s.seq.aborted || decide (s.seq.state = SeqState.running) } }).replied .exchange rq .done [])
              t))) ∧
    (s.Serves (requestOf rq 13 []) →
      let stopped := (∃ c, s.seq.state = .hold c ∨ s.seq.state = .fault c) ∧ s.link.listenOnly = false ∧
        s.ret.claim.phase = .active
      (¬stopped →
        ∃ t, exec (.rodResume rq) s = .next t ∧ Leaves [] s (s.taken.replied .exchange rq .state []) t) ∧
      (stopped → s.otherClaims ≠ [] →
        ∃ t, exec (.rodResume rq) s = .next t ∧ Leaves [] s (s.taken.replied .exchange rq .claimed []) t) ∧
      (stopped → s.otherClaims = [] → s.ret.unit = none → s.seq.queue = [] →
        ∃ t, exec (.rodResume rq) s = .next t ∧ t.seq.state = .idle ∧ t.seq.queue = [] ∧ t.ret.unit = none ∧
          t.ret.claim.phase = .none ∧ t.claims.takeRequest = false ∧
          ChangesOnly [.ret, .claims, .pumps, .spin, .depth, .link, .seq, .alarm] s t) ∧
      (∀ u, stopped → s.otherClaims = [] → s.ret.unit = some u →
        let k := u.kindOfStep
        let again : Sequencer := { s.seq with
          state := .running
          phase := .first
          spin := .none
          aborted := s.seq.aborted && decide (s.seq.state ≠ .hold .aborted) }
        let timed := fun ms : Nat => { again with timer := some ms }
        let entered := fun (q : Sequencer) (r : Retained) =>
          ∃ t, exec (.rodResume rq) s = .next t ∧ t.seq = q ∧ t.ret = r ∧
            t.alarm.isActive .sequenceHold = q.state.stopped ∧ ChangesOnly [.ret, .link, .seq, .alarm] s t
        let fails := fun cause => entered { again.still with state := .fault cause, timer := none } s.ret
        let driven := { s.ret with unit := some { u with moved := true } }
        let last := decide ((u.kind, u.step) = (.makeUp, 10))
        let selects := (u.kind, u.step) = (.makeUp, 7)
        let slots := (List.range 64).map fun i => (s.ret.carousel + i) % 64
        let rodAt := fun n => s.ret.rods.find? fun r : Rod => r.slot == some n
        (k = .clamp → s.pins.clampClosed = false → entered (timed 5000) { driven with clampOut := true }) ∧
        (k = .release → s.pins.clampOpen = false →
          entered { timed 5000 with retract := s.seq.retract || last }
            { driven with clampOut := false, gripOut := s.ret.gripOut && !last }) ∧
        (k = .waitPumps → s.pumpsDown = false →
          entered (timed 20000)
            { s.ret with
                clampOut := decide (s.ret.hold.hold = .clamped)
                gripOut := s.ret.rods.any fun r => r.state == .loader }) ∧
        (k = .waitPosition → ¬selects → s.headNear (s.targetHeight u) = false → entered (timed 60000) s.ret) ∧
        (selects →
          let usable := slots.find? fun n => (rodAt n).any fun r => r.state == .rack && !r.due
          (128 ≤ s.ret.string.length → fails .stringFull) ∧
          (s.ret.string.length < 128 → usable = none → fails .noRod) ∧
          (∀ n r, s.ret.string.length < 128 → usable = some n → rodAt n = some r →
            s.headNear (s.cfg Item.clampHeight 0 + s.rodLength r.id) = false →
            entered (timed 60000) { s.ret with unit := some { u with rod := some r.id, slot := some n } })) ∧
        (k = .fetch → u.slot ≠ some s.pins.slotCode → entered { timed 15000 with index := true } s.ret) ∧
        (k = .grip → s.pins.gripped = false → entered (timed 5000) { s.ret with gripOut := true }) ∧
        (k = .store →
          let empty := slots.find? fun n => (rodAt n).isNone
          (empty = none → fails .rackFull) ∧
          (∀ n, empty = some n → n ≠ s.pins.slotCode →
            entered { timed 15000 with index := true } { s.ret with unit := some { u with slot := some n } })) ∧
        (∀ kind, k = .spin kind →
          let claimed := s.claims.listen.isSome = true ∨ s.ret.claim.kind ≠ .connection ∨ s.spin.state = .running
          let room := s.link.outstanding.length < 4 ∧ s.link.count .exchange < 8
          let asked := fun r : SpinRequest => { timed 20000 with spin := r }
          (s.depth.headSource = none → fails .spin) ∧
          (∀ dest, s.depth.headSource = some dest → dest ≠ s.straps.number →
            (¬room → entered (asked (.waiting dest kind)) s.ret) ∧
            (room → ∃ t, exec (.rodResume rq) s = .next t ∧ t.ret = s.ret ∧
              (∃ o : OutEntry, t.link.outstanding = s.link.outstanding ++ [o] ∧ o.dest = dest ∧ o.code = 15 ∧
                (∀ p ∈ s.link.outstanding, p.tag ≠ o.tag) ∧ t.seq = asked (.sent dest o.tag)) ∧
              ChangesOnly [.ret, .link, .seq, .alarm] s t)) ∧
          (s.depth.headSource = some s.straps.number →
            (claimed → fails .spin) ∧
            (¬claimed →
              let n := (s.spin.number + 1) % 256
              let make := decide (kind = .make ∨ kind = .latch)
              ∃ t, exec (.rodResume rq) s = .next t ∧ t.ret = s.ret ∧
                t.seq = asked (.accepted s.straps.number n) ∧ t.spin.state = .running ∧ t.spin.number = n ∧
                t.spin.owner = some s.straps.number ∧ t.spin.kind = some kind ∧ t.spin.timer = some 15000 ∧
                t.spin.makeOut = make ∧ t.spin.breakOut = !make ∧ t.spin.permit = s.straps.head ∧
                ChangesOnly [.ret, .link, .seq, .spin, .depth, .alarm] s t)))))

/-- ROD_CONFIRM (R122): the tests in order; the rod at the place declared, the hold record, the event, the op queue
emptied, the unit ended, the claim released, which ends a spin of the own claim ABANDONED (R118), and the handler
outputs left as they stand. With the rod ID absent (65,535) only the hold record is read (R173). The requester and
queue time of the last-op record, from the head entry that stood when the queue was emptied and absent without one,
are the model's reading (log 26). The bits of the hold record argument are the model's choice (log 66). -/
def Obligations.RodConfirmSetsTheRecords : Prop :=
  ∀ (rq : ReqHead) (rod : BitVec 16) (place slot hold : Byte) (s : State), s.mode = .run → s.straps.rod = true →
    s.AlarmsSettled → s.Serves (requestOf rq 14 (leBytes 2 rod.toNat ++ [place, slot, hold])) →
    let refused := fun code => ∃ t, exec (.rodConfirm rq rod place slot hold) s = .next t ∧
      Leaves [] s (s.taken.replied .exchange rq code []) t
    let stopped := (∃ c, s.seq.state = .hold c ∨ s.seq.state = .fault c) ∧ s.link.listenOnly = false
    let id := rod.toNat
    let named := id ≠ 65535
    let rec' := HoldRec.ofCode (hold.toNat % 8)
    let ranged := (rec' = ⟨.hung, .latched, false⟩ ∨ rec' = ⟨.clamped, .free, false⟩ ∨
        (rec'.hold = .clamped ∧ rec'.head = .latched)) ∧
      (named → 1 ≤ id ∧ id ≤ 4095 ∧ place.toNat ≤ 3 ∧ (place.toNat = 1 → slot.toNat ≤ 63))
    let found := s.ret.rods.find? fun r => r.id == id
    let moved := fun (st : RodState) (spot : Option Nat) =>
      s.ret.rods.map fun r => if r.id = id then { r with state := st, slot := spot } else r
    let out := s.ret.string.filter (· != id)
    let placed : Option (List Rod × List Nat) :=
      match found with
      | none => some (s.ret.rods, s.ret.string)
      | some d =>
        if place.toNat = 0 then some (moved (if d.state = .retired then .retired else .offRig) none, out)
        else if place.toNat = 1 then
          if ∃ r ∈ s.ret.rods, r.slot = some slot.toNat ∧ r.id ≠ id then none
          else some (moved (if d.state = .retired then .retired else .rack) (some slot.toNat), out)
        else if d.state = .retired then none
        else if place.toNat = 2 then
          if ∃ r ∈ s.ret.rods, r.state = .loader ∧ r.id ≠ id then none else some (moved .loader none, out)
        else if id ∈ s.ret.string then
          if s.ret.string.getLast? = some id then some (s.ret.rods, s.ret.string) else none
        else if s.ret.string.length < 128 then some (moved .string none, out ++ [id])
        else none
    let result := (if named then placed else some (s.ret.rods, s.ret.string)).bind fun r =>
      if rec'.above = true ∧ r.2 = [] then none else some r
    (s.ret.rods.map (·.id)).Nodup →
    (¬stopped → refused .state) ∧
    (stopped → ¬ranged → refused .range) ∧
    (stopped → ranged → named → found = none → refused .notFound) ∧
    (stopped → ranged → (named → found.isSome = true) →
      (result = none → refused .state) ∧
      (∀ rods string, result = some (rods, string) →
        ∃ t, exec (.rodConfirm rq rod place slot hold) s = .next t ∧
          t.ret.rods = rods ∧ t.ret.string = string ∧ t.ret.hold = rec' ∧
          t.ret.eventNo = (s.ret.eventNo + 1) % 65536 ∧
          t.ret.clampOut = s.ret.clampOut ∧ t.ret.gripOut = s.ret.gripOut ∧
          t.ret.unit = none ∧ t.ret.claim.phase = .none ∧ t.claims.takeRequest = false ∧
          (s.spin.state = .running → s.spin.owner = some s.straps.number → s.ret.claim.phase ≠ .none →
            t.spin = { s.spin with
              state := .abandoned
              timer := none
              makeOut := false
              breakOut := false
              permit := s.straps.head && s.claims.listen.isNone && s.otherClaims.isEmpty }) ∧
          t.seq.state = .idle ∧ t.seq.queue = [] ∧ t.seq.timer = none ∧
          t.seq.lastOp = (match s.ret.unit with
            | some u => some ⟨u.kind, .confirmed, s.seq.queue.head?.map (·.requester),
                s.seq.queue.head?.map (·.queued)⟩
            | none => s.seq.lastOp) ∧
          t.alarm.isActive .sequenceHold = false ∧
          ChangesOnly [.ret, .claims, .pumps, .spin, .depth, .link, .seq, .alarm] s t))

/-- SPIN, SPIN_DONE_INPUT and SPIN_TIMER_EXPIRY (R42, R88, R117, R118, R119): the tests in order; an accepted spin
runs with the next number, its owner and kind, a 15 s timer, its direction and the permit on; it ends DONE when the
input becomes asserted, FAILED when the timer expires, and ABANDONED when its owner's claim leaves the view, here
by a CLAIM frame with phase NONE or by CLAIM_CLEAR (by the own release: `RodConfirmSetsTheRecords`), each change
calling for a HEAD frame; an own spin that fails is a FAULT of its step. That an expiry of a spin timer that does
not run changes nothing is the model's choice (log 3). -/
def Obligations.SpinRunsAndEnds : Prop :=
  (∀ (rq : ReqHead) (kind : Byte) (s : State), s.mode = .run → s.straps.head = true → s.AlarmsSettled →
    s.Serves (requestOf rq 15 [kind]) →
    let refused := fun code => ∃ t, exec (.spin rq kind) s = .next t ∧
      Leaves [] s (s.taken.replied .exchange rq code []) t
    let claimed := s.claims.listen.isSome = true ∨
      (∀ c ∈ s.claimView, ¬(c.station = rq.source ∧ c.kind = .connection ∧ c.phase = .active)) ∨
      ∃ c ∈ s.claimView, c.station ≠ rq.source ∧ c.phase = .active
    (3 < kind.toNat → refused .range) ∧
    (kind.toNat ≤ 3 → claimed → refused .claimed) ∧
    (kind.toNat ≤ 3 → ¬claimed → s.spin.state = .running → refused .busy) ∧
    (∀ k, SpinKind.ofCode kind.toNat = some k → ¬claimed → s.spin.state ≠ .running →
      let n := (s.spin.number + 1) % 256
      let make := decide (k = .make ∨ k = .latch)
      let w : State := { s.taken with spin := ⟨.running, n, some rq.source, some k, some 15000, make, !make, true⟩ }
      ∃ t, exec (.spin rq kind) s = .next t ∧
        Settles s (w.headCall.replied .exchange rq .accepted [byteOf n]) t)) ∧
  (∀ (k : Nat) (p : PeerEntry) (c : Instr) (s : State), s.mode = .run → s.AlarmsSettled → s.Knows k p →
    p.claim.phase ≠ .none → s.spin.state = .running → s.spin.owner = some k →
    ((∃ bytes f kind, c = .frameReceived bytes ∧ s.Hears bytes f ∧ f.source = k ∧ f.body = .claim ⟨kind, .none⟩ ∧
        p.stale = false) ∨
      ∃ rq station, c = .claimClear rq station ∧ s.Serves (requestOf rq 6 [station]) ∧ station.toNat = k ∧
        1 ≤ k ∧ k ≤ 30 ∧ k ≠ s.straps.number ∧ p.stale = true) →
    ∃ t, exec c s = .next t ∧
      (t.peer? k).map (·.claim.phase) = some .none ∧ (∀ j, j ≠ k → t.peer? j = s.peer? j) ∧
      t.spin = { s.spin with
        state := .abandoned
        timer := none
        makeOut := false
        breakOut := false
        permit := s.straps.head && s.claims.listen.isNone && t.claimView.isEmpty } ∧
      (s.straps.head = true →
        (s.depth.holdoff.isSome = true → t.depth = { s.depth with callKept := true }) ∧
        (s.depth.holdoff = none → t.depth.holdoff = some 200 ∧ t.depth.lastHanded = some s.depth.h)) ∧
      ChangesOnly [.peers, .ret, .claims, .pumps, .spin, .depth, .link, .seq, .alarm] s t) ∧
  ∀ (c : Instr) (s : State), s.mode = .run → s.AlarmsSettled → c = .spinDoneInput true ∨ c = .spinTimerExpiry →
    let done := decide (c = .spinDoneInput true)
    let w : State := if done then { s with pins := { s.pins with spinDone := true } } else s
    let ended : State := { w with spin := { s.spin with
      state := if done then .done else .failed
      timer := none
      makeOut := false
      breakOut := false
      permit := s.straps.head && s.claims.listen.isNone && !s.viewHolds } }
    let ends := s.spin.state = .running ∧ (if done then s.pins.spinDone = false else s.spin.timer.isSome = true)
    (¬ends → ∃ t, exec c s = .next t ∧ Leaves [] s w t) ∧
    (ends → (∀ k n, s.seq.spin ≠ .accepted k n) →
      ∃ t, exec c s = .next t ∧ Settles s ended.headCall t) ∧
    (ends → done = false → s.seq.spin = .accepted s.straps.number s.spin.number → s.seq.state = .running →
      (∃ u k, s.ret.unit = some u ∧ u.kindOfStep = .spin k) →
      ∃ t, exec c s = .next t ∧ t.seq.state = .fault .spin ∧ t.seq.timer = none ∧ t.spin = ended.spin ∧
        ChangesOnly [.pins, .ret, .spin, .depth, .link, .seq, .alarm] s t) ∧
    ∃ t, exec (.spinDoneInput false) s = .next t ∧
      Leaves [] s { s with pins := { s.pins with spinDone := false } } t

/-- DESCRIBE (R136, R137, R153, R162): the tests in order; the record takes the lithology, class and source; a
change of the class in force sets the current charge, moves the sum by the difference and posts an adjustment,
which after the close also goes to the supplement. DOWN_BEGIN, DOWN_END and ADDITIVE (R150, R154, R138): STATE in
CLOSED and without a change of the flag; else the flag changes with its mark, or one more unrecorded mark when the
list holds 96; and the units of a kind rise, saturating. -/
def Obligations.RecordRequestsAreTaken : Prop :=
  (∀ (rq : ReqHead) (interval : BitVec 16) (lithology cls source : Byte) (s : State), s.mode = .run →
    s.straps.record = true → s.AlarmsSettled →
    s.Serves (requestOf rq 16 (leBytes 2 interval.toNat ++ [lithology, cls, source])) →
    let refused := fun code => ∃ t, exec (.describe rq interval lithology cls source) s = .next t ∧
      Leaves [] s (s.taken.replied .exchange rq code []) t
    let i := interval.toNat
    let found := s.ret.intervals.find? fun iv : Interval => iv.index == i
    let ranged := lithology.toNat ≤ 63 ∧ 1 ≤ cls.toNat ∧ cls.toNat ≤ 4 ∧ source.toNat ≤ 1
    (¬ranged → refused .range) ∧
    (ranged → found = none → refused .notFound) ∧
    (∀ iv, ranged → found = some iv →
      let barred := iv.closedTime = none ∨ (source.toNat = 1 ∧ iv.sample = .inTransit) ∨
        (source.toNat = 0 ∧ iv.source = some .sample)
      let src := if source.toNat = 0 then DescSource.driller else .sample
      let described := fun iv : Interval =>
        { iv with lithology := some lithology.toNat, cls := some cls.toNat, source := some src }
      let old := iv.cls.getD (s.cfg Item.defaultClass 0)
      let l := s.cfg Item.intervalLength 0
      let band := s.bandOf ((i + 1) * l)
      let charge := min 4294967295
        ((l * s.cfg Item.bandRate band * s.cfg Item.classPercent cls.toNat + 50000) / 100000)
      let was := iv.current.getD 0
      let full := 128 ≤ s.ret.adjustments.length
      let late := s.ret.job = .closed
      (barred → refused .state) ∧
      (¬barred → old = cls.toNat →
        ∃ t, exec (.describe rq interval lithology cls source) s = .next t ∧
          Settles s
            (({ s.taken with ret := { s.ret with
              intervals := s.ret.intervals.map fun iv : Interval => if iv.index = i then described iv else iv } }).replied
                .exchange rq .done []) t) ∧
      (¬barred → old ≠ cls.toNat →
        ∃ t, exec (.describe rq interval lithology cls source) s = .next t ∧
          Settles s
            (({ s.taken with ret := { s.ret with
              intervals := s.ret.intervals.map fun iv : Interval =>
                if iv.index = i then { described iv with current := some charge } else iv
              sumCurrent :=
                if was ≤ charge then min 4294967295 (s.ret.sumCurrent + (charge - was))
                else s.ret.sumCurrent - (was - charge)
              adjustments := (if full then s.ret.adjustments.drop 1 else s.ret.adjustments) ++
                [Adjustment.mk i old cls.toNat was charge s.ret.jobTime rq.source (decide late)]
              droppedAdj := if full then min 65535 (s.ret.droppedAdj + 1) else s.ret.droppedAdj
              additions := if late then min 4294967295 (s.ret.additions + (charge - was)) else s.ret.additions
              reductions :=
                if late then min 4294967295 (s.ret.reductions + (was - charge)) else s.ret.reductions } }).replied
                .exchange rq .done []) t))) ∧
  ∀ (rq : ReqHead) (s : State), s.mode = .run → s.straps.record = true → s.AlarmsSettled →
    let closed := s.ret.job = .closed
    let marked := fun (down : Bool) (kind : MarkKind) (code : Nat) =>
      ({ s.taken with ret := { s.ret with
        down := down
        zones :=
          if s.ret.zones.length < 96 then s.ret.zones ++ [ZoneEntry.mark kind s.ret.hole s.ret.jobTime code]
          else s.ret.zones
        unrecorded :=
          if s.ret.zones.length < 96 then s.ret.unrecorded else min 65535 (s.ret.unrecorded + 1) } }).replied
        .exchange rq .done []
    (∀ cause : Byte, s.Serves (requestOf rq 18 [cause]) →
      (closed ∨ s.ret.down = true →
        ∃ t, exec (.downBegin rq cause) s = .next t ∧ Leaves [] s (s.taken.replied .exchange rq .state []) t) ∧
      (¬closed → s.ret.down = false →
        ∃ t, exec (.downBegin rq cause) s = .next t ∧ Settles s (marked true .downBegin cause.toNat) t)) ∧
    (s.Serves (requestOf rq 19 []) →
      (closed ∨ s.ret.down = false →
        ∃ t, exec (.downEnd rq) s = .next t ∧ Leaves [] s (s.taken.replied .exchange rq .state []) t) ∧
      (¬closed → s.ret.down = true →
        ∃ t, exec (.downEnd rq) s = .next t ∧ Settles s (marked false .downEnd 0) t)) ∧
    (∀ (kind : Byte) (units : BitVec 16), s.Serves (requestOf rq 20 (kind :: leBytes 2 units.toNat)) →
      let ranged := kind.toNat ≤ 7 ∧ 1 ≤ units.toNat ∧ units.toNat ≤ 1000
      (¬ranged →
        ∃ t, exec (.additive rq kind units) s = .next t ∧
          Leaves [] s (s.taken.replied .exchange rq .range []) t) ∧
      (ranged → closed →
        ∃ t, exec (.additive rq kind units) s = .next t ∧
          Leaves [] s (s.taken.replied .exchange rq .state []) t) ∧
      (ranged → ¬closed → s.ret.units.length = 8 →
        ∃ t, exec (.additive rq kind units) s = .next t ∧
          t.ret.units.length = 8 ∧
          (∀ k, k < 8 → t.ret.units.getD k 0 =
            if k = kind.toNat then min 4294967295 (s.ret.units.getD k 0 + units.toNat)
            else s.ret.units.getD k 0) ∧
          t.ret = { s.ret with units := t.ret.units } ∧
          ChangesOnly [.ret, .link, .alarm] s t))

/-- JOB_CLOSE (R58, R143, R158 to R161): the tests in order; an abrupt close is complete at once, and at a RECORD
station loses every tagged sample, closes every zone, appends a CLOSE mark and freezes the statement; a normal
close waits in CLOSING while a RECORD station has a sample in the lag queue or an open zone, or while a RECORD peer
of any other station has not reported CLOSED, and is complete at once where nothing is left to wait for. That a
station without the RECORD role has no close kind while it is CLOSING is the model's reading (log 59). -/
def Obligations.JobCloseEndsTheJob : Prop :=
  ∀ (rq : ReqHead) (mode : Byte) (s : State), s.mode = .run → s.AlarmsSettled → s.Serves (requestOf rq 22 [mode]) →
    let refused := fun code => ∃ t, exec (.jobClose rq mode) s = .next t ∧
      Leaves [] s (s.taken.replied .exchange rq code []) t
    let waits := s.straps.record = true ∧ (s.ret.lag ≠ [] ∨ ∃ z ∈ s.ret.zones, z.openKind ≠ none) ∨
      s.straps.record = false ∧ ∃ p ∈ s.peers, ∃ m, p.status = some m ∧ m.roles.record = true ∧ m.job ≠ .closed
    let closing : State := { s.taken with ret := { s.ret with
      job := .closing
      close := .processing
      closeKind := if s.straps.record then some .normal else none
      closingSeconds := 0 } }
    (1 < mode.toNat → refused .range) ∧
    (mode.toNat ≤ 1 → s.ret.job = .closed → refused .state) ∧
    (mode.toNat = 0 → s.ret.job = .closing → refused .state) ∧
    (mode.toNat = 0 → s.ret.job = .opened → waits →
      ∃ t, exec (.jobClose rq mode) s = .next t ∧ Settles s (closing.replied .exchange rq .done []) t) ∧
    ((mode.toNat = 0 ∧ s.ret.job = .opened ∧ ¬waits ∨ mode.toNat = 1 ∧ (s.ret.job = .opened ∨ s.ret.job = .closing)) →
      ∃ t, exec (.jobClose rq mode) s = .next t ∧
        t.ret.job = .closed ∧ t.ret.close = .complete ∧
        t.ret.closeKind = some (if mode.toNat = 0 then .normal else .abrupt) ∧
        t.billing.jobTimer = none ∧
        (∀ p : PumpId, (t.chan p).target = 0 ∧ (t.chan p).state ≠ .starting ∧ (t.chan p).state ≠ .running ∧
          (t.chan p).state ≠ .stalled) ∧
        (s.straps.record = true →
          t.ret.lag = [] ∧ (∀ z ∈ t.ret.zones, z.openKind = none) ∧
          (∀ iv ∈ s.ret.intervals, (∃ tag ∈ s.ret.lag, tag.index = iv.index) →
            ∃ iv' ∈ t.ret.intervals, iv'.index = iv.index ∧ iv'.sample = .lost ∧
              iv'.sampleTime = some s.ret.jobTime) ∧
          (∃ f, t.ret.frozen = some f ∧ f.total = s.total ∧ f.jobTime = s.ret.jobTime ∧ f.units = s.ret.units) ∧
          (s.ret.zones.length < 96 →
            t.ret.zones.getLast? =
              some (.mark .close s.ret.hole s.ret.jobTime (if mode.toNat = 0 then 0 else 1))) ∧
          (96 ≤ s.ret.zones.length → t.ret.unrecorded = min 65535 (s.ret.unrecorded + 1))) ∧
        ChangesOnly [.ret, .billing, .pumps, .link, .alarm] s t)

/-- JOB_CLEAR (R164, R22): STATE unless the job is CLOSED; else answered DONE, and then the station is in CONFIG
with every job record empty, its items kept, every output de-asserted, and the job state NONE written. That the
part of a count of pulses goes while h and the position last handed stay (logs 20 and 42), that a running 200 ms of
HEAD frames and a kept call go (log 56), that events held by an UNSURE view go (log 72), that the time of a pump's last
accepted edge stays (log 18), the captured period 0 (log 47), the hold record before a lock (log 2) and the effective
stroke volume and the pressure limit before a lock (log 31) are the model's choice. -/
def Obligations.JobClearEmptiesTheRecords : Prop :=
  ∀ (rq : ReqHead) (s : State), s.mode = .run → s.AlarmsSettled → s.Serves (requestOf rq 23 []) →
    (s.ret.job ≠ .closed →
      ∃ t, exec (.jobClear rq) s = .next t ∧ Leaves [] s (s.taken.replied .exchange rq .state []) t) ∧
    (s.ret.job = .closed →
      ∃ t, exec (.jobClear rq) s = .next t ∧
        t.mode = .config ∧ t.link = (s.taken.replied .exchange rq .done []).link ∧ t.outs = Outputs.off ∧
        t.ret = { Retained.cold with
          items := s.ret.items, digest := s.ret.digest, hole := s.cfg Item.collarDepth 0 } ∧
        t.peers.map (fun p => (p.station, p.stale, p.status, p.claim, p.strokesA.last, p.strokesB.last)) =
          s.peers.map (fun p => (p.station, p.stale, p.status, p.claim, p.strokesA.last, p.strokesB.last)) ∧
        (∀ p ∈ t.peers, p.strokesA.baseline = false ∧ p.strokesB.baseline = false) ∧
        t.claims = ClaimUnit.start ∧ t.thresholds = ⟨.start, .start, .start⟩ ∧
        (∀ p, t.chan p = { PumpChannel.start with lastEdge := (s.chan p).lastEdge }) ∧
        t.circ = { CircUnit.start with heardSource := if s.isPit then some s.straps.number else none } ∧
        t.depth = { DepthUnit.start with h := s.depth.h, lastHanded := s.depth.lastHanded } ∧ t.rod = RodUnit.start ∧
        t.seq = Sequencer.start ∧ t.spin = SpinService.start ∧ t.strata = ⟨[]⟩ ∧ t.billing = ⟨none, false, false⟩ ∧
        t.alarm = ⟨0, 0⟩ ∧ ImagesFollow s t ∧
        t.pending = s.pending ∧ t.straps = s.straps ∧ t.pins = s.pins ∧ t.startKind = s.startKind ∧
        t.startSource = s.startSource ∧ t.clockMs = s.clockMs)

/-! ## Field lines and timers -/

/-- SETTLE_EXPIRY and LISTEN_WINDOW_END (R32, R40, R42, R98, R107): a settled PENDING claim becomes ACTIVE and is
announced where no other claim stands in view, and takes a waiting sequencer to WAIT_PUMPS; otherwise it settles
again. The end of the listen window takes a waiting claim, evaluates the permit, and makes the view SURE where no
ROD peer is heard. That an expiry of a timer that does not run does nothing (log 3), and that events still held when
the listen window makes the view SURE are dropped (log 72), are the model's choice. -/
def Obligations.ClaimTimersRunOut : Prop :=
  ∀ s : State, s.mode = .run → s.AlarmsSettled →
    let period := s.cfg Item.statusPeriod 0
    let settled := fun n : Option Nat => { s.claims with settle := n }
    let active : State := { s with ret := { s.ret with claim := ⟨.connection, .active⟩ }, claims := settled none }
    (s.claims.settle = none → ∃ t, exec .settleExpiry s = .next t ∧ Leaves [] s s t) ∧
    (s.claims.settle.isSome = true → s.ret.claim.phase ≠ .pending →
      ∃ t, exec .settleExpiry s = .next t ∧ Leaves [] s { s with claims := settled none } t) ∧
    (s.claims.settle.isSome = true → s.ret.claim.phase = .pending → s.otherClaims ≠ [] →
      ∃ t, exec .settleExpiry s = .next t ∧ Leaves [] s { s with claims := settled (some (2 * period)) } t) ∧
    (s.claims.settle.isSome = true → s.ret.claim.phase = .pending → s.otherClaims = [] →
      (s.spin.state = .running → s.spin.owner = some s.straps.number) →
      (s.seq.state ≠ .claiming →
        ∃ t, exec .settleExpiry s = .next t ∧ Settles s active.announceClaim t) ∧
      (∀ u, s.seq.state = .claiming → s.ret.unit = some u → s.pumpsDown = false →
        let w := active.announceClaim
        ∃ t, exec .settleExpiry s = .next t ∧
          Settles s
            { w with
              ret := { w.ret with
                unit := some { u with step := 2 }
                clampOut := w.ret.hold.hold == .clamped
                gripOut := (rodInLoader w.ret.rods).isSome }
              seq := { w.seq with state := SeqState.running, phase := .first, timer := some 20000, spin := .none } }
            t)) ∧
    (s.claims.listen = none → ∃ t, exec .listenWindowEnd s = .next t ∧ Leaves [] s s t) ∧
    (s.claims.listen.isSome = true →
      let takes := s.claims.takeRequest = true ∧ s.ret.claim.phase = .none ∧ s.claimView = [] ∧
        s.link.listenOnly = false
      let unheard := s.straps.rod = false ∧ s.rod.source = none ∧ s.rod.sure = false
      let on := s.straps.head && (s.claimView.isEmpty || s.spin.state == .running)
      let w : State := { s with claims := { s.claims with listen := none }, spin := { s.spin with permit := on } }
      (¬takes → ¬unheard →
        ∃ t, exec .listenWindowEnd s = .next t ∧ Settles s (if on = s.spin.permit then w else w.headCall) t) ∧
      (takes → s.spin.state ≠ .running →
        ∃ t, exec .listenWindowEnd s = .next t ∧
          t.ret.claim = ⟨.connection, .pending⟩ ∧ t.claims = ⟨true, some (2 * period), none⟩ ∧
          t.seq = { s.seq with state := if s.seq.state = .waitClaim then .claiming else s.seq.state } ∧
          t.pumps = ⟨s.pumps.a.claimed, s.pumps.b.claimed⟩ ∧ t.spin.permit = false ∧
          ChangesOnly [.ret, .claims, .link, .pumps, .spin, .depth, .rod, .seq, .alarm] s t) ∧
      (unheard →
        ∃ t, exec .listenWindowEnd s = .next t ∧ t.claims.listen = none ∧ t.rod.sure = true ∧
          t.rod.held = [] ∧ t.depth.bitDepth = t.depthNow ∧
          ChangesOnly [.ret, .claims, .link, .pumps, .spin, .depth, .rod, .seq, .alarm] s t))

/-- THRESHOLD_SAMPLE (R45, R46, R61, R70): four comparisons halve the range; two readings in a row that agree
become the accepted step and set the known flag; the pump unit is told of a new pressure step, which it compares
with the limit in force (R28), and the balance record of a new return step. That the step the input stands in at
each comparison is an operand, and that a channel whose timer does not run takes no sample, are the model's choice
(logs 3 and 10). -/
def Obligations.ThresholdSampleIsTaken : Prop :=
  ∀ (c : ThresholdId) (first second third fourth : Nat) (s : State), s.mode = .run → s.AlarmsSettled →
    let b3 := if 8 ≤ first then 8 else 0
    let b2 := if b3 + 4 ≤ second then b3 + 4 else b3
    let b1 := if b2 + 2 ≤ third then b2 + 2 else b2
    let reading := if b1 + 1 ≤ fourth then b1 + 1 else b1
    let old := s.thresholds.get c
    let agrees := decide (old.last = some reading)
    let new : Threshold :=
      ⟨some reading, if agrees then reading else old.accepted, old.known || agrees, some 100⟩
    let told := new.accepted ≠ old.accepted ∨ new.known ≠ old.known
    let w : State := { s with thresholds := s.thresholds.set c new }
    let step := exec (.thresholdSample c first second third fourth) s
    (first = second → second = third → third = fourth → reading = min 15 first) ∧
    (old.timer = none → ∃ t, step = .next t ∧ Leaves [] s s t) ∧
    (old.timer.isSome = true → c = .pit ∨ ¬told → ∃ t, step = .next t ∧ Leaves [] s w t) ∧
    (old.timer.isSome = true → told → c = .pressure →
      let test := fun ch : PumpChannel =>
        { ch with pressureHigh :=
            ch.pressureHigh && !(new.known && decide (new.accepted < ch.limit)) }
      ∃ t, step = .next t ∧ Settles s { w with pumps := ⟨test s.pumps.a, test s.pumps.b⟩ } t) ∧
    (old.timer.isSome = true → told → c = .ret →
      ∃ t, step = .next t ∧ t.thresholds = w.thresholds ∧ t.circ = { s.circ with heardReturn := some reading } ∧
        (s.strataOn = false → Settles s { w with circ := { s.circ with heardReturn := some reading } } t) ∧
        ChangesOnly [.thresholds, .circ, .ret, .billing, .pumps, .link, .alarm] s t)

/-- STROKE_EDGE (R48, R49, R50, R55, R59, R60, R61, R62, R65, R135, R159): an edge in use is counted, credited to
V, captures a period when the reference is valid, and calls for a STROKES frame; a capture takes the configured
pressure limit (R28), makes STARTING RUNNING and in RUNNING moves the staged duty by the error and the pressure. V
releases the tags whose marks it has reached, each making its interval LOST or SURFACED with the job time; in
CLOSING the last of them may complete the close, which checks the total against the ceiling (R157) and stops the
pumps before the capture (R58). An edge not in use only reads the clock. The time is an operand, and pressure-high
is set by every capture that leaves the count at 3: the model's choice (logs 4 and 48). -/
def Obligations.StrokeEdgeCountsAndCaptures : Prop :=
  ∀ (p : PumpId) (e : Edge) (now : Nat) (s : State), s.mode = .run → s.AlarmsSettled →
    let v := min 281474976710655 (s.ret.pumped + (s.chan p).effVolume)
    let rises := s.strataOn = true ∧ s.ret.pumped ≠ v
    let due := fun g : LagTag => decide (g.mark ≤ v)
    let released := if rises then s.ret.lag.takeWhile due else []
    let left := if rises then s.ret.lag.dropWhile due else s.ret.lag
    let lost := s.circ.heardReturn = some 0 ∨ s.ret.balState = .totalLoss
    let closes := rises ∧ s.ret.job = .closing ∧ left = [] ∧ ∀ z ∈ s.ret.zones, z.openKind = none
    let ceiling := s.cfg Item.ceiling 0
    let reached := ceiling ≠ 0 ∧ ceiling ≤ s.total
    let near := ceiling ≠ 0 ∧ ceiling * 9 ≤ s.total * 10
    let ended := fun c : PumpChannel =>
      let c := { c with target := 0 }
      let off := { c with staged := 0, startTimer := none, highCount := 0 }
      if c.state = .starting ∨ c.state = .running then
        { off with state := if c.strokeStopped then .stopped else .stopping }
      else if c.state = .stalled then { off with state := .stopped }
      else c
    let pumps : Pumps := if closes then ⟨ended s.pumps.a, ended s.pumps.b⟩ else s.pumps
    let c := if closes then ended (s.chan p) else s.chan p
    let clock := max s.clockMs now
    let used := s.straps.pump = true ∧ s.cfg Item.fitted (pumpCode p) = 1 ∧
      (e = .rising ↔ s.cfg Item.edgePolarity (pumpCode p) = 0) ∧
      ∀ last, c.lastEdge = some last → last + 200 ≤ now
    let press := s.thresholds.pressure
    let limit := s.cfg Item.pressureLimit (pumpCode p)
    (¬used → ∃ t, exec (.strokeEdge p e now) s = .next t ∧ Leaves [] s { s with clockMs := clock } t) ∧
    (used →
      let edged := { c with lastEdge := some now, refValid := true, stoppedTimer := some 3000, strokeStopped := false }
      let period := min 65535 (now - c.lastEdge.getD 0)
      let spm := min 255 (60000 / period)
      let timed := { edged with period := period, spm := spm, limit := limit }
      let err := if spm ≤ c.target then c.target - spm else spm - c.target
      let by' := min 16 (max 1 (err / 2))
      let duty :=
        if err ≤ 2 then c.staged
        else if spm < c.target then max 1 (min 255 (c.staged + by'))
        else max 1 (min 255 (c.staged - by'))
      let high := press.known && decide (limit + 2 ≤ press.accepted)
      let count := if high then min 3 (c.highCount + 1) else 0
      let staged :=
        if high then max 1 (min duty (c.staged - 8))
        else if press.known && decide (press.accepted < limit) then duty
        else min duty c.staged
      let below := press.known && decide (press.accepted < limit)
      let ruled :=
        if c.refValid = false then edged
        else if c.state = .starting then
          { timed with state := .running, startTimer := none, pressureHigh := c.pressureHigh && !below }
        else if c.state = .running then
          { timed with
            staged := staged, highCount := count, pressureHigh := (c.pressureHigh || count == 3) && !below }
        else { timed with pressureHigh := c.pressureHigh && !below }
      let one := fun n : Nat => (n + 1) % 4294967296
      ∃ t, exec (.strokeEdge p e now) s = .next t ∧
        t.ret.strokesA = (if p = .a then one s.ret.strokesA else s.ret.strokesA) ∧
        t.ret.strokesB = (if p = .b then one s.ret.strokesB else s.ret.strokesB) ∧
        t.ret.pumped = v ∧ t.clockMs = clock ∧
        t.ret.lag = left ∧
        t.ret.intervals = s.ret.intervals.map (fun iv : Interval =>
          if ∃ g ∈ released, g.index = iv.index then
            { iv with sample := if lost then .lost else .surfaced, sampleTime := some s.ret.jobTime }
          else iv) ∧
        (closes → t.ret.job = .closed ∧ t.ret.close = .complete ∧ t.billing = ⟨none, decide near, decide reached⟩ ∧
          (∃ frozen, t.ret.frozen = some frozen ∧ frozen.jobTime = s.ret.jobTime ∧ frozen.total = s.total) ∧
          (s.ret.zones.length < 96 →
            t.ret.zones = s.ret.zones ++ [ZoneEntry.mark .close s.ret.hole s.ret.jobTime 0])) ∧
        (¬closes → t.ret.job = s.ret.job ∧ t.ret.close = s.ret.close ∧ t.ret.frozen = s.ret.frozen ∧
          t.ret.zones = s.ret.zones ∧ t.billing = s.billing) ∧
        t.ret = { s.ret with
          pumped := t.ret.pumped, lag := t.ret.lag, intervals := t.ret.intervals, zones := t.ret.zones
          unrecorded := t.ret.unrecorded, job := t.ret.job, close := t.ret.close, frozen := t.ret.frozen
          strokesA := t.ret.strokesA, strokesB := t.ret.strokesB
          overCeiling := s.ret.overCeiling || decide (closes ∧ reached) } ∧
        t.pumps = pumps.set p
          (if c.holdoff.isSome then { ruled with callKept := true } else { ruled with holdoff := some 200 }) ∧
        (s.strataOn = false →
          let w : State := { s with
            clockMs := clock
            ret := { s.ret with
              strokesA := if p = .a then one s.ret.strokesA else s.ret.strokesA
              strokesB := if p = .b then one s.ret.strokesB else s.ret.strokesB
              pumped := v }
            pumps := s.pumps.set p
              (if c.holdoff.isSome then { ruled with callKept := true } else { ruled with holdoff := some 200 }) }
          Settles s
            (if c.holdoff.isSome then w
              else w.broadcast .strokes (some p) (encodeStrokes ⟨p, one (s.strokes p), c.effVolume, ruled.spm⟩)) t) ∧
        ChangesOnly [.clock, .ret, .pumps, .link, .billing, .alarm] s t)

/-- STROKE_STOPPED_EXPIRY, START_TIMER_EXPIRY, PWM_PERIOD, STROKES_HOLDOFF_EXPIRY and HEAD_HOLDOFF_EXPIRY (R50, R51,
R55, R56, R62, R88): stroke-stopped is set with spm 0, a RUNNING channel stalls and a STOPPING one stops; a failed
start stalls; the staged duty becomes the applied duty and sets the high time; a kept call hands its frame. That an
expiry of a timer that does not run does nothing is the model's choice (log 3). -/
def Obligations.PumpAndFrameTimersRunOut : Prop :=
  (∀ (p : PumpId) (s : State), s.mode = .run → s.AlarmsSettled →
    let c := s.chan p
    let put := fun c : PumpChannel => { s with pumps := s.pumps.set p c }
    let halted := fun (st : PumpState) (c : PumpChannel) =>
      { c with state := st, staged := 0, startTimer := none, highCount := 0 }
    let quiet := { c with strokeStopped := true, spm := 0, stoppedTimer := none }
    let fittedNow := s.straps.pump = true ∧ s.cfg Item.fitted (pumpCode p) = 1
    (c.stoppedTimer = none → ∃ t, exec (.strokeStoppedExpiry p) s = .next t ∧ Leaves [] s s t) ∧
    (c.stoppedTimer.isSome = true →
      let w := put (if c.state = .running then halted .stalled quiet
        else if c.state = .stopping then halted .stopped quiet else quiet)
      ∃ t, exec (.strokeStoppedExpiry p) s = .next t ∧
        (t.chan p).strokeStopped = true ∧ (t.chan p).spm = 0 ∧ (t.chan p).stoppedTimer = none ∧
        (s.seq.state ≠ .running ∨ w.phaseReady = false → Settles s w t)) ∧
    (∃ t, exec (.startTimerExpiry p) s = .next t ∧
      Settles s (if c.state = .starting ∧ c.startTimer.isSome = true then put (halted .stalled c) else s) t) ∧
    (∃ t, exec (.pwmPeriod p) s = .next t ∧
      Leaves [] s
        (if fittedNow then
          put { c with applied := c.staged, high := s.cfg Item.pwmPeriod (pumpCode p) * c.staged / 255 }
        else s) t) ∧
    (c.holdoff = none → ∃ t, exec (.strokesHoldoffExpiry p) s = .next t ∧ Leaves [] s s t) ∧
    (c.holdoff.isSome = true → c.callKept = false →
      ∃ t, exec (.strokesHoldoffExpiry p) s = .next t ∧ Leaves [] s (put { c with holdoff := none }) t) ∧
    (c.holdoff.isSome = true → c.callKept = true →
      ∃ t, exec (.strokesHoldoffExpiry p) s = .next t ∧
        Settles s
          ((put { c with holdoff := some 200, callKept := false }).broadcast .strokes (some p)
            (encodeStrokes ⟨p, s.strokes p, c.effVolume, c.spm⟩)) t)) ∧
  ∀ s : State, s.mode = .run → s.AlarmsSettled →
    let d := s.depth
    (d.holdoff = none → ∃ t, exec .headHoldoffExpiry s = .next t ∧ Leaves [] s s t) ∧
    (d.holdoff.isSome = true → d.callKept = false →
      ∃ t, exec .headHoldoffExpiry s = .next t ∧ Leaves [] s { s with depth := { d with holdoff := none } } t) ∧
    (d.holdoff.isSome = true → d.callKept = true →
      let w : State := { s with depth := { d with holdoff := some 200, callKept := false, lastHanded := some d.h } }
      ∃ t, exec .headHoldoffExpiry s = .next t ∧
        Settles s
          (w.broadcast .head none
            (encodeHead ⟨d.h, d.headKnown, s.spin.permit, s.spin.state, s.ret.turns, s.ret.spinTurns, d.rpm,
              s.spin.number, s.spin.owner, s.spin.kind⟩)) t)

/-- WATER_PULSE and BALANCE_EVALUATION (R69, R73 to R81, R155): the pit station adds the pulse to W and to the
billed water; an evaluation that is not computable suspends the balance, the first computable one rebases, and
every other one updates the trackers, makes the first test that applies, books an increment with a rebase, and
counts the quiet evaluations. That an evaluation while its timer does not run changes nothing is the model's choice
(log 3). -/
def Obligations.BalanceFollowsThePit : Prop :=
  ∀ s : State, s.mode = .run → s.AlarmsSettled →
    let top := 4294967295
    let unlisted := [Part.circ, .ret, .billing, .pumps, .link, .alarm]
    (s.isPit = false → ∃ t, exec .waterPulse s = .next t ∧ Leaves [] s s t) ∧
    (s.isPit = true →
      let w := min top (s.ret.water + s.cfg Item.waterPerPulse 0)
      ∃ t, exec .waterPulse s = .next t ∧ t.ret.water = w ∧
        t.ret.billedWater =
          (if s.strataOn = true ∧ w ≠ s.ret.water then min top (s.ret.billedWater + (w - s.ret.water))
            else s.ret.billedWater) ∧
        (s.strataOn = false → Leaves [] s { s with ret := { s.ret with water := w } } t) ∧
        ChangesOnly [.ret, .billing, .pumps, .link, .alarm] s t) ∧
    (s.circ.evalTimer = none → ∃ t, exec .balanceEvaluation s = .next t ∧ Leaves [] s s t) ∧
    (s.circ.evalTimer.isSome = true →
      let pit := s.thresholds.pit
      let back := s.thresholds.ret
      let computable := s.headPosition.isSome = true ∧ s.viewSure = true ∧ s.noStalePump = true ∧
        pit.known = true ∧ back.known = true
      let measured := pit.accepted * s.cfg Item.pitStep 0
      let rebased := fun d => BalRef.mk measured s.ret.water s.ret.hole d
      let outcome := fun (st : BalState) (k : Trackers) (ref : Option BalRef) (lost gained : Nat) =>
        ∃ t, exec .balanceEvaluation s = .next t ∧ t.circ = { s.circ with evalTimer := some 2000, trackers := k } ∧
          t.ret.balState = st ∧ t.ret.reference = ref ∧ t.ret.lost = lost ∧ t.ret.gained = gained ∧
          (s.strataOn = false →
            Settles s
              { s with
                circ := { s.circ with evalTimer := some 2000, trackers := k }
                ret := { s.ret with balState := st, reference := ref, lost := lost, gained := gained } } t) ∧
          ChangesOnly unlisted s t
      let st := s.ret.balState
      let k := s.circ.trackers
      (¬computable → outcome .suspended (if st = .suspended then k else .clear) s.ret.reference s.ret.lost s.ret.gained) ∧
      (∀ d, computable → s.depthNow = some d → st = .suspended →
        outcome .balanced .clear (some (rebased d)) s.ret.lost s.ret.gained) ∧
      (∀ d ref, computable → s.depthNow = some d → st ≠ .suspended → s.ret.reference = some ref →
        let loss : Int := (ref.pit : Int) + ((s.ret.water : Int) - ref.water) -
          ((s.holeVol s.ret.hole : Int) - s.holeVol ref.hole) + ((s.steelVol d : Int) - s.steelVol ref.bit) - measured
        let run := fun (n : Nat) (grows : Bool) => if grows then min 3 (n + 1) else 0
        let lossRun := run k.lossRun (decide ((s.cfg Item.lossThreshold 0 : Int) ≤ loss))
        let gainRun := run k.gainRun (decide (loss ≤ -(s.cfg Item.gainThreshold 0 : Int)))
        let flow := run k.flow ((s.pumpsInView.all fun q => q.stopped) && decide (2 ≤ back.accepted))
        let noReturn :=
          if (s.pumpsInView.any fun q => q.state == .running && decide (0 < q.spm)) && back.accepted == 0 then
            some (match k.noReturn with
              | none => 0
              | some seconds => seconds + 2)
          else none
        let restore := if st = .totalLoss then run k.restore (decide (1 ≤ back.accepted)) else k.restore
        let dry := if st = .flowing then run k.dry (back.accepted == 0) else k.dry
        let moved : Option BalState :=
          if st ≠ .totalLoss ∧ (noReturn.any fun n => decide (s.cfg Item.totalLossConfirm 0 ≤ n)) = true then some .totalLoss
          else if st = .totalLoss ∧ restore = 3 then some .losing
          else if st ≠ .totalLoss ∧ st ≠ .flowing ∧ flow = 3 then some .flowing
          else if st = .flowing ∧ dry = 3 then some .balanced
          else none
        let lossBooked := lossRun = 3
        let gainBooked := lossRun ≠ 3 ∧ gainRun = 3
        let booked := lossBooked ∨ gainBooked
        let shaky := st = .losing ∨ st = .gaining
        let calm := moved = none ∧ ¬booked ∧ shaky
        let final :=
          if moved.isSome then moved.getD st
          else if booked then
            (if st = .totalLoss ∨ st = .flowing then st else if lossBooked then .losing else .gaining)
          else if calm ∧ 30 ≤ k.quiet + 1 then .balanced
          else st
        let trackers : Trackers :=
          { lossRun := if lossBooked then 0 else lossRun
            gainRun := if gainBooked then 0 else gainRun
            noReturn := noReturn
            flow := flow
            restore := if moved = some .totalLoss then 0 else restore
            dry := if moved = some .flowing then 0 else dry
            quiet :=
              if calm then k.quiet + 1
              else if moved = some .losing ∨ booked ∧ (final = .losing ∨ final = .gaining) then 0
              else k.quiet }
        outcome final trackers (if booked then some (rebased d) else some ref)
          (if lossBooked then min top (s.ret.lost + loss.toNat) else s.ret.lost)
          (if gainBooked then min top (s.ret.gained + (-loss).toNat) else s.ret.gained)))

/-- ENCODER_COUNT, TOP_LIMIT, ROTATION_PULSE and ROTATION_IDLE_TIMEOUT (R86, R87, R88, R89, R93, R94, R101): a
count moves h within the mast travel; the top limit sets h and the head known; both call for a HEAD frame; a
completed turn is counted, gives rpm, and wears the string; 2 s without a pulse clear rpm and its reference; each
that changes a value of the head source forms D again and H with it, and any other leaves both (log 71). The time as an operand, the timeout of a timer that does not run, the call before the
first HEAD frame and the first wear baseline are the model's choice (logs 3, 4, 20 and 21); the sequencer is at
rest. -/
def Obligations.HeadMotionIsMeasured : Prop :=
  ∀ s : State, s.mode = .run → s.AlarmsSettled → s.seq.state ≠ .running →
    let d := s.depth
    let travel := s.cfg Item.mastTravel 0
    let feed := s.cfg Item.feedPerCount 0
    let formed := fun (w : State) (calls : Bool) (t : State) =>
      let moved := w.headValues ≠ s.headValues
      t.depth = { w.depth with
        bitDepth := if moved then w.depthNow else d.bitDepth
        onBottom :=
          if moved then
            match w.depthNow with
            | none => false
            | some b => decide (t.ret.hole ≤ b + 100)
          else d.onBottom
        callKept := w.depth.callKept || (calls && w.depth.holdoff.isSome)
        holdoff := if calls ∧ w.depth.holdoff = none then some 200 else w.depth.holdoff
        lastHanded := if calls ∧ w.depth.holdoff = none then some w.depth.h else w.depth.lastHanded } ∧
      t.ret.hole = (if moved then max s.ret.hole (w.depthNow.getD 0) else s.ret.hole) ∧ t.pins = w.pins ∧
      (s.strataOn = false ∨ ¬moved → t.ret = { s.ret with hole := t.ret.hole }) ∧
      ChangesOnly [.pins, .depth, .ret, .link, .alarm] s t
    let far := fun h : Nat => d.lastHanded.all fun p => decide (p + 10 ≤ h ∨ h + 10 ≤ p)
    (∀ up : Bool,
      let h := min travel (if up then d.h + feed else d.h - feed)
      ∃ t, exec (.encoderCount up) s = .next t ∧
        (s.straps.head = false → Leaves [] s s t) ∧
        (s.straps.head = true → formed { s with depth := { d with h := h } } (far h) t)) ∧
    (∀ level : Bool,
      let w : State := { s with pins := { s.pins with topLimit := level } }
      let homes := level = true ∧ s.pins.topLimit = false ∧ s.straps.head = true
      ∃ t, exec (.topLimit level) s = .next t ∧
        (¬homes → Leaves [] s w t) ∧
        (homes → formed { w with depth := { d with h := travel, headKnown := true } } (!d.headKnown || far travel) t)) ∧
    (∀ now : Nat,
      let clock := max s.clockMs now
      let turn := s.cfg Item.pulsesPerTurn 0 ≤ d.pulses + 1
      (s.straps.head = false →
        ∃ t, exec (.rotationPulse now) s = .next t ∧ Leaves [] s { s with clockMs := clock } t) ∧
      (s.straps.head = true → ¬turn →
        ∃ t, exec (.rotationPulse now) s = .next t ∧
          Leaves [] s
            { s with clockMs := clock, depth := { d with pulses := d.pulses + 1, idleTimer := some 2000 } } t) ∧
      (s.straps.head = true → turn → d.headSource = some s.straps.number →
        let turns := (s.ret.turns + 1) % 4294967296
        let spinning := s.spin.state = .running
        let spins := if spinning then (s.ret.spinTurns + 1) % 4294967296 else s.ret.spinTurns
        let rpm := match d.turnRef with
          | none => d.rpm
          | some last => if now ≤ last then 254 else min 254 (60000 / (now - last))
        let wears := d.wear = some (s.ret.turns, s.ret.spinTurns) ∧ ¬spinning ∧ s.straps.rod = true
        let worn := fun r : Rod =>
          let n := min 4294967295 (r.turns + 1)
          { r with turns := n, due := r.due || decide (s.cfg Item.typeWear r.type * 1000 ≤ n) }
        s.ret.turns < 4294967296 → s.ret.spinTurns < 4294967296 →
        (d.wear = none ∨ d.wear = some (s.ret.turns, s.ret.spinTurns)) →
        ∃ t, exec (.rotationPulse now) s = .next t ∧
          t.ret.turns = turns ∧ t.ret.spinTurns = spins ∧ t.clockMs = clock ∧
          t.ret.hole = max s.ret.hole (s.depthNow.getD 0) ∧
          t.depth = { d with
            pulses := 0, idleTimer := some 2000, rpm := rpm, turnRef := some now, wear := some (turns, spins)
            bitDepth := s.depthNow
            onBottom := match s.depthNow with
              | none => false
              | some b => decide (t.ret.hole ≤ b + 100) } ∧
          (wears → t.ret.rods = s.ret.rods.map fun r : Rod => if r.id ∈ s.ret.string then worn r else r) ∧
          (s.straps.rod = false ∨ d.wear = none → t.ret.rods = s.ret.rods) ∧
          (spinning → (∀ r ∈ s.ret.rods, r.turns < 4294967296) →
            t.ret.rods.map Rod.turns = s.ret.rods.map Rod.turns) ∧
          ChangesOnly [.clock, .ret, .depth, .link, .alarm] s t)) ∧
    ∃ t, exec .rotationIdleTimeout s = .next t ∧
      (d.idleTimer = none → Leaves [] s s t) ∧
      (d.idleTimer.isSome = true →
        formed { s with depth := { d with rpm := 0, turnRef := none, idleTimer := none } } false t)

/-- A rise of H at a RECORD station, here by ENCODER_COUNT at a HEAD station (R84, R131, R132, R133, R134, R152):
every interval whose bottom H has reached is closed with its charges and its tag, or UNTRACKED at a lag queue of
32; the deepest takes the counts of the open interval and the others are COARSE with none; the footage totals rise;
below the depth limit the interval of the new H becomes open. A rise that reaches no bottom closes nothing. A count
that leaves the head source's values as they are leaves H and the log as they are, whatever D and H stand at (R93, R94;
log 71). -/
def Obligations.RiseOfHClosesIntervals : Prop :=
  ∀ (up : Bool) (op : Interval) (bit : Nat) (s : State), s.mode = .run → s.AlarmsSettled → s.seq.state ≠ .running →
    s.straps.head = true → s.strataOn = true → s.openInterval = some op →
    let top := 4294967295
    let feed := s.cfg Item.feedPerCount 0
    let h := min (s.cfg Item.mastTravel 0) (if up then s.depth.h + feed else s.depth.h - feed)
    let w : State := { s with depth := { s.depth with h := h } }
    (w.headValues = s.headValues →
      ∃ t, exec (.encoderCount up) s = .next t ∧ t.ret = s.ret ∧ ChangesOnly [.depth, .link, .alarm] s t) ∧
    (w.headValues ≠ s.headValues → w.depthNow = some bit → s.ret.hole < bit →
    let l := s.cfg Item.intervalLength 0
    let limit := s.cfg Item.depthLimit 0
    let n := min (bit / l) (limit / l) - op.index
    let bottom := fun k => (k + 1) * l
    let charge := fun k c =>
      min top ((l * s.cfg Item.bandRate (s.bandOf (bottom k)) * s.cfg Item.classPercent c + 50000) / 100000)
    let default := s.cfg Item.defaultClass 0
    let free := 32 - s.ret.lag.length
    let closed := fun i =>
      let k := op.index + i
      let deepest := decide (i + 1 = n)
      let seconds := if deepest then op.seconds else 0
      { op with
        index := k
        closedTime := some s.ret.jobTime
        seconds := seconds
        turns := if deepest then op.turns else 0
        loss := if deepest then op.loss else 0
        gain := if deepest then op.gain else 0
        flags := { op.flags with coarse := op.flags.coarse || !deepest }
        rop := if seconds = 0 then op.rop else some (l * 60 / op.seconds)
        meanRpm := if seconds = 0 then op.meanRpm else some (min 65535 (op.turns * 60 / op.seconds))
        sample := if i < free then SampleState.inTransit else .untracked
        provisional := some (charge k default)
        current := some (charge k (op.cls.getD default)) }
    let losing := s.ret.balState = .losing ∨ s.ret.balState = .totalLoss
    let gaining := s.ret.balState = .gaining ∨ s.ret.balState = .flowing
    let opened : Interval :=
      { index := bit / l, closedTime := none, seconds := 0, turns := 0, rop := none, meanRpm := none, loss := 0
        gain := 0, flags := ⟨losing, s.ret.balState = .totalLoss, gaining, false, false, false, false⟩, sample := .none
        sampleTime := none, lithology := none, cls := none, source := none, provisional := none, current := none }
    ∃ t, exec (.encoderCount up) s = .next t ∧
      (n = 0 → t.ret = { s.ret with hole := bit }) ∧
      (0 < n →
        t.ret = { s.ret with
          hole := bit
          intervals := s.ret.intervals.dropLast ++ (List.range n).map closed ++ if bit < limit then [opened] else []
          lag := s.ret.lag ++ (List.range (min n free)).map fun i =>
            ⟨op.index + i, min 281474976710655 (s.ret.pumped + s.annVol (bottom (op.index + i))),
              bottom (op.index + i), s.ret.jobTime⟩
          closedFootage := s.ret.closedFootage + n * l
          sumProvisional :=
            min top (s.ret.sumProvisional + ((List.range n).map fun i => charge (op.index + i) default).sum)
          sumCurrent :=
            min top (s.ret.sumCurrent + ((List.range n).map fun i => charge (op.index + i) (op.cls.getD default)).sum) }) ∧
      ChangesOnly [.depth, .ret, .link, .alarm] s t)

/-- A change of the heard balance record at a RECORD station, here by BALANCE_EVALUATION, WATER_PULSE or a RETURN
reading at the pit station (R129, R130, R139, R140, R155): a new state closes every open zone of another kind at H
and the job time and opens a zone of its own kind where none is open; then a rise of a total goes to the open zones
it belongs to and to the open interval, whose flags show the state, and a rise of W is billed. In CLOSING a change
after which no tag and no open zone is left completes the close (R159; that the test is made once, after all of
this, is the model's choice, log 53). -/
def Obligations.ZonesFollowTheHeardBalance : Prop :=
  ∀ (c : Instr) (s : State), s.mode = .run → s.AlarmsSettled → s.isPit = true → s.strataOn = true →
    (c = .balanceEvaluation ∨ c = .waterPulse ∨ ∃ w x y z, c = .thresholdSample .ret w x y z) →
    ∃ t, exec c s = .next t ∧
      let top := 4294967295
      let state := t.ret.balState
      let lost := t.ret.lost - s.ret.lost
      let gained := t.ret.gained - s.ret.gained
      let kind : Option ZoneKind :=
        match state with
        | .losing => some .loss
        | .totalLoss => some .totalLoss
        | .gaining => some .water
        | .flowing => some .water
        | .balanced => none
        | .suspended => none
      let shut : ZoneEntry → ZoneEntry
        | .zone k h none o _ v =>
          if kind = some k then .zone k h none o none v else .zone k h (some s.ret.hole) o (some s.ret.jobTime) v
        | z => z
      let filled : ZoneEntry → ZoneEntry
        | .zone k h none o time v => .zone k h none o time (min top (v + if k = .water then gained else lost))
        | z => z
      let kept := s.ret.zones.map shut
      let opens := kind.any fun k => kept.all fun z => z.openKind != some k
      let begun := kind.toList.map fun k => ZoneEntry.zone k s.ret.hole none s.ret.jobTime none 0
      let changed := state ≠ s.ret.balState
      let moved := if changed ∧ opens ∧ kept.length < 96 then kept ++ begun else if changed then kept else s.ret.zones
      let zones := moved.map filled
      let missed := if changed ∧ opens ∧ 96 ≤ kept.length then min 65535 (s.ret.unrecorded + 1) else s.ret.unrecorded
      let intervals := s.ret.intervals.map fun iv : Interval =>
        if s.openInterval.any (fun op => op.index == iv.index) then
          { iv with
            loss := min top (iv.loss + lost)
            gain := min top (iv.gain + gained)
            flags := { iv.flags with
              inLoss := iv.flags.inLoss || state == .losing || state == .totalLoss
              totalLoss := iv.flags.totalLoss || state == .totalLoss
              water := iv.flags.water || state == .gaining || state == .flowing } }
        else iv
      let heard := fun u : State => (u.ret.balState, u.circ.heardReturn, u.ret.lost, u.ret.gained, u.ret.water)
      let completes := heard t ≠ heard s ∧ s.ret.job = .closing ∧ s.ret.lag = [] ∧ ∀ z ∈ zones, z.openKind = none
      (heard t = heard s → t.ret = { s.ret with reference := t.ret.reference }) ∧
      (heard t ≠ heard s →
        t.ret.intervals = intervals ∧
        t.ret.billedWater = min top (s.ret.billedWater + (t.ret.water - s.ret.water)) ∧
        (¬completes → t.ret.zones = zones ∧ t.ret.unrecorded = missed ∧ t.ret.job = s.ret.job) ∧
        (completes → t.ret.job = .closed ∧ t.ret.close = .complete ∧ t.ret.frozen.isSome = true ∧
          (t.ret.zones, t.ret.unrecorded) =
            if zones.length < 96 then (zones ++ [.mark .close s.ret.hole s.ret.jobTime 0], missed)
            else (zones, min 65535 (missed + 1)))) ∧
      ChangesOnly [.thresholds, .circ, .ret, .billing, .pumps, .link, .alarm] s t

/-- CLAMP_CLOSED, CLAMP_OPEN, SLOT_CODE, ROD_PRESENTED, GRIPPED, SLOT_OCCUPIED and STEP_TIMER_EXPIRY (R9, R95, R110
to R115, R119): an input keeps its level and ends the step or phase that waits for it, with its change of the
records and the ROD_EVENT frames of that change; the step ends when they have joined a queue, and the next step of
the unit is entered (the last one: `UnitEndsByTheQueue`); an input no step waits for changes nothing more; the
timer of a running step puts the sequencer in FAULT with the cause of that step or phase. That a rod already in the
loader stays there, and that STORE takes the first LOADER rod of the table, is the model's choice (log 50), and so
is an expiry of a timer that does not run (log 3). -/
def Obligations.RodInputsEndTheirSteps : Prop :=
  ∀ s : State, s.mode = .run → s.AlarmsSettled →
    let pinned := fun (c : Instr) (p : Pins) =>
      let w : State := { s with pins := p }
      (s.seq.state ≠ .running ∨ w.phaseReady = false → ∃ t, exec c s = .next t ∧ Leaves [] s w t)
    (∀ v, pinned (.clampClosed v) { s.pins with clampClosed := v }) ∧
    (∀ v, pinned (.clampOpen v) { s.pins with clampOpen := v }) ∧
    (∀ n, pinned (.slotCode n) { s.pins with slotCode := n }) ∧
    (∀ v, pinned (.rodPresented v) { s.pins with rodPresented := v }) ∧
    (∀ v, pinned (.gripped v) { s.pins with gripped := v }) ∧
    (∀ v, pinned (.slotOccupied v) { s.pins with slotOccupied := v }) ∧
    (∀ u, s.seq.state = .running → s.seq.phase ≠ .ending → s.ret.unit = some u →
      let k := u.kindOfStep
      let first := s.seq.phase = .first
      let at' := fun (kind : OpKind) (n : Nat) => (u.kind, u.step) = (kind, n)
      let away := fun height : Nat => s.headNear height = false
      let number := (s.ret.eventNo + 1) % 65536
      let event := fun (n : Nat) (kind : RodEventKind) (rod slot : Option Nat) (string : List Nat) (hold : HoldRec) =>
        TxFrame.mk .rodEvent 31 (s.cfg Item.kindClass FrameKind.rodEvent.code == 0) none
          (encodeRodEvent ⟨n, kind, rod, slot, none, string.length, s.lengthOf string, hold⟩) 0 0 none
      let ends := fun (c : Instr) (p : Pins) (r : Retained) (events : List TxFrame) (then' : State → Prop) =>
        ∃ t, exec c s = .next t ∧ t.pins = p ∧ t.Keeps r ∧ then' t ∧
          (s.link.listenOnly = false → ∀ e ∈ events, t.link.Holds e) ∧
          (events ≠ [] → s.link.rodWait ≠ [] →
            t.seq.state = .running ∧ t.seq.phase = .ending ∧ t.ret.unit = some u) ∧
          ChangesOnly [.pins, .ret, .claims, .pumps, .spin, .depth, .link, .seq, .alarm] s t
      let enters := fun (n : Nat) (t : State) =>
        s.link.Roomy → s.seq.aborted = false → t.ret.unit.map (·.step) = some n
      let clamped : HoldRec := ⟨.clamped, .latched, u.kind == .breakOut⟩
      let hung' : HoldRec := ⟨.hung, .latched, false⟩
      (k = .clamp →
        ends (.clampClosed true) { s.pins with clampClosed := true } { s.ret with hold := clamped, eventNo := number }
          [event number .holdChanged none none s.ret.string clamped] fun t =>
            (at' .makeUp 5 → enters 6 t) ∧ (at' .breakOut 7 → s.pins.gripped = false → enters 8 t)) ∧
      (k = .release → s.pins.clampClosed = false →
        ends (.clampOpen true) { s.pins with clampOpen := true } { s.ret with hold := hung', eventNo := number }
          [event number .holdChanged none none s.ret.string hung'] fun t =>
            t.seq.retract = false ∧
            (at' .makeUp 3 → away (s.cfg Item.clampHeight 0) → enters 4 t) ∧
            (at' .breakOut 5 → away (s.cfg Item.clampHeight 0 + s.topLength) → enters 6 t)) ∧
      (∀ n, k = .fetch → first → u.slot = some n → s.pins.rodPresented = false →
        ∃ t, exec (.slotCode n) s = .next t ∧
          Leaves [] s
            { s with
              pins := { s.pins with slotCode := n }
              ret := { s.ret with carousel := n, gripOut := true }
              seq := { s.seq with index := false, present := true, phase := .second, timer := some 10000 } } t) ∧
      (∀ id, k = .fetch → ¬first → u.rod = some id →
        ends (.rodPresented true) { s.pins with rodPresented := true }
          { s.ret with
              rods := s.ret.rods.map fun r : Rod => if r.id = id then { r with state := .loader, slot := none } else r
              string := s.ret.string.filter (· != id) }
          [] fun t => t.seq.present = false ∧ enters 9 t) ∧
      (∀ n, k = .store → first → u.slot = some n → s.pins.slotOccupied = false →
        ∃ t, exec (.slotCode n) s = .next t ∧
          Leaves [] s
            { s with
              pins := { s.pins with slotCode := n }
              ret := { s.ret with carousel := n }
              seq := { s.seq with index := false, store := true, phase := .second, timer := some 10000 } } t) ∧
      (∀ n r, k = .store → ¬first → u.slot = some n → rodInLoader s.ret.rods = some r →
        (s.ret.rods.map (·.id)).Nodup → s.ret.retirements.length = 4 → r.type ≤ 4 →
        let string := s.ret.string.filter (· != r.id)
        let counts := s.straps.record = true ∧ (s.ret.job = .opened ∨ s.ret.job = .closing)
        ends (.slotOccupied true) { s.pins with slotOccupied := true }
          { s.ret with
              eventNo := (s.ret.eventNo + if r.due then 2 else 1) % 65536
              rods := s.ret.rods.map fun q : Rod =>
                if q.id = r.id then { q with state := if r.due then .retired else .rack, slot := some n } else q
              string := string
              retirements := if r.due ∧ counts then
                  s.ret.retirements.set (r.type - 1) (min 65535 (s.ret.retirements.getD (r.type - 1) 0 + 1))
                else s.ret.retirements }
          (event number .rackLoaded (some r.id) (some n) string s.ret.hold ::
            if r.due then [event ((s.ret.eventNo + 2) % 65536) .retired (some r.id) (some n) string s.ret.hold] else [])
          fun t => t.seq.store = false ∧ (s.seq.aborted = false → t.ret.gripOut = false) ∧
            (away (s.cfg Item.clampHeight 0) → enters 11 t)) ∧
      (k = .grip →
        ends (.gripped true) { s.pins with gripped := true } s.ret [] fun t => enters 9 t) ∧
      (s.seq.timer.isSome = true →
        let cause :=
          match k with
          | .waitPumps => StopCause.pumpsNotDown
          | .waitPosition => .position
          | .clamp => .clamp
          | .release => .clamp
          | .fetch => if first then .carousel else .loader
          | .store => if first then .carousel else .loader
          | .grip => .grip
          | .spin _ => .spin
          | .claim => .spin
        ∃ t, exec .stepTimerExpiry s = .next t ∧
          Settles s
            { s with seq := { s.seq with
              state := .fault cause, phase := .first, timer := none
              spin := match s.seq.spin with
                | .waiting _ _ => .none
                | r => r
              index := false, present := false, store := false, retract := false } } t)) ∧
    (s.seq.state ≠ .running ∨ s.seq.timer = none ∨ s.ret.unit = none →
      ∃ t, exec .stepTimerExpiry s = .next t ∧ Leaves [] s s t)

/-- The end of a unit and of an aborted step (R107, R120), here at CLAMP_OPEN of the last step and at CLAMP_CLOSED.
A unit that ends takes one from the head entry's count, and at 0 the entry leaves with a COMPLETE record; with an
entry left the next unit begins with the claim kept, and with none the sequencer is IDLE and releases the claim. An
aborted step ends its unit ABORTED at a safe point (HUNG, or no rod in the loader) and is held with the next step
in hand at any other. That the last-op record's requester and time are absent when the queue was emptied (log 26),
that the mark of the emptied queue then makes the result ABORTED (log 41), and that a WARM start forgets it (log 22), are
the model's readings. -/
def Obligations.UnitEndsByTheQueue : Prop :=
  ∀ (u : UnitRec) (s : State), s.mode = .run → s.AlarmsSettled → s.seq.state = .running → s.seq.phase ≠ .ending →
    s.ret.unit = some u → s.link.Roomy → s.ret.claim.phase = .active →
    let lasts := (u.kind, u.step) = (.makeUp, 10) ∨ (u.kind, u.step) = (.breakOut, 13)
    let begins := fun e : OpEntry => e.kind = .breakOut → s.ret.string ≠ []
    let ended := fun (t : State) (op : LastOp) =>
      t.seq.state = .idle ∧ t.seq.queue = [] ∧ t.ret.unit = none ∧ t.ret.claim.phase = .none ∧
        t.claims.takeRequest = false ∧ t.seq.lastOp = some op
    let next := fun (t : State) (queue : List OpEntry) (kind : OpKind) =>
      t.seq.queue = queue ∧ t.ret.unit.map (·.kind) = some kind ∧ t.seq.aborted = false ∧ t.seq.emptied = false
    let all := fun t => ChangesOnly [.pins, .ret, .claims, .pumps, .spin, .depth, .link, .seq, .alarm] s t
    (lasts → s.pins.clampClosed = false → s.seq.aborted = false →
      ∃ t, exec (.clampOpen true) s = .next t ∧ all t ∧
        (s.seq.queue = [] → ended t ⟨u.kind, if s.seq.emptied then .aborted else .complete, none, none⟩) ∧
        (∀ e rest, s.seq.queue = e :: rest →
          let complete : LastOp := ⟨e.kind, .complete, some e.requester, some e.queued⟩
          (2 ≤ e.count → begins e →
            next t ({ e with count := e.count - 1 } :: rest) e.kind ∧ t.ret.claim = s.ret.claim ∧
              t.seq.lastOp = s.seq.lastOp) ∧
          (e.count ≤ 1 → rest = [] → ended t complete) ∧
          (∀ e' rest', rest = e' :: rest' → e.count ≤ 1 → begins e' →
            next t rest e'.kind ∧ t.ret.claim = s.ret.claim ∧ t.seq.lastOp = some complete) ∧
          (∀ e', rest = [e'] → e.count ≤ 1 → ¬begins e' →
            ended t ⟨.breakOut, .empty, some e'.requester, some e'.queued⟩))) ∧
    (∀ c, s.seq.aborted = true →
      (lasts ∧ s.pins.clampClosed = false ∧ c = .clampOpen true) ∨
        (u.kindOfStep = .clamp ∧ rodInLoader s.ret.rods = none ∧ c = .clampClosed true) →
      ∃ t, exec c s = .next t ∧ all t ∧
        (s.seq.queue = [] → ended t ⟨u.kind, .aborted, none, none⟩) ∧
        (∀ e rest, s.seq.queue = e :: rest → begins e →
          next t s.seq.queue e.kind ∧ t.seq.lastOp = some ⟨u.kind, .aborted, none, none⟩)) ∧
    (s.seq.aborted = true → u.kindOfStep = .clamp → rodInLoader s.ret.rods ≠ none →
      ∃ t, exec (.clampClosed true) s = .next t ∧ all t ∧
        t.seq.state = .hold .aborted ∧ t.ret.unit = some { u with step := u.step + 1 } ∧ t.ret.claim = s.ret.claim ∧
        t.seq.queue = s.seq.queue ∧ t.alarm.isActive .sequenceHold = true)

/-- DONE taken for a SPIN step (R95, R96, R112, R114, R116, R119), from the own service at SPIN_DONE_INPUT or in a
HEAD frame of the station asked: the records change as the unit specifies and each change hands its event. A
running sequencer goes on to the next step once the frames have joined a queue (the records are said for a next
step that does not end at once); in HOLD or FAULT the step in hand becomes the next one and the state and cause
stay. What R112 and R114 leave open is the model's choice (log 50): a MAKE with no rod in the loader, or with a
string of 128, changes the hold record only, MAKE takes the first LOADER rod of the table with an ADDED event that
carries the unit's slot, and BREAK makes its rod LOADER beside one already there and with an empty string changes the
hold record only. -/
def Obligations.SpinStepCompletes : Prop :=
  ∀ (c : Instr) (dest n : Nat) (u : UnitRec) (kind : SpinKind) (s : State), s.mode = .run → s.AlarmsSettled →
    s.straps.rod = true → s.ret.unit = some u → u.kindOfStep = .spin kind → s.seq.spin = .accepted dest n →
    s.seq.phase ≠ .ending → s.seq.state = .running ∨ s.seq.state.stopped = true →
    (c = .spinDoneInput true ∧ dest = s.straps.number ∧ s.spin.state = .running ∧ s.spin.number = n ∧
        s.pins.spinDone = false ∨
      ∃ bytes f m p, c = .frameReceived bytes ∧ s.link.lineBusy = true ∧ s.link.sending = false ∧
        (s.link.rx = .idle ∨ s.link.rx = .gathering) ∧ decodeFrame bytes = some f ∧ f.body = .head m ∧
        f.source ≠ s.straps.number ∧ (f.dest = s.straps.number ∨ f.dest = 31) ∧ dest = f.source ∧
        s.peer? dest = some p ∧ p.stale = false ∧ m.spin = .done ∧ m.number = n ∧
        ∀ v, p.head = some v → v.turns = m.turns ∧ v.spinTurns = m.spinTurns) →
    let hold : HoldRec :=
      match kind with
      | .make => ⟨.clamped, .latched, true⟩
      | .break => ⟨.clamped, .free, false⟩
      | .latch => ⟨.clamped, .latched, false⟩
      | .unlatch => ⟨.clamped, .free, false⟩
    let moved : Option (Nat × RodState × List Nat) :=
      match kind with
      | .make => (rodInLoader s.ret.rods).bind fun d =>
        if s.ret.string.length < 128 then some (d.id, .string, s.ret.string.filter (· != d.id) ++ [d.id]) else none
      | .break => s.ret.string.getLast?.map fun id => (id, .loader, s.ret.string.filter (· != id))
      | _ => none
    let string := (moved.map (·.2.2)).getD s.ret.string
    let rods := s.ret.rods.map fun r : Rod =>
      match moved with
      | some (id, st, _) => if r.id = id then { r with state := st, slot := none } else r
      | none => r
    let event := fun (i : Nat) (kind : RodEventKind) (rod slot : Option Nat) =>
      TxFrame.mk .rodEvent 31 (s.cfg Item.kindClass FrameKind.rodEvent.code == 0) none
        (encodeRodEvent ⟨(s.ret.eventNo + i) % 65536, kind, rod, slot, none, string.length, s.lengthOf string, hold⟩)
        0 0 none
    let events :=
      match moved with
      | none => [event 1 .holdChanged none none]
      | some (id, _) =>
        [if kind = SpinKind.make then event 1 .added (some id) u.slot else event 1 .removed (some id) none,
          event 2 .holdChanged none none]
    let stays := fun t : State => s.seq.state = .running → s.seq.aborted = false →
      (kind = .unlatch → t.headPosition = none) ∧ (kind = .break → s.pins.slotOccupied = false) ∧
        (kind = .make ∨ kind = .latch → s.pins.clampOpen = false)
    ∃ t, exec c s = .next t ∧
      (stays t →
        t.Keeps { s.ret with
          rods := rods
          string := string
          hold := hold
          eventNo := (s.ret.eventNo + events.length) % 65536
          carousel := if kind = .break then t.ret.carousel else s.ret.carousel } ∧
        (s.seq.state = .running → s.link.Roomy → s.seq.aborted = false →
          t.ret.unit.map (·.step) = some (u.step + 1))) ∧
      (s.link.listenOnly = false → ∀ e ∈ events, t.link.Holds e) ∧
      (s.seq.state = .running → s.link.rodWait ≠ [] →
        t.seq.state = .running ∧ t.seq.phase = .ending ∧ t.seq.timer = none ∧ t.ret.unit = some u) ∧
      (s.seq.state ≠ .running →
        t.seq = { s.seq with spin := .none } ∧ t.ret.unit = some { u with step := u.step + 1 }) ∧
      ChangesOnly [.pins, .peers, .ret, .claims, .pumps, .spin, .depth, .link, .seq, .alarm] s t

/-- JOB_SECOND (R147, R148, R149, R129, R157, R159, R161): the job time advances; at a RECORD station the second
goes to the first class whose condition holds, and to the unsure seconds; on-bottom seconds go to the open
interval; CLOSING seconds count, and the 1,800th closes the job TIMED_OUT; each minute of a RECORD station checks
the ceiling. That a second while the job timer does not run changes nothing is the model's choice (log 3). -/
def Obligations.JobSecondIsCharged : Prop :=
  ∀ s : State, s.mode = .run → s.AlarmsSettled →
    let top := 4294967295
    (s.billing.jobTimer = none ∨ top ≤ s.ret.jobTime →
      ∃ t, exec .jobSecond s = .next t ∧ Leaves [] s s t) ∧
    (s.billing.jobTimer.isSome = true → s.ret.jobTime < top →
      let claims := s.claimView
      let pumping := s.pumpsInView.any fun q => q.state == .running && decide (0 < q.spm)
      let near := match s.depth.bitDepth with
        | none => false
        | some d => decide (s.ret.hole ≤ d + 10000)
      let cls :=
        if s.ret.down then 0
        else if claims.any fun c => c.kind == .still then 1
        else if claims.any fun c => c.kind == .connection then (if near then 3 else 2)
        else if (s.ret.balState = .losing ∨ s.ret.balState = .totalLoss) ∧ pumping then 4
        else if s.depth.onBottom = true ∧ 0 < s.headRpm ∧ pumping then 5
        else if pumping then 6
        else 7
      let unsure := (∃ c ∈ claims, c.stale = true) ∨
        (∃ p ∈ s.peers, p.stale = true ∧ ∃ m, p.status = some m ∧ m.roles.pump = true) ∨
        (s.isPit = false ∧ (s.circ.heardStale = true ∨ s.circ.heardSource = none)) ∨
        s.depth.bitDepth = none ∨ s.depth.headSource = none
      let counted : State := { s with ret := { s.ret with
        jobTime := s.ret.jobTime + 1
        meters := if s.straps.record then s.ret.meters.set cls (min top (s.ret.meters.getD cls 0 + 1)) else s.ret.meters } }
      ∃ t, exec .jobSecond s = .next t ∧
        t.ret.jobTime = s.ret.jobTime + 1 ∧ t.ret.meters = counted.ret.meters ∧
        (s.straps.record = true → unsure → t.ret.unsure = min top (s.ret.unsure + 1)) ∧
        (s.straps.record = false ∨ ¬unsure → t.ret.unsure = s.ret.unsure) ∧
        (∀ iv, s.strataOn = true → s.openInterval = some iv → s.depth.onBottom = true → s.ret.job = .opened →
          t.ret.intervals = s.ret.intervals.map fun q : Interval =>
            if q.index = iv.index then { q with seconds := min 65535 (q.seconds + 1) } else q) ∧
        (s.strataOn = false ∨ s.openInterval = none ∨ s.depth.onBottom = false → s.ret.job = .opened →
          t.ret.intervals = s.ret.intervals) ∧
        (s.ret.job = .opened → t.ret.job = .opened ∧ t.billing.jobTimer = s.billing.jobTimer ∧
          t.pumps = s.pumps ∧ t.ret.closingSeconds = s.ret.closingSeconds) ∧
        (s.ret.job = .closing → t.ret.closingSeconds = s.ret.closingSeconds + 1 ∧
          (s.ret.closingSeconds + 1 < 1800 → t.ret.job = .closing ∧ t.pumps = s.pumps ∧ t.ret.lag = s.ret.lag) ∧
          (1800 ≤ s.ret.closingSeconds + 1 → t.ret.job = .closed ∧ t.ret.close = .complete ∧
            t.ret.closeKind = some .timedOut ∧ t.billing.jobTimer = none ∧
            (s.straps.record = true →
              t.ret.lag = [] ∧ (∀ z ∈ t.ret.zones, z.openKind = none) ∧ t.ret.frozen.isSome = true))) ∧
        (s.straps.record = true → (s.ret.jobTime + 1) % 60 = 0 →
          let c := s.cfg Item.ceiling 0
          t.billing.near = decide (c ≠ 0 ∧ c * 9 ≤ counted.total * 10) ∧
          t.billing.reached = decide (c ≠ 0 ∧ c ≤ counted.total) ∧
          t.ret.overCeiling = (s.ret.overCeiling || decide (c ≠ 0 ∧ c ≤ counted.total))) ∧
        (s.straps.record = false ∨ s.ret.job = .opened ∧ (s.ret.jobTime + 1) % 60 ≠ 0 →
          t.billing.near = s.billing.near ∧ t.billing.reached = s.billing.reached ∧
          t.ret.overCeiling = s.ret.overCeiling) ∧
        ChangesOnly [.ret, .billing, .pumps, .link, .alarm] s t)
end

