-- ==== Sys2Proof/Laws/Moves.lean ====
section
/-! SUPPORT. What an operation of the station moves: `Moves parts s t` says that `t` is `s` but for the listed
parts, and that nothing of a running job went back. Operations compose by `Moves.trans`; a statement about a
command reads its frame off `Moves`. -/

namespace Sys2Proof.Machine

/-- Nothing of the job goes back: H, V (which saturates at 2^48 − 1), the job time and the job state (R65, R94, R146, R147). -/
structure Retained.Onward (r r' : Retained) : Prop where
  hole : r.hole ≤ r'.hole
  pumped : min top48 r.pumped ≤ r'.pumped
  jobTime : r.jobTime ≤ r'.jobTime
  job : r.job.code ≤ r'.job.code

theorem Retained.Onward.refl (r : Retained) : r.Onward r := ⟨le_rfl, Nat.min_le_right _ _, le_rfl, le_rfl⟩

theorem Retained.Onward.trans {a b c : Retained} (h : a.Onward b) (k : b.Onward c) : a.Onward c :=
  ⟨h.hole.trans k.hole, (le_min (Nat.min_le_left _ _) h.pumped).trans k.pumped, h.jobTime.trans k.jobTime, h.job.trans k.job⟩

/-- The listed parts moved and no other, a silenced link unit stayed silent (R4), and the job went on. -/
structure Moves (parts : List Part) (s t : State) : Prop where
  other : LeavesOther parts s t
  silent : s.link.listenOnly = true → t.link.listenOnly = true
  onward : s.ret.Onward t.ret

/-- All parts. -/
abbrev allParts : List Part :=
  [.clock, .pins, .ret, .link, .peers, .claims, .thresholds, .pumps, .circ, .depth, .rod, .seq, .spin, .strata,
   .billing, .alarm]

theorem LeavesOther.refl (p : List Part) (s : State) : LeavesOther p s s := by
  constructor <;> first | rfl | exact fun _ => rfl

theorem LeavesOther.trans {p q : List Part} {s t u : State} (h : LeavesOther p s t) (k : LeavesOther q t u) :
    LeavesOther (p ++ q) s u := by
  constructor
  · exact k.pending.trans h.pending
  · exact k.mode.trans h.mode
  · exact k.straps.trans h.straps
  · exact k.startKind.trans h.startKind
  · exact k.startSource.trans h.startSource
  all_goals
    intro hx
    rw [List.mem_append, not_or] at hx
  · exact (k.clock hx.2).trans (h.clock hx.1)
  · exact (k.pins hx.2).trans (h.pins hx.1)
  · exact (k.ret hx.2).trans (h.ret hx.1)
  · exact (k.link hx.2).trans (h.link hx.1)
  · exact (k.peers hx.2).trans (h.peers hx.1)
  · exact (k.claims hx.2).trans (h.claims hx.1)
  · exact (k.thresholds hx.2).trans (h.thresholds hx.1)
  · exact (k.pumps hx.2).trans (h.pumps hx.1)
  · exact (k.circ hx.2).trans (h.circ hx.1)
  · exact (k.depth hx.2).trans (h.depth hx.1)
  · exact (k.rod hx.2).trans (h.rod hx.1)
  · exact (k.seq hx.2).trans (h.seq hx.1)
  · exact (k.spin hx.2).trans (h.spin hx.1)
  · exact (k.strata hx.2).trans (h.strata hx.1)
  · exact (k.billing hx.2).trans (h.billing hx.1)
  · exact (k.alarm hx.2).trans (h.alarm hx.1)

theorem LeavesOther.mono {p q : List Part} {s t : State} (h : LeavesOther p s t) (hpq : p ⊆ q) :
    LeavesOther q s t := by
  constructor
  · exact h.pending
  · exact h.mode
  · exact h.straps
  · exact h.startKind
  · exact h.startSource
  · exact fun hx => h.clock fun hp => hx (hpq hp)
  · exact fun hx => h.pins fun hp => hx (hpq hp)
  · exact fun hx => h.ret fun hp => hx (hpq hp)
  · exact fun hx => h.link fun hp => hx (hpq hp)
  · exact fun hx => h.peers fun hp => hx (hpq hp)
  · exact fun hx => h.claims fun hp => hx (hpq hp)
  · exact fun hx => h.thresholds fun hp => hx (hpq hp)
  · exact fun hx => h.pumps fun hp => hx (hpq hp)
  · exact fun hx => h.circ fun hp => hx (hpq hp)
  · exact fun hx => h.depth fun hp => hx (hpq hp)
  · exact fun hx => h.rod fun hp => hx (hpq hp)
  · exact fun hx => h.seq fun hp => hx (hpq hp)
  · exact fun hx => h.spin fun hp => hx (hpq hp)
  · exact fun hx => h.strata fun hp => hx (hpq hp)
  · exact fun hx => h.billing fun hp => hx (hpq hp)
  · exact fun hx => h.alarm fun hp => hx (hpq hp)

theorem Moves.refl (p : List Part) (s : State) : Moves p s s := ⟨.refl p s, id, .refl _⟩

theorem Moves.trans {p q : List Part} {s t u : State} (h : Moves p s t) (k : Moves q t u) :
    Moves (p ++ q) s u :=
  ⟨h.other.trans k.other, fun x => k.silent (h.silent x), h.onward.trans k.onward⟩

theorem Moves.mono {p q : List Part} {s t : State} (h : Moves p s t) (hpq : p ⊆ q) : Moves q s t :=
  ⟨h.other.mono hpq, h.silent, h.onward⟩

/-- A second move within the same parts. -/
theorem Moves.next {p q : List Part} {s t u : State} (h : Moves p s t) (k : Moves q t u) (hq : q ⊆ p) :
    Moves p s u :=
  (h.trans k).mono (List.append_subset.2 ⟨List.Subset.refl p, hq⟩)

/-- The last of several moves, taken off first. -/
theorem Moves.last {p q : List Part} {s t u : State} (k : Moves q t u) (hq : q ⊆ p) (h : Moves p s t) :
    Moves p s u := h.next k hq

theorem Moves.all {p : List Part} {s t : State} (h : Moves p s t) : Moves allParts s t :=
  h.mono fun x _ => by cases x <;> decide

theorem Moves.ite {p : List Part} {s t u : State} {c : Prop} [Decidable c] (h : c → Moves p s t)
    (k : ¬c → Moves p s u) : Moves p s (if c then t else u) := by
  split
  · exact h ‹_›
  · exact k ‹_›

/-! ## One part set -/

theorem moves_clock (s : State) (v : Nat) : Moves [.clock] s { s with clockMs := v } :=
  ⟨by constructor <;> simp, id, .refl _⟩

theorem moves_pins (s : State) (v : Pins) : Moves [.pins] s { s with pins := v } :=
  ⟨by constructor <;> simp, id, .refl _⟩

theorem moves_ret (s : State) (v : Retained) (h : s.ret.Onward v) : Moves [.ret] s { s with ret := v } :=
  ⟨by constructor <;> simp, id, h⟩

theorem moves_link (s : State) (v : Link) (h : s.link.listenOnly = true → v.listenOnly = true) :
    Moves [.link] s { s with link := v } := ⟨by constructor <;> simp, h, .refl _⟩

theorem moves_peers (s : State) (v : List PeerEntry) : Moves [.peers] s { s with peers := v } :=
  ⟨by constructor <;> simp, id, .refl _⟩

theorem moves_claims (s : State) (v : ClaimUnit) : Moves [.claims] s { s with claims := v } :=
  ⟨by constructor <;> simp, id, .refl _⟩

theorem moves_thresholds (s : State) (v : Thresholds) : Moves [.thresholds] s { s with thresholds := v } :=
  ⟨by constructor <;> simp, id, .refl _⟩

theorem moves_pumps (s : State) (v : Pumps) : Moves [.pumps] s { s with pumps := v } :=
  ⟨by constructor <;> simp, id, .refl _⟩

theorem moves_circ (s : State) (v : CircUnit) : Moves [.circ] s { s with circ := v } :=
  ⟨by constructor <;> simp, id, .refl _⟩

theorem moves_depth (s : State) (v : DepthUnit) : Moves [.depth] s { s with depth := v } :=
  ⟨by constructor <;> simp, id, .refl _⟩

theorem moves_rod (s : State) (v : RodUnit) : Moves [.rod] s { s with rod := v } :=
  ⟨by constructor <;> simp, id, .refl _⟩

theorem moves_seq (s : State) (v : Sequencer) : Moves [.seq] s { s with seq := v } :=
  ⟨by constructor <;> simp, id, .refl _⟩

theorem moves_spin (s : State) (v : SpinService) : Moves [.spin] s { s with spin := v } :=
  ⟨by constructor <;> simp, id, .refl _⟩

theorem moves_strata (s : State) (v : StrataUnit) : Moves [.strata] s { s with strata := v } :=
  ⟨by constructor <;> simp, id, .refl _⟩

theorem moves_billing (s : State) (v : BillingUnit) : Moves [.billing] s { s with billing := v } :=
  ⟨by constructor <;> simp, id, .refl _⟩

theorem moves_alarm (s : State) (v : AlarmUnit) : Moves [.alarm] s { s with alarm := v } :=
  ⟨by constructor <;> simp, id, .refl _⟩

/-- A retained state set last. -/
theorem Moves.setRet {p : List Part} {s t : State} (v : Retained) (hv : t.ret.Onward v) (hp : Part.ret ∈ p)
    (h : Moves p s t) : Moves p s { t with ret := v } :=
  h.next (moves_ret t v hv) (by simpa using hp)

/-- A retained state changed in fields that no part of `Onward` reads. -/
theorem Retained.Onward.of_eq {r r' : Retained} (h : r'.hole = r.hole) (p : r'.pumped = r.pumped)
    (t : r'.jobTime = r.jobTime) (j : r'.job = r.job) : r.Onward r' :=
  ⟨h.ge, (Nat.min_le_right _ _).trans p.ge, t.ge, j ▸ le_rfl⟩

end Sys2Proof.Machine
end

