-- ==== Sys2Proof/Laws/LinkMoves.lean ====
section
/-! SUPPORT. The link unit's operations: none of them ends LISTEN_ONLY (R4), and none touches another part of
the station. -/

namespace Sys2Proof.Machine

/-! ## The line's own operations -/

@[simp] theorem record_listenOnly (e : LinkEnv) (k : FaultKind) (p : Option Nat) (f : Option FrameKind)
    (q : Option Nat) (l : Link) : (l.record e k p f q).listenOnly = l.listenOnly := by
  unfold Link.record; split <;> rfl

@[simp] theorem rxError_listenOnly (l : Link) : l.rxError.listenOnly = l.listenOnly := rfl

@[simp] theorem setQueue_listenOnly (l : Link) (q : QueueId) (fs : List TxFrame) :
    (l.setQueue q fs).listenOnly = l.listenOnly := by cases q <;> rfl

@[simp] theorem take_listenOnly (e : LinkEnv) (q : QueueId) (f : TxFrame) (l : Link) :
    (l.take e q f).listenOnly = l.listenOnly := rfl

@[simp] theorem arbitrate_listenOnly (e : LinkEnv) (l : Link) : (l.arbitrate e).listenOnly = l.listenOnly := by
  unfold Link.arbitrate Link.arbitrate.next
  repeat' split
  all_goals simp

@[simp] theorem putBack_listenOnly (h : InHand) (l : Link) : (l.putBack h).listenOnly = l.listenOnly := by
  unfold Link.putBack; simp

@[simp] theorem preempt_listenOnly (l : Link) : l.preempt.listenOnly = l.listenOnly := by
  unfold Link.preempt
  repeat' split
  all_goals simp

@[simp] theorem settle_listenOnly (e : LinkEnv) (l : Link) : (l.settle e).listenOnly = l.listenOnly := by
  unfold Link.settle; simp

@[simp] theorem joinFirst_listenOnly (e : LinkEnv) (l : Link) : (l.joinFirst e).listenOnly = l.listenOnly := by
  unfold Link.joinFirst
  repeat' split
  all_goals simp

@[simp] theorem gather_listenOnly (l : Link) : l.gather.listenOnly = l.listenOnly := by
  unfold Link.gather; split <;> rfl

/-- A merge fails only where no queued frame is one that the new frame replaces (R9). -/
theorem replaceIn_eq_none {new : TxFrame} {q : List TxFrame} :
    replaceIn new q = none ↔ ∀ g ∈ q, g.replacedBy new = false := by
  induction q with
  | nil => simp [replaceIn]
  | cons f rest ih =>
    unfold replaceIn
    rw [List.forall_mem_cons, ← ih]
    cases replaceIn new rest <;> cases f.replacedBy new <;> simp

/-- What a merge can do (R9, R62): the last queued frame that the new one replaces gives it its place, and every other
frame stays. -/
theorem replaceIn_eq_some {new : TxFrame} {q q' : List TxFrame} :
    replaceIn new q = some q' ↔
      ∃ before old after, q = before ++ old :: after ∧ old.replacedBy new = true ∧
        (∀ g ∈ after, g.replacedBy new = false) ∧ q' = before ++ new :: after := by
  induction q generalizing q' with
  | nil => simp [replaceIn]
  | cons f rest ih =>
    constructor
    · intro h
      unfold replaceIn at h
      split at h
      next fs hfs =>
        obtain ⟨before, old, after, rfl, hold, hafter, rfl⟩ := ih.mp hfs
        exact ⟨f :: before, old, after, rfl, hold, hafter, by simpa using h.symm⟩
      next hnone =>
        split at h
        next hf => exact ⟨[], f, rest, rfl, hf, replaceIn_eq_none.mp hnone, by simpa using h.symm⟩
        next => cases h
    · rintro ⟨before, old, after, hq, hold, hafter, rfl⟩
      cases before with
      | nil =>
        obtain ⟨rfl, rfl⟩ := List.cons.inj hq
        simp [replaceIn, replaceIn_eq_none.mpr hafter, hold]
      | cons b before =>
        obtain ⟨rfl, rfl⟩ := List.cons.inj hq
        have hrest : replaceIn new (before ++ old :: after) = some (before ++ new :: after) :=
          ih.mpr ⟨before, old, after, rfl, hold, hafter, rfl⟩
        simp [replaceIn, hrest]

@[simp] theorem handUrgent_listenOnly (e : LinkEnv) (f : TxFrame) (l : Link) :
    (l.handUrgent e f).listenOnly = l.listenOnly := by
  unfold Link.handUrgent
  repeat' split
  all_goals simp

@[simp] theorem handRig_listenOnly (e : LinkEnv) (f : TxFrame) (l : Link) :
    (l.handRig e f).listenOnly = l.listenOnly := by
  unfold Link.handRig
  repeat' split
  all_goals simp

@[simp] theorem handPlain_listenOnly (e : LinkEnv) (q : QueueId) (f : TxFrame) (l : Link) :
    (l.handPlain e q f).listenOnly = l.listenOnly := by
  unfold Link.handPlain
  split <;> simp

@[simp] theorem handOver_listenOnly (e : LinkEnv) (q : QueueId) (f : TxFrame) (l : Link) :
    (l.handOver e q f).listenOnly = l.listenOnly := by
  unfold Link.handOver
  repeat' split
  all_goals simp

@[simp] theorem release_listenOnly (e : LinkEnv) (l : Link) : (l.release e).listenOnly = l.listenOnly := by
  unfold Link.release; simp

@[simp] theorem defer_listenOnly (e : LinkEnv) (h : InHand) (l : Link) :
    (l.defer e h).listenOnly = l.listenOnly := by
  unfold Link.defer
  dsimp only
  split <;> simp

@[simp] theorem goBusy_listenOnly (e : LinkEnv) (l : Link) : (l.goBusy e).listenOnly = l.listenOnly := by
  unfold Link.goBusy
  dsimp only
  repeat' split
  all_goals simp

@[simp] theorem goQuiet_listenOnly (e : LinkEnv) (b : Bool) (l : Link) :
    (l.goQuiet e b).listenOnly = l.listenOnly := by
  unfold Link.goQuiet
  dsimp only
  repeat' split
  all_goals simp

@[simp] theorem collide_listenOnly (e : LinkEnv) (h : InHand) (l : Link) :
    (l.collide e h).listenOnly = l.listenOnly := by
  unfold Link.collide; simp

@[simp] theorem issue_listenOnly (e : LinkEnv) (now dest code : Nat) (args : List Byte) (l : Link) :
    (l.issue e now dest code args).listenOnly = l.listenOnly := by
  unfold Link.issue; simp

@[simp] theorem stopBit_listenOnly (l : Link) : l.stopBitMissing.listenOnly = l.listenOnly := by
  unfold Link.stopBitMissing; split <;> rfl

@[simp] theorem beginSend_listenOnly (h : InHand) (l : Link) : (l.beginSend h).listenOnly = l.listenOnly := rfl

@[simp] theorem dropOutstanding_listenOnly (l : Link) (e : OutEntry) :
    (l.dropOutstanding e).listenOnly = l.listenOnly := rfl

@[simp] theorem popIntake_listenOnly (l : Link) : l.popIntake.listenOnly = l.listenOnly := rfl

/-! ## At the station -/

theorem moves_onLink (s : State) (f : LinkEnv → Link → Link)
    (h : ∀ e l, l.listenOnly = true → (f e l).listenOnly = true) : Moves [.link] s (s.onLink f) :=
  moves_link s _ (h _ _)

theorem moves_hand (s : State) (q : QueueId) (f : TxFrame) : Moves [.link] s (s.hand q f) :=
  moves_onLink s _ fun _ _ h => by simpa using h

theorem moves_recordFault (s : State) (k : FaultKind) (p : Option Nat) (f : Option FrameKind) (q : Option Nat) :
    Moves [.link] s (s.recordFault k p f q) := moves_onLink s _ fun _ _ h => by simpa using h

theorem moves_broadcast (s : State) (k : FrameKind) (p : Option PumpId) (b : List Byte) :
    Moves [.link] s (s.broadcast k p b) := moves_hand s _ _

theorem moves_announceClaim (s : State) : Moves [.link] s s.announceClaim := moves_hand s _ _

theorem moves_foldl {α : Type} {p : List Part} (f : State → α → State) (h : ∀ s a, Moves p s (f s a))
    (l : List α) (s : State) : Moves p s (l.foldl f s) := by
  induction l generalizing s with
  | nil => exact .refl p s
  | cons a l ih => exact (h s a).next (ih (f s a)) (List.Subset.refl p)

theorem moves_answer (s : State) (q : QueueId) (r : Request) (c : ResultCode) (d : List Byte) :
    Moves [.link] s (s.answer q r c d) := by
  unfold State.answer
  split
  · exact .refl _ s
  · exact moves_foldl _ (fun s f => moves_hand s q f) _ s

theorem moves_sendAlarm (s : State) (c : AlarmCond) (b : Bool) : Moves [.link] s (s.sendAlarm c b) :=
  moves_hand s _ _

theorem moves_flagged (s : State) (c : AlarmCond) (b : Bool) : Moves [.alarm] s (s.flagged c b) :=
  moves_alarm s _

theorem moves_report (s : State) (c : AlarmCond) (b : Bool) : Moves [.alarm, .link] s (s.report c b) :=
  Moves.ite (fun _ => .refl _ s) fun _ =>
    Moves.ite (fun _ => (moves_flagged s c b).trans (moves_sendAlarm _ _ _)) fun _ =>
      (moves_flagged s c b).mono (by decide)

theorem moves_follow (s : State) (c : AlarmCond) : Moves [.alarm, .link] s (s.follow c) := moves_report s _ _

theorem moves_alarmsFollow (s : State) : Moves [.alarm, .link] s s.alarmsFollow := by
  unfold State.alarmsFollow
  split
  · exact (moves_foldl _ moves_follow _ s).next (moves_follow _ _) (List.Subset.refl _)
  · exact .refl _ s

end Sys2Proof.Machine
end

