-- ==== Sys2Proof/Laws/StrataMoves.lean ====
section
/-! SUPPORT. What the operations of the pump, strata and billing units move. -/

namespace Sys2Proof.Machine

/-! ## Pumps -/

theorem moves_setChan (s : State) (p : PumpId) (c : PumpChannel) : Moves [.pumps] s (s.setChan p c) :=
  moves_pumps s _

theorem moves_mapPumps (s : State) (f : PumpId → PumpChannel → PumpChannel) :
    Moves [.pumps] s (s.mapPumps f) := moves_pumps s _

theorem moves_handStrokes (s : State) (p : PumpId) : Moves [.pumps, .link] s (s.handStrokes p) :=
  ((moves_broadcast s _ _ _).trans (moves_setChan _ _ _)).mono (by decide)

theorem moves_callStrokes (s : State) (p : PumpId) : Moves [.pumps, .link] s (s.callStrokes p) :=
  Moves.ite (fun _ => (moves_setChan s _ _).mono (by decide)) fun _ => moves_handStrokes s p

theorem moves_periodStrokes (s : State) (p : PumpId) : Moves [.pumps, .link] s (s.periodStrokes p) :=
  Moves.ite (fun _ => moves_handStrokes s p) fun _ => .refl _ s

/-! ## The total -/

theorem moves_checkTotal (s : State) (t : Nat) : Moves [.billing, .ret] s (s.checkTotal t) :=
  ⟨by constructor <;> first | rfl | (intro _; rfl) | simp, id, .of_eq rfl rfl rfl rfl⟩

theorem moves_checkCeiling (s : State) : Moves [.billing, .ret] s s.checkCeiling := moves_checkTotal s _

/-! ## Zones, marks, intervals -/

theorem moves_appendZone (s : State) (z : ZoneEntry) : Moves [.ret] s (s.appendZone z) :=
  Moves.ite (fun _ => moves_ret s _ (.of_eq rfl rfl rfl rfl)) fun _ => moves_ret s _ (.of_eq rfl rfl rfl rfl)

theorem moves_appendMark (s : State) (k : MarkKind) (c : Nat) : Moves [.ret] s (s.appendMark k c) :=
  moves_appendZone s _

theorem moves_mapZones (s : State) (f : ZoneEntry → ZoneEntry) : Moves [.ret] s (s.mapZones f) :=
  moves_ret s _ (.of_eq rfl rfl rfl rfl)

theorem moves_closeZones (s : State) (k : Option ZoneKind) : Moves [.ret] s (s.closeZones k) :=
  moves_mapZones s _

theorem moves_zonesFollow (s : State) : Moves [.ret] s s.zonesFollow := by
  unfold State.zonesFollow
  dsimp only
  split
  · exact Moves.ite (fun _ => moves_closeZones s _) fun _ =>
      (moves_appendZone _ _).last (by decide) (moves_closeZones s _)
  · exact moves_closeZones s _

theorem moves_mapInterval (s : State) (i : Nat) (f : Interval → Interval) : Moves [.ret] s (s.mapInterval i f) :=
  moves_ret s _ (.of_eq rfl rfl rfl rfl)

theorem moves_mapOpen (s : State) (f : Interval → Interval) : Moves [.ret] s (s.mapOpen f) := by
  unfold State.mapOpen
  split
  · exact moves_mapInterval s _ _
  · exact .refl _ s

theorem moves_closeRecord (s : State) (iv : Interval) : Moves [.ret] s (s.closeRecord iv) :=
  moves_ret s _ (.of_eq rfl rfl rfl rfl)

/-- The parts a rise of H may change: SAMPLE_UNTRACKED is reported at each close (R134). -/
abbrev closeParts : List Part := [.ret, .link, .alarm]

theorem moves_closeOne (s : State) (iv : Interval) : Moves closeParts s (s.closeOne iv) :=
  (moves_report _ _ _).last (by decide) ((moves_closeRecord s iv).mono (by decide))

theorem moves_closeRun (op : Interval) (n k : Nat) (s : State) : Moves closeParts s (s.closeRun op n k) := by
  induction n generalizing s k with
  | zero => exact .refl _ s
  | succ n ih => exact (moves_closeOne s _).next (ih _ _) (by decide)

theorem moves_holeRose (s : State) : Moves closeParts s s.holeRose := by
  unfold State.holeRose
  dsimp only
  split
  · exact .refl _ s
  · refine Moves.ite (fun _ => ?_) fun _ => .refl _ s
    have h := fun op n k =>
      (moves_closeRun op n k _).last (List.Subset.refl _)
        ((moves_ret s { s.ret with intervals := s.ret.intervals.dropLast } (.of_eq rfl rfl rfl rfl)).mono
          (q := closeParts) (by decide))
    exact Moves.ite (fun _ => .setRet _ (.of_eq rfl rfl rfl rfl) (by decide) (h _ _ _)) fun _ => h _ _ _

/-! ## The close of a job -/

theorem job_le_closed (j : JobState) : j.code ≤ JobState.closed.code := by cases j <;> decide

theorem moves_jobClosed (s : State) : Moves [.ret, .billing, .pumps] s s.jobClosed :=
  ⟨by constructor <;> first | rfl | (intro _; rfl) | simp, id, ⟨le_rfl, Nat.min_le_right _ _, le_rfl, job_le_closed _⟩⟩

theorem moves_freeze (s : State) : Moves [.ret] s s.freeze := moves_ret s _ (.of_eq rfl rfl rfl rfl)

theorem moves_finishClose (s : State) (k : CloseKind) : Moves [.ret, .billing, .pumps] s (s.finishClose k) :=
  (moves_jobClosed _).last (by decide) <| (moves_appendMark _ _ _).last (by decide) <|
    (moves_freeze _).last (by decide) <| (moves_checkCeiling s).mono (by decide)

theorem moves_completionTest (s : State) : Moves [.ret, .billing, .pumps] s s.completionTest :=
  Moves.ite (fun _ => moves_finishClose s _) fun _ => .refl _ s

theorem moves_sampleUp (s : State) (i : Nat) (b : Bool) : Moves [.ret] s (s.sampleUp i b) := moves_mapInterval s _ _

theorem moves_loseTags (s : State) : Moves [.ret] s s.loseTags :=
  .setRet _ (.of_eq rfl rfl rfl rfl) (by decide)
    (moves_foldl _ (fun s (t : LagTag) => moves_sampleUp s t.index true) _ s)

theorem moves_abruptClose (s : State) (k : CloseKind) : Moves [.ret, .billing, .pumps] s (s.abruptClose k) :=
  (moves_finishClose _ _).last (by decide) <| (moves_closeZones _ _).last (by decide) <|
    (moves_loseTags _).last (by decide) <| .setRet _ (.of_eq rfl rfl rfl rfl) (by decide) (.refl _ s)

theorem moves_plainClose (s : State) (k : CloseKind) : Moves [.ret, .billing, .pumps] s (s.plainClose k) :=
  (moves_jobClosed _).last (by decide) <| .setRet _ (.of_eq rfl rfl rfl rfl) (by decide) (.refl _ s)

theorem moves_peerCloseTest (s : State) : Moves [.ret, .billing, .pumps] s s.peerCloseTest :=
  Moves.ite (fun _ => moves_plainClose s _) fun _ => .refl _ s

/-! ## Tags and credits -/

theorem moves_releaseDue (l : List LagTag) (s : State) : Moves [.ret] s (s.releaseDue l) := by
  induction l generalizing s with
  | nil => exact moves_ret s _ (.of_eq rfl rfl rfl rfl)
  | cons t l ih =>
    unfold State.releaseDue
    exact Moves.ite (fun _ => (moves_sampleUp s _ _).next (ih _) (by decide)) fun _ =>
      moves_ret s _ (.of_eq rfl rfl rfl rfl)

theorem moves_tagRelease (s : State) : Moves [.ret, .billing, .pumps] s s.tagRelease :=
  Moves.ite (fun _ => (moves_completionTest _).last (by decide) ((moves_releaseDue _ s).mono (by decide)))
    fun _ => .refl _ s

theorem moves_credit (s : State) (v : Nat) : Moves [.ret, .billing, .pumps] s (s.credit v) := by
  unfold State.credit
  dsimp only
  refine Moves.ite (fun _ => .refl _ s) fun _ => (moves_tagRelease _).last (by decide) ?_
  refine .setRet _ ⟨le_rfl, ?_, le_rfl, le_rfl⟩ (by decide) (.refl _ s)
  show min top48 s.ret.pumped ≤ min top48 (s.ret.pumped + v)
  omega

theorem moves_strokeGap (s : State) : Moves [.ret] s s.strokeGap :=
  Moves.ite (fun _ => moves_mapOpen s _) fun _ => .refl _ s

/-! ## The heard balance record -/

theorem moves_setHeard (s : State) (n : Heard) : Moves [.ret, .circ] s (s.setHeard n) :=
  ⟨by constructor <;> first | rfl | (intro _; rfl) | simp, id, .of_eq rfl rfl rfl rfl⟩

theorem moves_strataHeard (s : State) (o : Heard) : Moves [.ret] s (s.strataHeard o) := by
  unfold State.strataHeard
  dsimp only
  refine (moves_mapOpen _ _).last (by decide) <| (moves_mapZones _ _).last (by decide) ?_
  exact Moves.ite (fun _ => moves_mapOpen s _) fun _ =>
    (moves_zonesFollow _).last (by decide) (moves_mapOpen s _)

theorem moves_billWater (s : State) (n : Nat) : Moves [.ret] s (s.billWater n) :=
  moves_ret s _ (.of_eq rfl rfl rfl rfl)

theorem moves_heardUpdate (s : State) (n : Heard) : Moves [.ret, .circ, .billing, .pumps] s (s.heardUpdate n) := by
  unfold State.heardUpdate
  dsimp only
  refine Moves.ite (fun _ => .refl _ s) fun _ => Moves.ite (fun _ => ?_) fun _ => ?_
  · exact (moves_completionTest _).last (by decide) <| (moves_billWater _ _).last (by decide) <|
      (moves_strataHeard _ _).last (by decide) <| (moves_setHeard s n).mono (by decide)
  · exact (moves_setHeard s n).mono (by decide)

theorem moves_heardRefresh (s : State) : Moves [.ret, .circ, .billing, .pumps] s s.heardRefresh :=
  Moves.ite (fun _ => .refl _ s) fun _ => moves_heardUpdate s _

end Sys2Proof.Machine
end

