-- ==== Sys2Proof/Laws/BoreMoves.lean ====
section
/-! SUPPORT. What the operations of the head, claim and rod units move. -/

namespace Sys2Proof.Machine

/-! ## Head and depth -/

theorem moves_handHead (s : State) : Moves [.depth, .link] s s.handHead :=
  (moves_depth _ _).last (by decide) ((moves_broadcast s _ _ _).mono (by decide))

theorem moves_headCall (s : State) : Moves [.depth, .link] s s.headCall :=
  Moves.ite (fun _ => Moves.ite (fun _ => (moves_depth s _).mono (by decide)) fun _ => moves_handHead s)
    fun _ => .refl _ s

theorem moves_reevalPermit (s : State) : Moves [.spin, .depth, .link] s s.reevalPermit :=
  Moves.ite (fun _ => .refl _ s) fun _ =>
    (moves_headCall _).last (by decide) ((moves_spin s _).mono (by decide))

theorem moves_spinEnd (s : State) (st : SpinState) : Moves [.spin, .depth, .link] s (s.spinEnd st) := by
  unfold State.spinEnd
  refine Moves.ite (fun _ => (moves_headCall _).last (by decide) ?_) fun _ => .refl _ s
  exact (moves_spin s _).mono (by decide)

theorem moves_spinOwnerCheck (s : State) : Moves [.spin, .depth, .link] s s.spinOwnerCheck :=
  Moves.ite (fun _ => moves_spinEnd s _) fun _ => .refl _ s

theorem moves_takeDepth (s : State) (d : Option Nat) : Moves [.ret, .depth] s (s.takeDepth d) :=
  ⟨by constructor <;> first | rfl | (intro _; rfl) | simp, id,
    ⟨le_max_left _ _, Nat.min_le_right _ _, le_rfl, le_rfl⟩⟩

/-- The parts a new bit depth may change. -/
abbrev depthParts : List Part := [.ret, .depth, .link, .alarm]

theorem moves_recomputeDepth (s : State) : Moves depthParts s s.recomputeDepth := by
  unfold State.recomputeDepth
  dsimp only
  refine Moves.ite (fun _ => ?_) fun _ => .refl _ s
  have h := (moves_takeDepth s s.depthNow).mono (q := depthParts) (by decide)
  refine Moves.ite (fun _ => (moves_mapOpen _ _).last (by decide) ?_) fun _ => ?_
  all_goals exact Moves.ite (fun _ => (moves_holeRose _).last (by decide) h) fun _ => h

/-- No input of bit depth has changed: nothing is done. -/
theorem depthFollows_of_same {s before : State} (h : s.depthInputs = before.depthInputs) : s.depthFollows before = s :=
  if_pos h

/-- An input of bit depth has changed: it is recomputed. -/
theorem depthFollows_of_changed {s before : State} (h : s.depthInputs ≠ before.depthInputs) :
    s.depthFollows before = s.recomputeDepth := if_neg h

/-- A step that moves none of the retained state, the depth unit, the peer table and the rod unit changes no input of bit
depth. -/
theorem depthInputs_of_other {p : List Part} {s t : State} (h : LeavesOther p s t) (hr : Part.ret ∉ p)
    (hd : Part.depth ∉ p) (hp : Part.peers ∉ p) (hu : Part.rod ∉ p) : t.depthInputs = s.depthInputs := by
  simp only [State.depthInputs, State.headValues, State.viewSure, State.peer?, h.straps, h.ret hr, h.depth hd,
    h.peers hp, h.rod hu]

theorem moves_depthFollows (s before : State) : Moves depthParts s (s.depthFollows before) :=
  Moves.ite (fun _ => .refl _ s) fun _ => moves_recomputeDepth s

theorem moves_creditTurns (s : State) (n : Nat) : Moves [.ret] s (s.creditTurns n) := by
  unfold State.creditTurns
  dsimp only
  have h : Moves [.ret] s (if s.straps.rod then
      { s with
          ret := { s.ret with
            rods := s.ret.rods.map fun r => if s.ret.string.contains r.id then s.wearRod n r else r } }
    else s) := Moves.ite (fun _ => moves_ret s _ (.of_eq rfl rfl rfl rfl)) fun _ => .refl _ s
  exact Moves.ite (fun _ => (moves_mapOpen _ _).last (by decide) h) fun _ => h

theorem moves_wearCredit (s : State) : Moves [.ret, .depth] s s.wearCredit := by
  unfold State.wearCredit
  split
  · exact .refl _ s
  · have h := fun w => (moves_depth s { s.depth with wear := w }).mono (q := [.ret, .depth]) (by decide)
    dsimp only
    split
    · exact h _
    · exact Moves.ite (fun _ => (moves_creditTurns _ _).last (by decide) (h _)) fun _ => h _

theorem moves_chooseHeadAgain (s : State) : Moves [.depth] s s.chooseHeadAgain :=
  Moves.ite (fun _ => .refl _ s) fun _ => moves_depth s _

theorem moves_headRefresh (s before : State) : Moves depthParts s (s.headRefresh before) :=
  Moves.ite (fun _ => (moves_depthFollows _ _).last (by decide) ((moves_chooseHeadAgain s).mono (by decide)))
    fun _ => .refl _ s

/-! ## The sequencer's stops -/

theorem stepOn_onward (r : Retained) : r.Onward r.stepOn := .of_eq rfl rfl rfl rfl

theorem moves_seqStop (s : State) (st : SeqState) : Moves [.ret, .seq] s (s.seqStop st) := by
  refine ⟨by constructor <;> first | rfl | (intro _; rfl) | simp, id, ?_⟩
  show s.ret.Onward (if s.stepDone then s.ret.stepOn else s.ret)
  split
  · exact stepOn_onward _
  · exact .refl _

theorem moves_seqHold (s : State) (c : StopCause) : Moves [.ret, .seq] s (s.seqHold c) := moves_seqStop s _

theorem moves_seqFault (s : State) (c : StopCause) : Moves [.ret, .seq] s (s.seqFault c) := moves_seqStop s _

theorem moves_conflictCheck (s : State) : Moves [.ret, .seq] s s.conflictCheck :=
  Moves.ite (fun _ => moves_seqHold s _) fun _ => .refl _ s

theorem moves_seqSilenced (s : State) : Moves [.ret, .seq] s s.seqSilenced :=
  Moves.ite (fun _ => (moves_seq s _).mono (by decide)) fun _ =>
    (moves_seqHold _ _).last (by decide) ((moves_seq s _).mono (by decide))

theorem moves_listenOnlyNow (s : State) : Moves [.ret, .link, .claims, .pumps, .seq] s s.listenOnlyNow := by
  unfold State.listenOnlyNow
  refine Moves.ite (fun _ => .refl _ s) fun _ => ?_
  have h := (moves_link s s.link.silence fun _ => rfl).mono (q := [.ret, .link, .claims, .pumps, .seq]) (by decide)
  refine Moves.ite (fun _ => ?_) fun _ => h
  have k := (moves_mapPumps _ fun _ c => c.silenced).last (by decide)
    ((moves_claims _ { s.claims with settle := none }).last (by decide) h)
  exact Moves.ite (fun _ => (moves_seqSilenced _).last (by decide) k) fun _ => k

/-! ## Claims -/

theorem moves_viewChanged (b : Bool) (s : State) :
    Moves [.pumps, .spin, .depth, .link] s (State.viewChanged b s) := by
  unfold State.viewChanged
  refine Moves.ite (fun _ => .refl _ s) fun _ => Moves.ite (fun _ => ?_) fun _ =>
    Moves.ite (fun _ => ?_) fun _ => .refl _ s
  · exact (moves_reevalPermit _).last (by decide) ((moves_mapPumps s _).mono (by decide))
  · exact (moves_reevalPermit _).last (by decide) ((moves_mapPumps s _).mono (by decide))

theorem moves_moveClaim (s : State) (p : ClaimPhase) :
    Moves [.ret, .pumps, .spin, .depth, .link] s (s.moveClaim p) :=
  (moves_viewChanged _ _).last (by decide) <| (moves_spinOwnerCheck _).last (by decide) <|
    (moves_announceClaim _).last (by decide) <| .setRet _ (.of_eq rfl rfl rfl rfl) (by decide) (.refl _ s)

theorem moves_startSettle (s : State) : Moves [.claims] s s.startSettle := moves_claims s _

/-- The parts a move of the own claim may change. -/
abbrev claimParts : List Part := [.ret, .claims, .pumps, .spin, .depth, .link, .seq]

theorem moves_takeTest (s : State) : Moves claimParts s s.takeTest := by
  unfold State.takeTest
  dsimp only
  refine Moves.ite (fun _ => ?_) fun _ => .refl _ s
  have h := (moves_startSettle _).last (by decide) ((moves_moveClaim s .pending).mono (q := claimParts) (by decide))
  exact Moves.ite (fun _ => (moves_seq _ _).last (by decide) h) fun _ => h

theorem moves_withdrawClaim (s : State) : Moves claimParts s s.withdrawClaim := by
  unfold State.withdrawClaim
  dsimp only
  have h := (moves_moveClaim _ .none).last (by decide)
    ((moves_claims s { s.claims with settle := none }).mono (q := claimParts) (by decide))
  exact Moves.ite (fun _ => (moves_seq _ _).last (by decide) h) fun _ => h

theorem moves_releaseClaim (s : State) : Moves claimParts s s.releaseClaim := by
  unfold State.releaseClaim
  dsimp only
  have h := (moves_claims s { s.claims with takeRequest := false }).mono (q := claimParts) (by decide)
  exact Moves.ite (fun _ => h) fun _ => (moves_moveClaim _ _).last (by decide) ((moves_claims s _).mono (by decide))

theorem moves_examineClaim (s : State) (k : Nat) (p : ClaimPhase) : Moves claimParts s (s.examineClaim k p) := by
  unfold State.examineClaim
  split
  · exact .refl _ s
  · exact Moves.ite (fun _ => .refl _ s) fun _ => Moves.ite (fun _ => moves_withdrawClaim s) fun _ =>
      (moves_startSettle s).mono (by decide)
  · exact (moves_conflictCheck s).mono (by decide)

theorem moves_mapPeer (s : State) (k : Nat) (f : PeerEntry → PeerEntry) : Moves [.peers] s (s.mapPeer k f) :=
  moves_peers s _

theorem moves_setPeerClaim (s : State) (k : Nat) (c : Claim) :
    Moves (.peers :: claimParts) s (s.setPeerClaim k c) := by
  unfold State.setPeerClaim
  dsimp only
  have h := (moves_mapPeer s k fun p => { p with claim := c }).mono (q := .peers :: claimParts) (by decide)
  refine Moves.ite (fun _ => ?_) fun _ => h
  have k := (moves_viewChanged s.viewHolds _).last (by decide) ((moves_spinOwnerCheck _).last (by decide) h)
  exact Moves.ite (fun _ => Moves.ite (fun _ => k) fun _ => (moves_takeTest _).last (by decide) k) fun _ =>
    Moves.ite (fun _ => k) fun _ => (moves_examineClaim _ _ _).last (by decide) k

theorem moves_settleExpired (s : State) : Moves claimParts s s.settleExpired.1 := by
  unfold State.settleExpired
  dsimp only
  split
  · split
    · exact (moves_moveClaim _ _).last (by decide) ((moves_claims s _).mono (by decide))
    · exact (moves_startSettle s).mono (by decide)
  · exact (moves_claims s _).mono (by decide)

/-! ## Rod records -/

theorem placeAt_onward (r : Retained) (id : Nat) (f : RodState → RodState) (k : Option Nat) :
    r.Onward (r.placeAt id f k) := .of_eq rfl rfl rfl rfl

theorem push_onward (r : Retained) (id : Nat) : r.Onward (r.push id) := .of_eq rfl rfl rfl rfl

theorem pop_onward (r : Retained) (id : Nat) : r.Onward (r.pop id) := .of_eq rfl rfl rfl rfl

theorem retire_onward (r : Retained) (id : Nat) : r.Onward (r.retire id) := .of_eq rfl rfl rfl rfl

theorem placing_onward {r r' : Retained} {d : Rod} {p : Place} {k : Nat} (h : r.placing d p k = some r') :
    r.Onward r' := by
  unfold Retained.placing at h
  repeat' split at h
  all_goals first
    | contradiction
    | (cases h; first | exact placeAt_onward _ _ _ _ | exact push_onward _ _ | exact .refl _)

theorem change_onward {m : RodEventMsg} {r r' : Retained} (h : m.change r = some r') : r.Onward r' := by
  unfold RodEventMsg.change at h
  repeat' split at h
  all_goals first
    | contradiction
    | exact placing_onward h
    | (cases h; first
      | exact placeAt_onward _ _ _ _ | exact push_onward _ _ | exact pop_onward _ _ | exact retire_onward _ _
      | exact .refl _)

theorem apply_onward {m : RodEventMsg} {r r' : Retained} (h : m.apply r = some r') : r.Onward r' := by
  unfold RodEventMsg.apply at h
  obtain ⟨a, ha, hb⟩ := Option.bind_eq_some_iff.1 h
  split at hb
  · cases hb
    have := change_onward ha
    exact ⟨this.hole, this.pumped, this.jobTime, this.job⟩
  · exact absurd hb (by simp)

theorem moves_countRetired (s : State) (id : Nat) : Moves [.ret] s (s.countRetired id) := by
  unfold State.countRetired
  refine Moves.ite (fun _ => ?_) fun _ => .refl _ s
  split
  · exact moves_ret s _ (.of_eq rfl rfl rfl rfl)
  · exact .refl _ s

theorem moves_makeEvent (s : State) (k : RodEventKind) (r l : Option Nat) (p : Option Place) :
    Moves [.ret, .link] s (s.makeEvent k r l p) :=
  (moves_broadcast _ _ _ _).last (by decide) (.setRet _ (.of_eq rfl rfl rfl rfl) (by decide) (.refl _ s))

theorem moves_rodChange (s : State) (v : Retained) (hv : s.ret.Onward v) (k : RodEventKind) (r l : Option Nat)
    (p : Option Place) : Moves [.ret, .link] s (s.rodChange v k r l p) :=
  (moves_makeEvent _ _ _ _ _).last (by decide) (.setRet _ hv (by decide) (.refl _ s))

end Sys2Proof.Machine
end

