-- ==== Sys2Proof/Laws/RodMoves.lean ====
section
/-! SUPPORT. What the rod view and the sequencer move. -/

namespace Sys2Proof.Machine

/-- The parts the rod view may change. -/
abbrev viewParts : List Part := [.ret, .depth, .rod, .link, .alarm]

/-! ## The rod view -/

theorem moves_viewUnsure (s : State) : Moves viewParts s s.viewUnsure :=
  (moves_depthFollows _ _).last (by decide) ((moves_rod s _).mono (by decide))

theorem moves_takeEvent (s : State) (m : RodEventMsg) : Moves viewParts s (s.takeEvent m) := by
  unfold State.takeEvent
  refine Moves.ite (fun _ => moves_viewUnsure s) fun _ => ?_
  split
  · exact moves_viewUnsure s
  · rename_i r hr
    have k := apply_onward hr
    have h := (moves_depthFollows _ s).last (by decide) (Moves.setRet { r with eventNo := m.number }
      ⟨k.hole, k.pumped, k.jobTime, k.job⟩ (by decide : Part.ret ∈ viewParts) (.refl _ s))
    exact Moves.ite (fun _ => h) fun _ => (moves_viewUnsure _).last (by decide) h

theorem moves_resyncAgain (s : State) : Moves [.rod] s s.resyncAgain :=
  Moves.ite (fun _ => .refl _ s) fun _ => moves_rod s _

theorem moves_issuePage (s : State) (d p : Nat) : Moves [.rod, .link] s (s.issuePage d p) :=
  (moves_rod _ _).last (by decide) <|
    (moves_onLink s (fun e => Link.issue e s.clockMs d stringReadCode [byteOf p]) fun _ _ h => by
      simpa using h).mono (by decide)

theorem moves_requestPage (s : State) : Moves [.rod, .link] s s.requestPage := by
  unfold State.requestPage
  refine Moves.ite (fun _ => ?_) fun _ => .refl _ s
  split
  · exact .refl _ s
  · exact Moves.ite (fun _ => moves_issuePage s _ _) fun _ => (moves_rod s _).mono (by decide)

theorem moves_viewUnsureNow (s : State) : Moves viewParts s s.viewUnsureNow :=
  (moves_requestPage _).last (by decide) ((moves_viewUnsure s).mono (by decide))

theorem moves_workHeld (l : List RodEventMsg) (s : State) : Moves viewParts s (s.workHeld l) := by
  induction l generalizing s with
  | nil => exact .refl _ s
  | cons m l ih =>
    unfold State.workHeld
    exact Moves.ite (fun _ => .refl _ s) fun _ => Moves.ite (fun _ => ih s) fun _ =>
      (ih _).last (by decide) (moves_takeEvent s m)

theorem moves_resyncComplete (s : State) (ids : List Nat) (hold : HoldRec) (n : Nat) :
    Moves viewParts s (s.resyncComplete ids hold n) := by
  unfold State.resyncComplete
  dsimp only
  have h : Moves viewParts s { s with
      ret := { s.ret.replaceString ids with hold := hold, eventNo := n }
      rod := { s.rod with sure := true, lagCount := 0, held := [], resync := Resync.begin } } :=
    ⟨by constructor <;> first | rfl | (intro _; rfl) | simp, id, .of_eq rfl rfl rfl rfl⟩
  have k := (moves_workHeld s.rod.held _).last (by decide) <| (moves_alarmsFollow _).last (by decide) <|
    (moves_depthFollows _ s).last (by decide) h
  exact Moves.ite (fun _ => k) fun _ => (moves_requestPage _).last (by decide) k

theorem moves_takePage (s : State) (p : PageData) : Moves viewParts s (s.takePage p) := by
  have h : Moves viewParts s (State.takePage.go s p) := by
    unfold State.takePage.go
    dsimp only
    have h := fun v => (moves_rod s v).mono (q := viewParts) (by decide)
    exact Moves.ite (fun _ => Moves.ite (fun _ => (moves_resyncComplete _ _ _ _).last (by decide) (h _))
      fun _ => (moves_resyncAgain _).last (by decide) (h _)) fun _ =>
        (moves_requestPage _).last (by decide) (h _)
  unfold State.takePage
  split
  · exact Moves.ite (fun _ => h) fun _ => (moves_resyncAgain s).mono (by decide)
  · exact h

theorem moves_pageEnded (s : State) (d : Nat) (b : Bool) (a : Option (Nat × List Byte)) :
    Moves viewParts s (s.pageEnded d b a) := by
  unfold State.pageEnded
  dsimp only
  have h := (moves_rod s { s.rod with resync := { s.rod.resync with request := .none } }).mono (q := viewParts)
    (by decide)
  refine Moves.ite (fun _ => h) fun _ => ?_
  split
  · exact h
  · refine Moves.ite (fun _ => ?_) fun _ => Moves.ite (fun _ => (moves_resyncAgain _).last (by decide) h)
      fun _ => h
    split
    · exact (moves_takePage _ _).last (by decide) h
    · exact h

theorem moves_resyncPeriod (s : State) : Moves [.rod, .link] s s.resyncPeriod := by
  unfold State.resyncPeriod
  refine Moves.ite (fun _ => ?_) fun _ => .refl _ s
  split
  · exact (moves_requestPage _).last (by decide) ((moves_rod s _).mono (by decide))
  · exact .refl _ s

theorem moves_rodSourceAgain (s : State) : Moves viewParts s s.rodSourceAgain := by
  unfold State.rodSourceAgain
  dsimp only
  refine Moves.ite (fun _ => ?_) fun _ => .refl _ s
  have h := (moves_rod s { s.rod with source := s.chooseRod, lagCount := 0 }).mono
    (q := viewParts) (by decide)
  exact Moves.ite (fun _ => (moves_viewUnsureNow _).last (by decide) h) fun _ =>
    (moves_resyncAgain _).last (by decide) h

theorem moves_rodStatus (s : State) (k : Nat) (m : StatusMsg) :
    Moves viewParts s (s.rodStatus k m) := by
  unfold State.rodStatus
  dsimp only
  have h := fun v => (moves_rod s v).mono (q := viewParts) (by decide)
  refine Moves.ite (fun _ => ?_) fun _ => .refl _ s
  refine Moves.ite (fun _ => ?_) fun _ => ?_
  · exact Moves.ite (fun _ => h _) fun _ => (moves_viewUnsureNow _).last (by decide) (h _)
  · exact Moves.ite (fun _ => (moves_viewUnsureNow _).last (by decide) (h _)) fun _ => h _

theorem moves_rodEventFrom (s : State) (k : Nat) (m : RodEventMsg) :
    Moves viewParts s (s.rodEventFrom k m) := by
  unfold State.rodEventFrom
  dsimp only
  refine Moves.ite (fun _ => ?_) fun _ => .refl _ s
  have h : ∀ t, Moves [.ret] s t → Moves viewParts s
      (if t.rod.sure then (if (t.takeEvent m).rod.sure then t.takeEvent m else (t.takeEvent m).requestPage)
      else if t.rod.held.length < Config.heldRoom then
        { t with rod := { t.rod with held := t.rod.held ++ [m] } } else t) := by
    intro t ht
    have ht := ht.mono (q := viewParts) (by decide)
    have h := (moves_takeEvent _ m).last (by decide) ht
    exact Moves.ite (fun _ => Moves.ite (fun _ => h) fun _ => (moves_requestPage _).last (by decide) h) fun _ =>
      Moves.ite (fun _ => (moves_rod _ _).last (by decide) ht) fun _ => ht
  split
  · exact h _ (moves_countRetired s _)
  · exact h _ (.refl _ s)

theorem moves_viewSettles (s : State) : Moves viewParts s s.viewSettles :=
  Moves.ite (fun _ => (moves_depthFollows _ _).last (by decide) ((moves_rod s _).mono (by decide)))
    fun _ => .refl _ s

/-! ## The SPIN service and the steps -/

/-- The parts the sequencer may change. -/
abbrev seqParts : List Part := [.ret, .claims, .pumps, .spin, .depth, .link, .seq, .alarm]

theorem moves_spinBegin (s : State) (r : Nat) (k : SpinKind) : Moves [.spin, .depth, .link] s (s.spinBegin r k) :=
  (moves_headCall _).last (by decide) ((moves_spin s _).mono (by decide))

theorem moves_spinService (s : State) (r c : Nat) : Moves [.spin, .depth, .link] s (s.spinService r c).1 := by
  unfold State.spinService
  split
  · exact .refl _ s
  · split
    · exact .refl _ s
    · split
      · exact .refl _ s
      · exact moves_spinBegin s _ _

theorem moves_mapUnit (s : State) (f : UnitRec → UnitRec) : Moves [.ret] s (s.mapUnit f) :=
  moves_ret s _ (.of_eq rfl rfl rfl rfl)

theorem moves_alignOutputs (s : State) : Moves [.ret] s s.alignOutputs := moves_ret s _ (.of_eq rfl rfl rfl rfl)

theorem moves_startTimer (s : State) (n : Nat) : Moves [.seq] s (s.startTimer n) := moves_seq s _

theorem moves_enterSelect (s : State) : Moves [.ret, .seq] s s.enterSelect := by
  unfold State.enterSelect
  refine Moves.ite (fun _ => moves_seqFault s _) fun _ => ?_
  split
  · exact moves_seqFault s _
  · exact (moves_startTimer _ _).last (by decide) ((moves_mapUnit s _).mono (by decide))

theorem moves_issueSpin (s : State) (d : Nat) (k : SpinKind) : Moves [.seq, .link] s (s.issueSpin d k) :=
  (moves_seq _ _).last (by decide) <|
    (moves_onLink s (fun e => Link.issue e s.clockMs d spinCode [byteOf k.code]) fun _ _ h => by
      simpa using h).mono (by decide)

theorem moves_enterSpin (s : State) (k : SpinKind) : Moves seqParts s (s.enterSpin k) := by
  unfold State.enterSpin
  split
  · exact (moves_seqFault s _).mono (by decide)
  · rename_i d hd
    have h := (moves_startTimer s 20000).mono (q := seqParts) (by decide)
    dsimp only
    refine Moves.ite (fun _ => ?_) fun _ => Moves.ite (fun _ => (moves_issueSpin _ _ _).last (by decide) h)
      fun _ => (moves_seq _ _).last (by decide) h
    have k' := (moves_spinService (s.startTimer 20000) d k.code).last (by decide) h
    split
    · rename_i e
      rw [e] at k'
      exact (moves_seq _ _).last (by decide) k'
    · rename_i e
      rw [e] at k'
      exact (moves_seqFault _ _).last (by decide) k'

theorem moves_enterStore (s : State) : Moves [.ret, .seq] s s.enterStore := by
  unfold State.enterStore
  split
  · exact moves_seqFault s _
  · exact (moves_seq _ _).last (by decide) <| (moves_startTimer _ _).last (by decide) <|
      (moves_mapUnit s _).mono (by decide)

theorem moves_stepFresh (s : State) (n : Nat) : Moves [.ret, .seq] s (s.stepFresh n) :=
  (moves_seq _ _).last (by decide) ((moves_mapUnit s _).mono (by decide))

theorem moves_driveClamp (s : State) (u : UnitRec) (b : Bool) : Moves [.ret] s (s.driveClamp u b) :=
  moves_ret s _ (.of_eq rfl rfl rfl rfl)

theorem moves_driveGrip (s : State) (b : Bool) : Moves [.ret] s (s.driveGrip b) :=
  moves_ret s _ (.of_eq rfl rfl rfl rfl)

theorem moves_loaderBack (s : State) : Moves [.ret, .seq] s s.loaderBack :=
  (moves_seq _ _).last (by decide) ((moves_driveGrip s _).mono (by decide))

theorem moves_enterStep (s : State) (n : Nat) : Moves seqParts s (s.enterStep n) := by
  unfold State.enterStep
  dsimp only
  have h := (moves_stepFresh s n).mono (q := seqParts) (by decide)
  split
  · exact h
  · split
    · exact h
    · exact (moves_startTimer _ _).last (by decide) ((moves_alignOutputs _).last (by decide) h)
    · exact Moves.ite (fun _ => (moves_enterSelect _).last (by decide) h) fun _ =>
        (moves_startTimer _ _).last (by decide) h
    · exact (moves_startTimer _ _).last (by decide) ((moves_driveClamp _ _ _).last (by decide) h)
    · have k := fun u => (moves_driveClamp _ u false).last (by decide) h
      exact (moves_startTimer _ _).last (by decide) (Moves.ite (fun _ => (moves_loaderBack _).last (by decide) (k _))
        fun _ => k _)
    · exact (moves_startTimer _ _).last (by decide) ((moves_seq _ _).last (by decide) h)
    · exact (moves_enterSpin _ _).last (by decide) h
    · exact (moves_startTimer _ _).last (by decide) ((moves_driveGrip _ _).last (by decide) h)
    · exact (moves_enterStore _).last (by decide) h

/-! ## Units -/

theorem moves_seqIdle (s : State) : Moves [.ret, .seq] s s.seqIdle :=
  ⟨by constructor <;> first | rfl | (intro _; rfl) | simp, id, .of_eq rfl rfl rfl rfl⟩

theorem moves_setLastOp (s : State) (k : OpKind) (r : OpResult) (e : Option OpEntry) :
    Moves [.seq] s (s.setLastOp k r e) := moves_seq s _

theorem moves_beginUnit (n : Nat) (s : State) : Moves seqParts s (State.beginUnit n s) := by
  have idle : ∀ s : State, Moves seqParts s s.seqIdle.releaseClaim := fun s =>
    (moves_releaseClaim _).last (by decide) ((moves_seqIdle s).mono (by decide))
  induction n generalizing s with
  | zero => exact idle s
  | succ n ih =>
    unfold State.beginUnit
    split
    · exact idle s
    · refine Moves.ite (fun _ => ?_) fun _ => ?_
      · exact (ih _).last (by decide) <| (moves_setLastOp _ _ _ _).last (by decide) <|
          (moves_seq s _).mono (by decide)
      · dsimp only
        have h : ∀ v, Moves seqParts s { s.seqIdle with ret := { s.seqIdle.ret with unit := v } } := fun v =>
          .setRet _ (.of_eq rfl rfl rfl rfl) (by decide) ((moves_seqIdle s).mono (by decide))
        refine Moves.ite (fun _ => (moves_enterStep _ _).last (by decide) (h _)) fun _ => ?_
        refine (moves_takeTest _).last (by decide) ?_
        refine Moves.next (q := [.ret, .seq, .claims]) ((moves_seqIdle s).mono (by decide)) ?_ (by decide)
        exact ⟨by constructor <;> first | rfl | (intro _; rfl) | simp, id, .of_eq rfl rfl rfl rfl⟩

theorem moves_unitEnd (s : State) (u : UnitRec) : Moves seqParts s (s.unitEnd u) := by
  unfold State.unitEnd
  split
  · exact (moves_beginUnit _ _).last (by decide) ((moves_setLastOp s _ _ _).mono (by decide))
  · refine (moves_beginUnit _ _).last (by decide) (Moves.ite (fun _ => ?_) fun _ => ?_)
    · exact (moves_setLastOp _ _ _ _).last (by decide) ((moves_seq s _).mono (by decide))
    · exact (moves_seq s _).mono (by decide)

theorem moves_unitOver (s : State) : Moves seqParts s s.unitOver :=
  (moves_beginUnit _ _).last (by decide) <| (moves_releaseClaim _).last (by decide) <|
    (moves_seqIdle s).mono (by decide)

theorem moves_unitAborted (s : State) (u : UnitRec) (e : Option OpEntry) : Moves seqParts s (s.unitAborted u e) :=
  (moves_unitOver _).last (by decide) ((moves_setLastOp s _ _ _).mono (by decide))

theorem moves_stepEnds (s : State) : Moves seqParts s s.stepEnds := by
  unfold State.stepEnds
  split
  · exact (moves_seqIdle s).mono (by decide)
  · refine Moves.ite (fun _ => Moves.ite (fun _ => moves_unitAborted s _ _) fun _ => ?_) fun _ =>
      Moves.ite (fun _ => moves_unitEnd s _) fun _ => moves_enterStep s _
    exact (moves_seqHold _ _).last (by decide) ⟨by constructor <;> first | rfl | (intro _; rfl) | simp, id,
      stepOn_onward _⟩

theorem moves_ending (s : State) : Moves [.seq] s s.ending := moves_seq s _

theorem moves_changeHold (s : State) (r : HoldRec) : Moves depthParts s (s.changeHold r) :=
  (moves_depthFollows _ _).last (by decide) <|
    (moves_rodChange s { s.ret with hold := r } (.of_eq rfl rfl rfl rfl) _ _ _ _).mono (by decide)

theorem moves_fetchDone (s : State) (u : UnitRec) : Moves [.ret, .seq] s (s.fetchDone u) := by
  unfold State.fetchDone
  dsimp only
  have h := fun v => (moves_seq s v).mono (q := [.ret, .seq]) (by decide)
  split
  · exact ⟨by constructor <;> first | rfl | (intro _; rfl) | simp, id, .of_eq rfl rfl rfl rfl⟩
  · exact h _

theorem moves_storeDone (s : State) (u : UnitRec) : Moves [.ret, .seq, .link] s (s.storeDone u) := by
  unfold State.storeDone
  dsimp only
  have h : Moves [.ret, .seq, .link] s { s with
      ret := { s.ret with gripOut := false }
      seq := { s.seq with store := false, timer := none } } :=
    ⟨by constructor <;> first | rfl | (intro _; rfl) | simp, id, .of_eq rfl rfl rfl rfl⟩
  split
  · have k := fun r hr a b c d => (moves_rodChange _ r hr a b c d).last (by decide) h
    exact Moves.ite (fun _ => (moves_countRetired _ _).last (by decide) <|
      (moves_rodChange _ _ (retire_onward _ _) _ _ _ _).last (by decide) (k _ (placeAt_onward _ _ _ _) _ _ _ _))
      fun _ => k _ (placeAt_onward _ _ _ _) _ _ _ _
  · exact h

theorem moves_phaseDone (s : State) : Moves seqParts s s.phaseDone := by
  unfold State.phaseDone
  split
  · exact .refl _ s
  · split
    · exact moves_stepEnds s
    · exact (moves_ending _).last (by decide) ((moves_changeHold s _).mono (by decide))
    · exact (moves_ending _).last (by decide) <| (moves_changeHold _ _).last (by decide) <|
        (moves_seq s _).mono (by decide)
    · exact ⟨by constructor <;> first | rfl | (intro _; rfl) | simp, id, .of_eq rfl rfl rfl rfl⟩
    · exact (moves_stepEnds _).last (by decide) ((moves_fetchDone s _).mono (by decide))
    · exact ⟨by constructor <;> first | rfl | (intro _; rfl) | simp, id, .of_eq rfl rfl rfl rfl⟩
    · exact (moves_ending _).last (by decide) ((moves_storeDone s _).mono (by decide))
    · exact (moves_stepEnds _).last (by decide) ((moves_seq s _).mono (by decide))

theorem moves_seqRunFor (n : Nat) (s : State) : Moves seqParts s (State.seqRunFor n s) := by
  induction n generalizing s with
  | zero => exact .refl _ s
  | succ n ih =>
    unfold State.seqRunFor
    exact Moves.ite (fun _ => (ih _).last (by decide) (moves_phaseDone s)) fun _ => .refl _ s

theorem moves_seqRun (s : State) : Moves seqParts s s.seqRun := moves_seqRunFor _ s

/-! ## Spins at the ROD station -/

theorem moves_spinChanges (s : State) (u : UnitRec) (k : SpinKind) :
    Moves depthParts s (s.spinChanges u k) := by
  unfold State.spinChanges
  split
  · exact moves_changeHold s _
  · exact moves_changeHold s _
  · split
    · refine (moves_depthFollows _ _).last (by decide) <| (moves_makeEvent _ _ _ _ _).last (by decide) <|
        Moves.mono (p := [.ret, .link]) (moves_rodChange s _ ?_ _ _ _ _) (by decide)
      exact .of_eq rfl rfl rfl rfl
    · exact moves_changeHold s _
  · split
    · refine (moves_depthFollows _ _).last (by decide) <| (moves_makeEvent _ _ _ _ _).last (by decide) <|
        Moves.mono (p := [.ret, .link]) (moves_rodChange s _ ?_ _ _ _ _) (by decide)
      exact .of_eq rfl rfl rfl rfl
    · exact moves_changeHold s _

theorem moves_spinDone (s : State) (u : UnitRec) (k : SpinKind) : Moves seqParts s (s.spinDone u k) := by
  unfold State.spinDone
  dsimp only
  have h := (moves_spinChanges _ u k).last (by decide)
    ((moves_seq s { s.seq with spin := .none }).mono (q := seqParts) (by decide))
  exact Moves.ite (fun _ => (moves_seqRun _).last (by decide) ((moves_seq _ _).last (by decide) h)) fun _ =>
    .setRet _ (stepOn_onward _) (by decide) h

theorem moves_spinReport (s : State) (k : Nat) (st : SpinState) (n : Nat) :
    Moves seqParts s (s.spinReport k st n) := by
  unfold State.spinReport
  split
  · refine Moves.ite (fun _ => ?_) fun _ => .refl _ s
    split
    · split
      · exact moves_spinDone s _ _
      · exact Moves.ite (fun _ => (moves_seqFault s _).mono (by decide)) fun _ => .refl _ s
      · exact Moves.ite (fun _ => (moves_seqFault s _).mono (by decide)) fun _ => .refl _ s
      · exact .refl _ s
      · exact .refl _ s
    · exact .refl _ s
  · exact .refl _ s

theorem moves_ownSpinReport (s : State) : Moves seqParts s s.ownSpinReport := moves_spinReport s _ _ _

theorem moves_spinEnded (s : State) (d : Nat) (a : Option (Nat × List Byte)) : Moves [.ret, .seq] s (s.spinEnded d a) := by
  unfold State.spinEnded
  dsimp only
  have h := fun v => (moves_seq s v).mono (q := [.ret, .seq]) (by decide)
  split
  · exact h _
  · exact Moves.ite (fun _ => (moves_seqFault _ _).last (by decide) (h _)) fun _ => h _

end Sys2Proof.Machine
end

