-- ==== Sys2Proof/Laws/CommandMoves.lean ====
section
/-! SUPPORT. What received frames, requests and field lines move; and what the end of a step leaves. -/

namespace Sys2Proof.Machine

/-! ## Received frames -/

/-- The parts a received frame may change. -/
abbrev frameParts : List Part :=
  [.ret, .link, .peers, .claims, .pumps, .circ, .depth, .rod, .seq, .spin, .strata, .billing, .alarm]

theorem moves_peerShift (s : State) : Moves frameParts s s.peerShift :=
  Moves.ite (fun _ => (moves_seqRun _).last (by decide) <| (moves_heardRefresh _).last (by decide) <|
    (moves_headRefresh _ _).last (by decide) ((moves_conflictCheck s).mono (by decide))) fun _ => .refl _ s

theorem moves_refreshPeer (s : State) (k q : Nat) : Moves frameParts s (s.refreshPeer k q) := by
  unfold State.refreshPeer
  dsimp only
  split
  · exact (moves_peers s _).mono (by decide)
  · have h := (moves_mapPeer s k (PeerEntry.refresh q (3 * s.statusPeriod))).mono (q := frameParts) (by decide)
    refine Moves.ite (fun _ => ?_) fun _ => h
    have k := (moves_peerShift _).last (by decide) ((moves_mapPeer _ k PeerEntry.returned).last (by decide) h)
    exact Moves.ite (fun _ => (moves_resyncAgain _).last (by decide) k) fun _ => k

theorem moves_peerStale (s : State) (k : Nat) : Moves frameParts s (s.peerStale k) := by
  unfold State.peerStale
  split
  · exact .refl _ s
  · exact Moves.ite (fun _ => .refl _ s) fun _ =>
      (moves_peerShift _).last (by decide) ((moves_mapPeer s _ _).mono (by decide))

theorem moves_digestCheck (s : State) (k q : Nat) (m : StatusMsg) : Moves [.peers, .link] s (s.digestCheck k q m) := by
  unfold State.digestCheck
  dsimp only
  have h := (moves_mapPeer s k fun p => { p with differed := s.digestDiffers m }).mono (q := [.peers, .link])
    (by decide)
  exact Moves.ite (fun _ => (moves_recordFault _ _ _ _ _).last (by decide) h) fun _ => h

theorem moves_statusFrom (s : State) (k q : Nat) (m : StatusMsg) : Moves frameParts s (s.statusFrom k q m) := by
  unfold State.statusFrom
  dsimp only
  have h := (moves_setPeerClaim _ k m.claim).last (by decide) <| (moves_digestCheck _ k q m).last (by decide) <|
    (moves_mapPeer s k fun p => { p with status := some m }).mono (q := frameParts) (by decide)
  have j := (moves_seqRun _).last (by decide) <| (moves_rodStatus _ k m).last (by decide) <|
    (moves_rodSourceAgain _).last (by decide) <| (moves_headRefresh _ s).last (by decide) <|
    (moves_heardRefresh _).last (by decide) h
  exact Moves.ite (fun _ => Moves.ite (fun _ => (moves_peerCloseTest _).last (by decide) j) fun _ => j) fun _ => h

theorem moves_volumeHeard (s : State) (k : Nat) (p : PumpId) (v : Nat) :
    Moves [.ret, .strata] s (s.volumeHeard k p v) := by
  unfold State.volumeHeard
  dsimp only
  have h := fun v => (moves_strata s v).mono (q := [.ret, .strata]) (by decide)
  exact Moves.ite (fun _ => .refl _ s) fun _ =>
    Moves.ite (fun _ => (moves_appendMark _ _ _).last (by decide) (h _)) fun _ => h _

theorem moves_peerCredit (s : State) (k : Nat) (m : StrokesMsg) :
    Moves [.ret, .billing, .pumps] s (s.peerCredit k m) := by
  unfold State.peerCredit
  split
  · exact Moves.ite (fun _ => moves_credit s _) fun _ => (moves_strokeGap s).mono (by decide)
  · exact (moves_strokeGap s).mono (by decide)

theorem moves_strokesFrom (s : State) (k : Nat) (m : StrokesMsg) : Moves frameParts s (s.strokesFrom k m) := by
  unfold State.strokesFrom
  dsimp only
  have h : Moves frameParts s (if s.inRun = true then s.peerCredit k m else s) :=
    Moves.ite (fun _ => (moves_peerCredit s k m).mono (by decide)) fun _ => .refl _ s
  have j := (moves_mapPeer _ k (PeerEntry.setStrokes m.pump ⟨some m.count, s.inRun⟩)).last (by decide) h
  exact Moves.ite (fun _ => (moves_volumeHeard _ _ _ _).last (by decide) j) fun _ => j

theorem moves_headFrom (s : State) (k : Nat) (m : HeadMsg) : Moves frameParts s (s.headFrom k m) := by
  unfold State.headFrom
  dsimp only
  have h := (moves_mapPeer s k fun p => { p with head := some m, headFresh := true }).mono (q := frameParts)
    (by decide)
  refine Moves.ite (fun _ => ?_) fun _ => h
  have j := (moves_headRefresh _ s).last (by decide) h
  exact (moves_spinReport _ _ _ _).last (by decide) <| (moves_seqRun _).last (by decide) <|
    Moves.ite (fun _ => (moves_wearCredit _).last (by decide) j) fun _ => j

theorem moves_requestEnded (s : State) (e : OutEntry) (a : Option (Nat × List Byte)) :
    Moves frameParts s (s.requestEnded e a) := by
  unfold State.requestEnded
  refine Moves.ite (fun _ => Moves.ite (fun _ => (moves_spinEnded s _ _).mono (by decide)) fun _ => .refl _ s)
    fun _ => ?_
  split
  · exact Moves.ite (fun _ => (moves_pageEnded s _ _ _).mono (by decide)) fun _ => .refl _ s
  · exact .refl _ s

theorem moves_answerFrom (s : State) (k t c : Nat) (d : List Byte) : Moves frameParts s (s.answerFrom k t c d) := by
  unfold State.answerFrom
  split
  · exact Moves.mono (p := [.link]) (moves_link s _ fun h => h) (by decide)
  · rename_i e _
    exact (moves_requestEnded _ _ _).last (by decide) <|
      Moves.mono (p := [.link]) (moves_link s (s.link.dropOutstanding e) id) (by decide)

theorem moves_answerTimedOut (s : State) (t : Nat) : Moves frameParts s (s.answerTimedOut t) := by
  unfold State.answerTimedOut
  split
  · exact .refl _ s
  · rename_i e _
    exact (moves_recordFault _ _ _ _ _).last (by decide) <| (moves_requestEnded _ _ _).last (by decide) <|
      Moves.mono (p := [.link]) (moves_link s (s.link.dropOutstanding e) id) (by decide)

theorem moves_arrive (s : State) (r : Request) : Moves [.link] s (s.arrive r) :=
  Moves.ite (fun _ => .refl _ s) fun _ => Moves.ite (fun _ => moves_link s _ id) fun _ => moves_answer s _ _ _ _

theorem moves_handOn (s : State) (f : RxFrame) : Moves frameParts s (s.handOn f) := by
  unfold State.handOn
  split
  · exact moves_statusFrom s _ _ _
  · exact moves_strokesFrom s _ _
  · exact moves_headFrom s _ _
  · exact (moves_rodEventFrom s _ _).mono (by decide)
  · exact (moves_setPeerClaim s _ _).mono (by decide)
  · exact .refl _ s
  · exact (moves_arrive s _).mono (by decide)
  · exact moves_answerFrom s _ _ _ _

theorem moves_goodFrame (s : State) (f : RxFrame) : Moves frameParts s (s.goodFrame f) := by
  unfold State.goodFrame
  dsimp only
  refine Moves.ite (fun _ => ?_) fun _ => ?_
  · exact (moves_listenOnlyNow _).last (by decide) ((moves_recordFault s _ _ _ _).mono (by decide))
  · exact Moves.ite (fun _ => (moves_handOn _ _).last (by decide) (moves_refreshPeer s _ _)) fun _ =>
      moves_refreshPeer s _ _

theorem moves_frameReceived (s : State) (b : List Byte) : Moves frameParts s (s.frameReceived b) := by
  unfold State.frameReceived
  dsimp only
  refine Moves.ite (fun _ => .refl _ s) fun _ => Moves.ite (fun _ => ((moves_link s { s.link with rx := .trailing } id).mono (q := frameParts) (by decide))) fun _ => ?_
  have h : Moves frameParts s (if s.link.lineBusy = true then s else s.onLink fun e => Link.goBusy e) :=
    Moves.ite (fun _ => .refl _ s) fun _ => (moves_onLink s _ fun _ _ h => by simpa using h).mono (by decide)
  have j := fun v hv => (moves_link _ v hv).last (by decide) h
  split
  · exact j _ id
  · exact (moves_goodFrame _ _).last (by decide) (j _ id)

/-! ## The line and sending -/

theorem moves_collide (s : State) (h : InHand) : Moves [.ret, .link, .claims, .pumps, .seq] s (s.collide h) := by
  unfold State.collide
  dsimp only
  have k := (moves_onLink s (fun e => Link.collide e h) fun _ _ h => by simpa using h).mono
    (q := [.ret, .link, .claims, .pumps, .seq]) (by decide)
  exact Moves.ite (fun _ => (moves_listenOnlyNow _).last (by decide) ((moves_recordFault _ _ _ _ _).last (by decide) k))
    fun _ => k

theorem moves_handStatus (s : State) : Moves [.link] s s.handStatus := moves_broadcast s _ _ _

theorem moves_statusPeriodEnd (s : State) : Moves [.link, .pumps, .depth, .rod] s s.statusPeriodEnd := by
  unfold State.statusPeriodEnd
  dsimp only
  have h := (moves_handStatus _).last (by decide)
    ((moves_link s { s.link with statusTimer := some s.statusPeriod } id).mono
      (q := [.link, .pumps, .depth, .rod]) (by decide))
  refine Moves.ite (fun _ => (moves_resyncPeriod _).last (by decide) ?_) fun _ => h
  have k := (moves_periodStrokes _ .b).last (by decide) ((moves_periodStrokes _ .a).last (by decide) h)
  exact Moves.ite (fun _ => (moves_handHead _).last (by decide) k) fun _ => k

theorem moves_requestEntry (s : State) (i : Issuer) : Moves [.seq, .rod, .link] s (s.requestEntry i) := by
  unfold State.requestEntry
  refine Moves.ite (fun _ => ?_) fun _ => .refl _ s
  split
  · split
    · exact (moves_issueSpin s _ _).mono (by decide)
    · exact .refl _ s
  · split
    · exact (moves_issuePage s _ _).mono (by decide)
    · exact .refl _ s

/-! ## Requests -/

theorem moves_present {p : List Part} (s : State) (r : Request) (f : Request → State → State)
    (h : ∀ q s, Moves p s (f q s)) (hp : Part.link ∈ p) : Moves p s (s.present r f) := by
  have a := (moves_arrive s r).mono (q := p) (by simpa using hp)
  have t : ∀ t : State, Moves p s t → Moves p s { t with link := t.link.popIntake } := fun t ht =>
    (moves_link t _ (by simp)).last (by simpa using hp) ht
  unfold State.present
  split
  · exact Moves.ite (fun _ => (h _ _).last (List.Subset.refl p) (t s (.refl _ s))) fun _ => a
  · dsimp only
    split
    · exact (h _ _).last (List.Subset.refl p) (t _ a)
    · exact a

theorem moves_serve {p : List Part} (s : State) (k : QueueId) (g : Gate) (q : Request)
    (f : Request → State → Served) (h : Moves p s (f q s).state) (hp : Part.link ∈ p) :
    Moves p s (s.serve k g q f) := by
  have a := fun c d => (moves_answer s k q c d).mono (q := p) (by simpa using hp)
  unfold State.serve
  exact Moves.ite (fun _ => a _ _) fun _ => Moves.ite (fun _ => a _ _) fun _ => Moves.ite (fun _ => a _ _) fun _ =>
    (moves_answer _ _ _ _ _).last (by simpa using hp) h

/-! ## The end of a step -/

/-- The end of a step leaves what the effect left, but for alarms, images and outputs. -/
theorem other_finish (s w : State) {p : List Part} (h : LeavesOther p s w) :
    LeavesOther (.alarm :: .link :: p) s (State.finish s w) := by
  have k := (h.trans (moves_alarmsFollow w).other).mono (q := .alarm :: .link :: p) (by
    intro x hx
    simp only [List.mem_append, List.mem_cons, List.not_mem_nil, or_false] at hx ⊢
    tauto)
  exact ⟨rfl, k.mode, k.straps, k.startKind, k.startSource, k.clock, k.pins, k.ret, k.link, k.peers, k.claims,
    k.thresholds, k.pumps, k.circ, k.depth, k.rod, k.seq, k.spin, k.strata, k.billing, k.alarm⟩

end Sys2Proof.Machine
end

