-- ==== Sys2Proof/Laws/ServiceMoves.lean ====
section
/-! SUPPORT. What each served request and each field line moves in RUN. -/

namespace Sys2Proof.Machine

/-! ## Requests of any role -/

theorem moves_setItem (s : State) (c i v : Nat) : Moves [.ret] s (s.setItem c i v) :=
  moves_ret s _ (.of_eq rfl rfl rfl rfl)

theorem moves_serviceChange (s : State) (p : PumpId) : Moves [.ret, .pumps] s (s.serviceChange p) := by
  unfold State.serviceChange
  dsimp only
  have h := fun v => (moves_setChan s p v).mono (q := [.ret, .pumps]) (by decide)
  exact Moves.ite (fun _ => .refl _ s) fun _ =>
    Moves.ite (fun _ => (moves_appendMark _ _ _).last (by decide) (h _)) fun _ => h _

theorem moves_serveConfigSet (q : Request) (s : State) : Moves [.ret, .pumps] s (serveConfigSet q s).state := by
  unfold serveConfigSet
  dsimp only
  split
  · exact .refl _ s
  · split
    · exact .refl _ s
    · exact .refl _ s
    · have h := (moves_setItem s (q.arg 0) (q.arg 1) (q.arg4 2)).mono (q := [.ret, .pumps]) (by decide)
      refine Moves.ite (fun _ => ?_) fun _ => h
      split
      · exact (moves_serviceChange _ _).last (by decide) h
      · exact h

theorem moves_serveConfigLock (q : Request) (s : State) (h : s.inRun = true) :
    (serveConfigLock q s).state = s := by
  unfold serveConfigLock; rw [if_pos h]; rfl

theorem moves_serveStatusRead (q : Request) (s : State) : (serveStatusRead q s).state = s := by
  unfold serveStatusRead; split <;> rfl

theorem moves_clearFault (s : State) : Moves [.link] s s.clearFault := moves_link s _ fun h => h

theorem moves_serveFaultClear (q : Request) (s : State) : Moves [.link, .alarm] s (serveFaultClear q s).state := by
  have h := (moves_clearFault s).mono (q := [.link, .alarm]) (by decide)
  exact Moves.ite (fun _ => (moves_report _ _ _).last (by decide) h) fun _ => h

theorem moves_serveClaimClear (q : Request) (s : State) :
    Moves (.peers :: claimParts) s (serveClaimClear q s).state := by
  unfold serveClaimClear
  dsimp only
  repeat' split
  all_goals first
    | exact .refl _ s
    | exact moves_setPeerClaim s _ _

theorem moves_serveAlarmAck (q : Request) (s : State) : Moves [.alarm] s (serveAlarmAck q s).state := by
  unfold serveAlarmAck
  repeat' split
  all_goals first
    | exact .refl _ s
    | exact moves_alarm s _

/-! ## PUMP, ROD, HEAD -/

theorem moves_servePumpRate (q : Request) (s : State) : Moves [.pumps] s (servePumpRate q s).state := by
  unfold servePumpRate
  dsimp only
  repeat' split
  all_goals first
    | exact .refl _ s
    | exact moves_setChan s _ _

theorem moves_serveRackLoad (q : Request) (s : State) : Moves [.ret, .link] s (serveRackLoad q s).state := by
  unfold serveRackLoad
  dsimp only
  repeat' split
  all_goals first
    | exact .refl _ s
    | exact moves_rodChange s _ (placeAt_onward _ _ _ _) _ _ _ _

theorem moves_serveRackUnload (q : Request) (s : State) : Moves [.ret, .link] s (serveRackUnload q s).state := by
  unfold serveRackUnload
  dsimp only
  repeat' split
  all_goals first
    | exact .refl _ s
    | exact moves_rodChange s _ (placeAt_onward _ _ _ _) _ _ _ _

theorem moves_serveStringRead (q : Request) (s : State) : (serveStringRead q s).state = s := by
  unfold serveStringRead
  dsimp only
  repeat' split
  all_goals rfl

theorem moves_serveRodOp (q : Request) (s : State) : Moves seqParts s (serveRodOp q s).state := by
  unfold serveRodOp
  dsimp only
  split
  · exact .refl _ s
  · split
    · exact .refl _ s
    · split
      · exact .refl _ s
      · split
        · exact .refl _ s
        · have h := fun v => (moves_seq s v).mono (q := seqParts) (by decide)
          exact Moves.ite (fun _ => (moves_seqRun _).last (by decide) ((moves_beginUnit _ _).last (by decide) (h _)))
            fun _ => h _

theorem moves_rodAbort (s : State) : Moves seqParts s s.rodAbort := by
  unfold State.rodAbort
  dsimp only
  have h := fun v => (moves_seq s v).mono (q := seqParts) (by decide)
  split
  · exact h _
  · exact Moves.ite (fun _ => (moves_unitAborted _ _ _).last (by decide) (h _)) fun _ => h _

theorem moves_serveRodAbort (q : Request) (s : State) : Moves seqParts s (serveRodAbort q s).state :=
  moves_rodAbort s

theorem moves_resume (s : State) (u : UnitRec) : Moves (.alarm :: seqParts) s (s.resume u) :=
  (moves_seqRun _).last (by decide) <| (moves_enterStep _ _).last (by decide) <|
    (moves_report _ _ _).last (by decide) ((moves_seq s _).mono (by decide))

theorem moves_serveRodResume (q : Request) (s : State) : Moves (.alarm :: seqParts) s (serveRodResume q s).state := by
  unfold serveRodResume
  repeat' split
  all_goals first
    | exact .refl _ s
    | exact (moves_unitOver s).mono (by decide)
    | exact moves_resume s _

theorem confirmed_onward {r r' : Retained} {a : ConfirmArgs} {d : Option Rod} (h : r.confirmed a d = some r') :
    r.Onward r' := by
  unfold Retained.confirmed at h
  dsimp only at h
  obtain ⟨b, hb, hc⟩ := Option.bind_eq_some_iff.1 h
  have k : r.Onward b := by
    split at hb
    · cases hb; exact .refl _
    · exact placing_onward hb
  split at hc
  · contradiction
  · cases hc
    exact ⟨k.hole, k.pumped, k.jobTime, k.job⟩

theorem moves_confirm (s : State) (r : Retained) (a : ConfirmArgs) (hr : s.ret.Onward r) :
    Moves seqParts s (s.confirm r a) := by
  unfold State.confirm
  dsimp only
  have h := (moves_depthFollows _ s).last (by decide) <|
    (moves_rodChange s r hr .confirmed a.rod (if a.rod.isSome && a.place == .slot then some a.slot else none)
      (if a.rod.isSome then some a.place else none)).mono (q := seqParts) (by decide)
  refine (moves_releaseClaim _).last (by decide) <| (moves_seqIdle _).last (by decide) ?_
  have k := fun v => (moves_seq _ v).last (by decide) h
  split
  · exact (moves_setLastOp _ _ _ _).last (by decide) (k _)
  · exact k _

theorem moves_serveRodConfirm (q : Request) (s : State) : Moves seqParts s (serveRodConfirm q s).state := by
  unfold serveRodConfirm
  dsimp only
  split
  · exact .refl _ s
  · split
    · exact .refl _ s
    · split
      · exact .refl _ s
      · split
        · exact .refl _ s
        · exact moves_confirm s _ _ (confirmed_onward ‹_›)

theorem moves_serveSpin (q : Request) (s : State) : Moves [.spin, .depth, .link] s (serveSpin q s).state :=
  moves_spinService s _ _

/-! ## RECORD -/

theorem moves_adjust (s : State) (iv : Interval) (o c d : Nat) : Moves [.ret] s (s.adjust iv o c d) :=
  .setRet _ (.of_eq rfl rfl rfl rfl) (by decide) (moves_mapInterval s _ _)

theorem moves_describe (s : State) (iv : Interval) (l c : Nat) (k : DescSource) (d : Nat) :
    Moves [.ret] s (s.describe iv l c k d) :=
  Moves.ite (fun _ => moves_mapInterval s _ _) fun _ => (moves_adjust _ _ _ _ _).last (by decide)
    (moves_mapInterval s _ _)

theorem moves_serveDescribe (q : Request) (s : State) : Moves [.ret] s (serveDescribe q s).state := by
  unfold serveDescribe
  dsimp only
  repeat' split
  all_goals first
    | exact .refl _ s
    | exact moves_describe s _ _ _ _ _

theorem moves_serveRecordRead (q : Request) (s : State) : (serveRecordRead q s).state = s := by
  unfold serveRecordRead
  repeat' split
  all_goals rfl

theorem moves_setDown (s : State) (b : Bool) : Moves [.ret] s (s.setDown b) :=
  moves_ret s _ (.of_eq rfl rfl rfl rfl)

theorem moves_serveDownBegin (q : Request) (s : State) : Moves [.ret] s (serveDownBegin q s).state :=
  by
    unfold serveDownBegin
    split
    · exact .refl _ s
    · exact (moves_appendMark _ _ _).last (by decide) (moves_setDown s _)

theorem moves_serveDownEnd (q : Request) (s : State) : Moves [.ret] s (serveDownEnd q s).state := by
  unfold serveDownEnd
  split
  · exact .refl _ s
  · exact (moves_appendMark _ _ _).last (by decide) (moves_setDown s _)

theorem moves_serveAdditive (q : Request) (s : State) : Moves [.ret] s (serveAdditive q s).state := by
  unfold serveAdditive
  dsimp only
  repeat' split
  all_goals first
    | exact .refl _ s
    | exact moves_ret s _ (.of_eq rfl rfl rfl rfl)

theorem moves_serveStatementRead (q : Request) (s : State) : (serveStatementRead q s).state = s := by
  unfold serveStatementRead
  split <;> rfl

/-! ## The job -/

theorem moves_beginClose (s : State) (k : Option CloseKind) (h : s.ret.job.code ≤ 2) :
    Moves [.ret] s (s.beginClose k) := moves_ret s _ ⟨le_rfl, Nat.min_le_right _ _, le_rfl, h⟩

theorem moves_closeJob (s : State) (b : Bool) (h : s.ret.job.code ≤ 2) :
    Moves [.ret, .billing, .pumps] s (s.closeJob b) := by
  have k := fun v => (moves_beginClose s v h).mono (q := [.ret, .billing, .pumps]) (by decide)
  unfold State.closeJob
  exact Moves.ite (fun _ => Moves.ite (fun _ => moves_abruptClose s _) fun _ =>
      (moves_completionTest _).last (by decide) (k _)) fun _ =>
    Moves.ite (fun _ => moves_plainClose s _) fun _ => (moves_peerCloseTest _).last (by decide) (k _)

theorem moves_serveJobClose (q : Request) (s : State) : Moves [.ret, .billing, .pumps] s (serveJobClose q s).state := by
  unfold serveJobClose
  split
  · exact .refl _ s
  · split
    · exact .refl _ s
    · rename_i h
      split
      · exact .refl _ s
      · refine moves_closeJob s _ ?_
        cases hj : s.ret.job <;> first | exact absurd hj h | decide

/-! ## Field lines -/

theorem moves_settleRun (s : State) : Moves seqParts s
    (if s.settleExpired.2 && s.settleExpired.1.seq.state == .claiming then (s.settleExpired.1.enterStep 2).seqRun
     else s.settleExpired.1) :=
  Moves.ite (fun _ => (moves_seqRun _).last (by decide) <| (moves_enterStep _ _).last (by decide) <|
    (moves_settleExpired s).mono (by decide)) fun _ => (moves_settleExpired s).mono (by decide)

theorem moves_thresholdTold (s : State) (c : ThresholdId) :
    Moves [.ret, .circ, .billing, .pumps] s (s.thresholdTold c) := by
  cases c
  · refine Moves.mono (p := [.pumps]) ?_ (by decide)
    unfold State.thresholdTold
    exact moves_mapPumps s _
  · exact .refl _ s
  · exact moves_heardUpdate s _

theorem moves_sampleTaken (s : State) (c : ThresholdId) (n : Nat) :
    Moves [.thresholds, .ret, .circ, .billing, .pumps] s (s.sampleTaken c n) := by
  unfold State.sampleTaken
  dsimp only
  have h := fun v => (moves_thresholds s v).mono (q := [.thresholds, .ret, .circ, .billing, .pumps]) (by decide)
  exact Moves.ite (fun _ => Moves.ite (fun _ => h _) fun _ => (moves_thresholdTold _ _).last (by decide) (h _))
    fun _ => .refl _ s

theorem moves_countStroke (s : State) (p : PumpId) : Moves [.ret] s (s.countStroke p) := by
  cases p <;> exact moves_ret s _ (.of_eq rfl rfl rfl rfl)

theorem moves_strokeAccepted (s : State) (p : PumpId) (n : Nat) :
    Moves [.ret, .billing, .pumps, .link] s (s.strokeAccepted p n) :=
  (moves_callStrokes _ _).last (by decide) <| (moves_setChan _ _ _).last (by decide) <|
    (moves_credit _ _).last (by decide) ((moves_countStroke s p).mono (by decide))

theorem moves_stamp (s : State) (n : Nat) : Moves [.clock] s (s.stamp n) := moves_clock s _

theorem moves_strokesHoldoffEnd (s : State) (p : PumpId) : Moves [.pumps, .link] s (s.strokesHoldoffEnd p) :=
  Moves.ite (fun _ => (moves_handStrokes _ _).last (by decide) ((moves_setChan s _ _).mono (by decide))) fun _ =>
    (moves_setChan s _ _).mono (by decide)

theorem moves_waterPulse (s : State) : Moves [.ret, .circ, .billing, .pumps] s s.waterPulse :=
  moves_heardUpdate s _

theorem moves_takeEvaluation (s : State) (e : Evaluation) :
    Moves [.ret, .circ, .billing, .pumps] s (s.takeEvaluation e) := by
  unfold State.takeEvaluation
  refine (moves_heardUpdate _ _).last (by decide) ?_
  exact ⟨by constructor <;> first | rfl | (intro _; rfl) | simp, id, .of_eq rfl rfl rfl rfl⟩

theorem moves_headMoved (s before : State) (b : Bool) : Moves seqParts s (s.headMoved before b) :=
  (moves_seqRun _).last (by decide) <| (moves_depthFollows _ _).last (by decide) <|
    Moves.ite (fun _ => (moves_headCall s).mono (by decide)) fun _ => .refl _ s

theorem moves_homed (s : State) : Moves seqParts s s.homed :=
  (moves_headMoved _ _ _).last (by decide) ((moves_depth s _).mono (by decide))

theorem moves_turnDone (s : State) (n : Nat) : Moves depthParts s (s.turnDone n) := by
  refine (moves_wearCredit _).last (by decide) ((moves_depthFollows _ _).last (by decide) ?_)
  exact ⟨by constructor <;> first | rfl | (intro _; rfl) | simp, id, .of_eq rfl rfl rfl rfl⟩

theorem moves_rotationPulse (s : State) (n : Nat) : Moves depthParts s (s.rotationPulse n) := by
  unfold State.rotationPulse
  dsimp only
  have h := fun v => (moves_depth s v).mono (q := depthParts) (by decide)
  exact Moves.ite (fun _ => (moves_turnDone _ _).last (by decide) (h _)) fun _ => h _

theorem moves_headHoldoffEnd (s : State) : Moves [.depth, .link] s s.headHoldoffEnd :=
  Moves.ite (fun _ => (moves_handHead _).last (by decide) ((moves_depth s _).mono (by decide))) fun _ =>
    (moves_depth s _).mono (by decide)

theorem moves_stepTimeout (s : State) : Moves [.ret, .seq] s s.stepTimeout := by
  unfold State.stepTimeout
  split
  · exact Moves.ite (fun _ => moves_seqFault s _) fun _ => .refl _ s
  · exact .refl _ s

theorem moves_spinOver (s : State) (st : SpinState) : Moves seqParts s (s.spinOver st) :=
  Moves.ite (fun _ => (moves_ownSpinReport _).last (by decide) ((moves_spinEnd s _).mono (by decide))) fun _ =>
    .refl _ s

theorem moves_meterSecond (s : State) : Moves [.ret] s s.meterSecond :=
  Moves.ite (fun _ => moves_ret s _ (.of_eq rfl rfl rfl rfl)) fun _ => .refl _ s

theorem moves_strataSecond (s : State) : Moves [.ret] s s.strataSecond :=
  Moves.ite (fun _ => moves_mapOpen s _) fun _ => .refl _ s

theorem moves_closingSecond (s : State) : Moves [.ret, .billing, .pumps] s s.closingSecond := by
  unfold State.closingSecond
  dsimp only
  refine Moves.ite (fun _ => ?_) fun _ => .refl _ s
  have h : Moves [.ret, .billing, .pumps] s
      { s with ret := { s.ret with closingSeconds := s.ret.closingSeconds + 1 } } :=
    .setRet _ (.of_eq rfl rfl rfl rfl) (by decide) (.refl _ s)
  exact Moves.ite (fun _ => Moves.ite (fun _ => (moves_abruptClose _ _).last (by decide) h) fun _ =>
    (moves_plainClose _ _).last (by decide) h) fun _ => h

theorem moves_jobSecond (s : State) : Moves [.ret, .billing, .pumps] s s.jobSecond := by
  unfold State.jobSecond
  dsimp only
  refine Moves.ite (fun _ => .refl _ s) fun _ => ?_
  have h := (moves_closingSecond _).last (by decide) <| (moves_strataSecond _).last (by decide) <|
    (moves_meterSecond _).last (by decide) <|
    Moves.setRet (p := [.ret, .billing, .pumps]) { s.ret with jobTime := s.ret.jobTime + 1 }
      ⟨le_rfl, Nat.min_le_right _ _, Nat.le_succ _, le_rfl⟩ (by decide) (.refl _ s)
  exact Moves.ite (fun _ => (moves_checkCeiling _).last (by decide) h) fun _ => h

end Sys2Proof.Machine
end

