-- ==== Sys2Proof/Laws/Finish.lean ====
section
/-! SUPPORT. What the end of a step (`State.finish`) leaves: every alarm flag as its condition stands, the newest
good image as the retained state, the outputs as the blocks drive them. -/

namespace Sys2Proof.Machine

/-! ## Flags -/

theorem code_lt (c : AlarmCond) : c.code < 15 := by cases c <;> decide

theorem code_inj {c d : AlarmCond} (h : c.code = d.code) : c = d := by
  cases c <;> cases d <;> first | rfl | exact absurd h (by decide)

theorem setFlag_get (f : BitVec 15) (c d : AlarmCond) (v : Bool) :
    (setFlag f c v).getLsbD d.code = if d = c then v else f.getLsbD d.code := by
  have hd := code_lt d
  unfold setFlag
  by_cases h : d = c
  · subst h
    cases v <;> simp [hd]
  · have hne : d.code ≠ c.code := fun e => h (code_inj e)
    rw [if_neg h]
    cases v <;> simp only [Bool.false_eq_true, if_false, if_true, BitVec.getLsbD_and, BitVec.getLsbD_or,
      BitVec.getLsbD_not, BitVec.getLsbD_shiftLeft, BitVec.getLsbD_one]
    · rcases lt_or_gt_of_ne hne with k | k
      · simp [hd, k]
      · have : d.code - c.code ≠ 0 := by omega
        simp [hd, this]
    · rcases lt_or_gt_of_ne hne with k | k
      · simp [k]
      · have : d.code - c.code ≠ 0 := by omega
        simp [this]

theorem mem_all (c : AlarmCond) : c ∈ AlarmCond.all := by cases c <;> decide

/-! ## Conditions -/

/-- A condition but LINK_FAULT reads no part that an ALARM frame or a flag changes. -/
theorem alarmCond_eq {s t : State} (h : LeavesOther [.alarm, .link] s t) {c : AlarmCond} (hc : c ≠ .linkFault) :
    t.alarmCond c = s.alarmCond c := by
  have hr := h.ret (by decide)
  have hp := h.peers (by decide)
  have hu := h.pumps (by decide)
  have hq := h.seq (by decide)
  have ho := h.rod (by decide)
  have hb := h.billing (by decide)
  have hs := h.straps
  have hd : t.digestDiffers = s.digestDiffers := funext fun m => by simp only [State.digestDiffers, hr]
  cases c
  case linkFault => exact absurd rfl hc
  case configMismatch => simp only [State.alarmCond, hp, hd]
  case depthLimit => simp only [State.alarmCond, State.cfg, hs, hr]; rfl
  all_goals simp only [State.alarmCond, State.isPit, State.inConflict, State.claimActive, State.otherClaims,
    State.claimView, State.viewSure, State.lastClosedUntracked, hr, hp, hu, hq, ho, hb, hs]

/-! ## Faults stay latched -/

theorem record_fault (e : LinkEnv) (k : FaultKind) (p : Option Nat) (f : Option FrameKind) (q : Option Nat)
    (l : Link) : (l.record e k p f q).fault.isSome = true := by
  unfold Link.record
  split
  · rfl
  · rename_i h; simp [h]

@[simp] theorem setQueue_fault (l : Link) (q : QueueId) (fs : List TxFrame) :
    (l.setQueue q fs).fault = l.fault := by cases q <;> rfl

@[simp] theorem take_fault (e : LinkEnv) (q : QueueId) (f : TxFrame) (l : Link) :
    (l.take e q f).fault = l.fault := rfl

@[simp] theorem arbitrate_fault (e : LinkEnv) (l : Link) : (l.arbitrate e).fault = l.fault := by
  unfold Link.arbitrate Link.arbitrate.next
  repeat' split
  all_goals simp

@[simp] theorem putBack_fault (h : InHand) (l : Link) : (l.putBack h).fault = l.fault := by
  unfold Link.putBack; simp

@[simp] theorem preempt_fault (l : Link) : l.preempt.fault = l.fault := by
  unfold Link.preempt
  repeat' split
  all_goals simp

@[simp] theorem settle_fault (e : LinkEnv) (l : Link) : (l.settle e).fault = l.fault := by
  unfold Link.settle; simp

theorem handUrgent_fault (e : LinkEnv) (f : TxFrame) (l : Link) (h : l.fault.isSome = true) :
    (l.handUrgent e f).fault.isSome = true := by
  unfold Link.handUrgent
  repeat' split
  all_goals first
    | exact h
    | exact record_fault _ _ _ _ _ _
    | (rw [settle_fault]; exact h)

theorem handRig_fault (e : LinkEnv) (f : TxFrame) (l : Link) (h : l.fault.isSome = true) :
    (l.handRig e f).fault.isSome = true := by
  unfold Link.handRig
  repeat' split
  all_goals first
    | exact h
    | (rw [settle_fault]; exact h)

theorem handPlain_fault (e : LinkEnv) (q : QueueId) (f : TxFrame) (l : Link) (h : l.fault.isSome = true) :
    (l.handPlain e q f).fault.isSome = true := by
  unfold Link.handPlain
  split
  · rw [settle_fault, setQueue_fault]; exact h
  · exact h

theorem handOver_fault (e : LinkEnv) (q : QueueId) (f : TxFrame) (l : Link) (h : l.fault.isSome = true) :
    (l.handOver e q f).fault.isSome = true := by
  unfold Link.handOver
  repeat' split
  · exact h
  · exact handUrgent_fault _ _ _ h
  · exact handRig_fault _ _ _ h
  · exact handPlain_fault _ _ _ _ h

theorem sendAlarm_fault (s : State) (c : AlarmCond) (b : Bool) (h : s.link.fault.isSome = true) :
    (s.sendAlarm c b).link.fault.isSome = true := handOver_fault _ _ _ _ h

/-! ## The flags follow -/

theorem flagged_isActive (s : State) (c d : AlarmCond) (b : Bool) :
    (s.flagged c b).alarm.isActive d = if d = c then b else s.alarm.isActive d := setFlag_get _ _ _ _

theorem report_isActive (s : State) (c d : AlarmCond) (b : Bool) :
    (s.report c b).alarm.isActive d = if d = c then b else s.alarm.isActive d := by
  unfold State.report
  split
  · rename_i h
    split
    · rename_i e; rw [e, h]
    · rfl
  · split
    · rw [(moves_sendAlarm _ c b).other.alarm (by decide)]
      exact flagged_isActive s c d b
    · exact flagged_isActive s c d b

theorem report_fault (s : State) (c : AlarmCond) (b : Bool) (h : s.link.fault.isSome = true) :
    (s.report c b).link.fault.isSome = true := by
  unfold State.report
  split
  · exact h
  · split
    · exact sendAlarm_fault _ _ _ h
    · exact h

/-- What holds once the conditions of a list have been followed. -/
structure Followed (l : List AlarmCond) (s : State) : Prop where
  others : ∀ c ∈ l, c ≠ .linkFault → s.alarm.isActive c = s.alarmCond c
  link : .linkFault ∈ l → s.alarm.isActive .linkFault = true → s.alarmCond .linkFault = true

theorem followed_follow {l : List AlarmCond} {s : State} (h : Followed l s) (c : AlarmCond) :
    Followed (c :: l) (s.follow c) := by
  have k := (moves_follow s c).other
  constructor
  · intro d hd hne
    rw [alarmCond_eq k hne]
    show (s.report c (s.alarmCond c)).alarm.isActive d = _
    rw [report_isActive]
    split
    · rename_i e; rw [e]
    · rename_i e
      exact h.others d ((List.mem_cons.1 hd).resolve_left e) hne
  · intro hd ha
    replace ha : (s.report c (s.alarmCond c)).alarm.isActive .linkFault = true := ha
    rw [report_isActive] at ha
    have hc : s.alarmCond .linkFault = true := by
      split at ha
      · rename_i e; rw [e]; exact ha
      · rename_i e
        exact h.link ((List.mem_cons.1 hd).resolve_left e) ha
    exact report_fault s c _ hc

theorem followed_foldl (l done : List AlarmCond) (s : State) (h : Followed done s) :
    Followed (l.reverse ++ done) (l.foldl State.follow s) := by
  induction l generalizing s done with
  | nil => exact h
  | cons c l ih =>
    have := ih (c :: done) (s.follow c) (followed_follow h c)
    simpa using this

/-- After the alarm unit has followed, every flag stands as its condition (R166, R167). -/
theorem alarmsFollow_settled (s : State) : s.alarmsFollow.AlarmsSettled := by
  intro hrun c
  have hm := (moves_alarmsFollow s).other.mode
  have hs : s.inRun = true := by
    unfold State.inRun at hrun ⊢; rw [hm] at hrun; exact hrun
  unfold State.alarmsFollow
  rw [if_pos hs]
  have h := followed_foldl AlarmCond.all [] s ⟨by simp, by simp⟩
  have h' : Followed AlarmCond.all (AlarmCond.all.foldl State.follow s) :=
    ⟨fun c _ => h.others c (by simpa using mem_all c), fun _ => h.link (by simpa using mem_all _)⟩
  generalize AlarmCond.all.foldl State.follow s = u at h'
  have k := followed_follow h' .linkFault
  by_cases hc : c = .linkFault
  · subst hc
    show (u.report .linkFault (u.alarmCond .linkFault)).alarm.isActive .linkFault = _
    rw [report_isActive, if_pos rfl]
    cases hu : u.alarmCond .linkFault with
    | true => exact (report_fault u _ _ hu).symm
    | false =>
      have hf : u.alarm.isActive .linkFault = false := by
        cases ha : u.alarm.isActive .linkFault with
        | false => rfl
        | true => exact absurd (h'.link (mem_all _) ha) (by rw [hu]; decide)
      have e : u.follow .linkFault = u := by
        unfold State.follow State.report
        rw [if_pos (by rw [hf, hu])]
      show false = (u.follow .linkFault).alarmCond .linkFault
      rw [e, hu]
  · exact k.others c (List.mem_cons_of_mem _ (mem_all c)) hc

/-- Where every flag stands as its condition, the alarm unit does nothing. -/
theorem alarmsFollow_of_settled (s : State) (h : s.AlarmsSettled) : s.alarmsFollow = s := by
  unfold State.alarmsFollow
  split
  · rename_i hr
    have e : ∀ c, s.follow c = s := fun c => by
      unfold State.follow State.report
      rw [if_pos (h hr c)]
    have f : ∀ l : List AlarmCond, l.foldl State.follow s = s := fun l => by
      induction l with
      | nil => rfl
      | cons c l ih => rw [List.foldl_cons, e c, ih]
    rw [f, e]
  · rfl

/-! ## Images -/

theorem numberGreater_next (n : Nat) : numberGreater ((n + 1) % 65536) n = true := by
  unfold numberGreater
  dsimp only
  have : ((n + 1) % 65536 + 65536 - n % 65536) % 65536 = 1 := by omega
  rw [this]; rfl

theorem numberGreater_prev (n : Nat) : numberGreater n ((n + 1) % 65536) = false := by
  unfold numberGreater
  dsimp only
  have : (n + 65536 - (n + 1) % 65536 % 65536) % 65536 = 65535 := by omega
  rw [this]; rfl

/-- What a commit leaves in the images (R20). -/
theorem commit_images (s w : State) : ImagesFollow s (State.commit s w) := by
  unfold ImagesFollow State.commit imageAfter writeTarget
  dsimp only
  by_cases h : w.ret = s.ret
  · simp [h]
  · by_cases k : newestGood s.first s.second = some .first <;> simp [h, k]

@[simp] theorem good_written (c : Retained) (n : Nat) : (Image.written c n).good = true := by
  simp [Image.good, Image.written]

@[simp] theorem good_failed (i : Image) : i.failed.good = false := by
  simp only [Image.good, Image.failed, beq_eq_false_iff_ne, ne_eq]
  omega

/-- The newest good image after a commit holds the retained state (R20). -/
theorem commit_retained (s w : State) (h : s.retainedImage = some s.ret) :
    (State.commit s w).retainedImage = some w.ret := by
  have hi := commit_images s w
  unfold ImagesFollow at hi
  have hr : (State.commit s w).ret = w.ret := rfl
  rw [hr] at hi
  unfold State.retainedImage at h ⊢
  split at hi
  · rename_i e
    rw [hi.1, hi.2, e]
    exact h
  · split at hi
    · rename_i hn
      have hg : s.first.good = true := by
        unfold newestGood at hn
        repeat' split at hn
        all_goals simp_all
      rw [hi.1, hi.2]
      simp [newestGood, hg, Image.written, numberGreater_next]
      simp [Image.good]
    · rename_i hn
      have hg : s.second.good = true := by
        unfold newestGood at hn h
        repeat' split at hn
        all_goals simp_all
      rw [hi.1, hi.2]
      simp [newestGood, hg, Image.written, numberGreater_prev]
      simp [Image.good]

/-! ## The end of a step -/

theorem finish_mode (s w : State) : (State.finish s w).mode = w.mode := by
  have h := (moves_alarmsFollow w).other.mode
  exact h

theorem finish_straps (s w : State) : (State.finish s w).straps = w.straps := by
  have h := (moves_alarmsFollow w).other.straps
  exact h

@[simp] theorem finish_pending (s w : State) : (State.finish s w).pending = s.pending := rfl

theorem finish_ret (s w : State) : (State.finish s w).ret = w.ret := by
  have h := (moves_alarmsFollow w).other.ret (by decide)
  exact h

theorem commit_alarm (s w : State) : (State.commit s w).alarm = w.alarm := rfl

theorem commit_link (s w : State) : (State.commit s w).link = w.link := rfl

theorem commit_other (p : List Part) (s w : State) : LeavesOther p w (State.commit s w) := by
  constructor <;> first | rfl | exact fun _ => rfl

theorem finish_alarm (s w : State) : (State.finish s w).alarm = w.alarmsFollow.alarm := commit_alarm s _

theorem finish_link (s w : State) : (State.finish s w).link = w.alarmsFollow.link := commit_link s _

/-- Every condition reads the same at the end of the step as when the flags followed. -/
theorem finish_cond (s w : State) (c : AlarmCond) :
    (State.finish s w).alarmCond c = w.alarmsFollow.alarmCond c := by
  have h := commit_other [] s w.alarmsFollow
  by_cases hc : c = .linkFault
  · subst hc
    show (State.commit s w.alarmsFollow).link.fault.isSome = _
    rw [commit_link]; rfl
  · have e : (State.finish s w).alarmCond c = (State.commit s w.alarmsFollow).alarmCond c := by
      cases c <;> rfl
    rw [e]
    exact alarmCond_eq (h.mono (by simp)) hc

theorem finish_settled (s w : State) : (State.finish s w).AlarmsSettled := by
  intro hr c
  have hm : (State.finish s w).mode = w.alarmsFollow.mode := by
    rw [finish_mode, (moves_alarmsFollow w).other.mode]
  have := alarmsFollow_settled w (by unfold State.inRun at hr ⊢; rw [← hm]; exact hr) c
  rw [finish_alarm, finish_cond]
  exact this

theorem finish_outputs (s w : State) : (State.finish s w).OutputsAgree := rfl

theorem finish_images (s w : State) : ImagesFollow s (State.finish s w) := commit_images s w.alarmsFollow

theorem finish_retained (s w : State) (h : s.retainedImage = some s.ret) :
    (State.finish s w).retainedImage = some (State.finish s w).ret := by
  rw [finish_ret, ← (moves_alarmsFollow w).other.ret (by decide)]
  exact commit_retained s w.alarmsFollow h

/-- A frame of the whole step from the frame of its effect: alarms and the link unit may move with it. -/
theorem finish_changes (s w : State) {p : List Part} (h : LeavesOther p s w) :
    ChangesOnly (.alarm :: .link :: p) s (State.finish s w) :=
  ⟨other_finish s w h, finish_images s w, rfl⟩

/-- Where the effect changes no alarm condition, alarms and link are left as the effect left them. -/
theorem finish_quiet (s w : State) {p : List Part} (h : LeavesOther p s w) (hs : w.AlarmsSettled) :
    ChangesOnly p s (State.finish s w) := by
  refine ⟨?_, finish_images s w, rfl⟩
  have e := alarmsFollow_of_settled w hs
  have k := h.trans (commit_other [] s w)
  have k' := k.mono (q := p) (by simp)
  unfold State.finish
  rw [e]
  exact ⟨rfl, k'.mode, k'.straps, k'.startKind, k'.startSource, k'.clock, k'.pins, k'.ret, k'.link, k'.peers,
    k'.claims, k'.thresholds, k'.pumps, k'.circ, k'.depth, k'.rod, k'.seq, k'.spin, k'.strata, k'.billing, k'.alarm⟩

/-! ## What a command leaves -/

/-- The end of a step settles the effect of the command. -/
theorem finish_settles (s w : State) (h : w.pending = s.pending) : Settles s w (State.finish s w) := by
  have a := (moves_alarmsFollow w).other
  have c := commit_other [.alarm, .link] s w.alarmsFollow
  refine ⟨⟨?_, finish_images s w, rfl⟩, finish_alarm s w, finish_link s w⟩
  have k := (a.trans c).mono (q := [.alarm, .link]) (by simp)
  exact ⟨h.symm, k.mode, k.straps, k.startKind, k.startSource, k.clock, k.pins, k.ret, k.link, k.peers, k.claims,
    k.thresholds, k.pumps, k.circ, k.depth, k.rod, k.seq, k.spin, k.strata, k.billing, k.alarm⟩

/-- Where no alarm condition differs from its flag, the end of a step leaves the effect as it is. -/
theorem finish_leaves (s w : State) (h : w.pending = s.pending) (hs : w.AlarmsSettled) :
    Leaves [] s w (State.finish s w) := by
  have e := alarmsFollow_of_settled w hs
  have k := finish_settles s w h
  have r := k.rest.other
  refine ⟨⟨r.pending, r.mode, r.straps, r.startKind, r.startSource, fun _ => r.clock (by decide),
    fun _ => r.pins (by decide), fun _ => r.ret (by decide), fun _ => ?_, fun _ => r.peers (by decide),
    fun _ => r.claims (by decide), fun _ => r.thresholds (by decide), fun _ => r.pumps (by decide),
    fun _ => r.circ (by decide), fun _ => r.depth (by decide), fun _ => r.rod (by decide),
    fun _ => r.seq (by decide), fun _ => r.spin (by decide), fun _ => r.strata (by decide),
    fun _ => r.billing (by decide), fun _ => ?_⟩, k.rest.images, k.rest.outs⟩
  · rw [k.link, e]
  · rw [k.alarm, e]

end Sys2Proof.Machine
end

