-- ==== Sys2Proof/Laws/Commands.lean ====
section
/-! SUPPORT. Every command at once: the form each meaning has (`exec_form`), and what the effect of each command
of a running station moves (`exec_moves`). -/

namespace Sys2Proof.Machine

open Host

/-! ## The form of a meaning -/

/-- An answer that is the effect `f` on the station with its input pins as they now stand. -/
def Effects (s : State) (f : State → State) (o : Outcome State Fault Refusal) : Prop :=
  ∃ p, o = .next (({ s with pins := p }).poweredDo f)

theorem effects_powered (s : State) (f : State → State) : Effects s f (.next (s.poweredDo f)) := ⟨s.pins, rfl⟩

theorem effects_run (s : State) (f : State → State) :
    Effects s (fun s => if s.inRun then f s else s) (.next (s.inRunDo f)) := ⟨s.pins, rfl⟩

theorem effects_pins (s : State) (p : Pins) (f : State → State) :
    Effects s (fun s => if s.inRun then f s else s) (.next (({ s with pins := p }).inRunDo f)) := ⟨p, rfl⟩

theorem moves_run {f : State → State} (h : ∀ s, Moves allParts s (f s)) (s : State) :
    Moves allParts s (if s.inRun then f s else s) := Moves.ite (fun _ => h s) fun _ => .refl _ s

/-- A command of the link unit or a request. -/
theorem form_powered {s : State} {f : State → State} (h : ∀ s, Moves allParts s (f s)) :
    ∃ g, Effects s g (.next (s.poweredDo f)) ∧ ∀ s, Moves allParts s (g s) := ⟨f, effects_powered s f, h⟩

/-- A command of the field lines. -/
theorem form_run {s : State} {f : State → State} (h : ∀ s, Moves allParts s (f s)) :
    ∃ g, Effects s g (.next (s.inRunDo f)) ∧ ∀ s, Moves allParts s (g s) := ⟨_, effects_run s f, moves_run h⟩

/-- A command of an input pin. -/
theorem form_pins {s : State} {p : Pins} {f : State → State} (h : ∀ s, Moves allParts s (f s)) :
    ∃ g, Effects s g (.next (({ s with pins := p }).inRunDo f)) ∧ ∀ s, Moves allParts s (g s) :=
  ⟨_, effects_pins s p f, moves_run h⟩

theorem moves_step {s t : State} {p : List Part} {c : Bool} (h : c = true → Moves p s t) :
    Moves allParts s (if c then t else s) := Moves.ite (fun k => (h k).all) fun _ => .refl _ s

/-- A request served by a block that moves `p`. -/
theorem moves_request {p : List Part} (s : State) (r : Request) (k : QueueId) (g : State → Gate)
    (f : Request → State → Served) (h : ∀ q s, Moves p s (f q s).state) :
    Moves allParts s (s.present r fun q s => s.serve k (g s) q f) :=
  moves_present s r _ (fun q s => moves_serve s k (g s) q f (h q s).all (by decide)) (by decide)

/-- A request that changes nothing but the link unit. -/
theorem moves_readOnly (s : State) (r : Request) (k : QueueId) (g : State → Gate)
    (f : Request → State → Served) (h : ∀ q s, (f q s).state = s) :
    Moves allParts s (s.present r fun q s => s.serve k (g s) q f) :=
  moves_request (p := []) s r k g f fun q s => by rw [h q s]; exact .refl _ s

/-- Every command but those of the supply, CONFIG_LOCK and JOB_CLEAR is an effect that moves the parts of the
station and nothing else. -/
theorem exec_form (c : Instr) (s : State) (h : c.isSupply = false) (hb : c ≠ .backupSupplyExhausted)
    (hl : ∀ rq, c ≠ .configLock rq) (hj : ∀ rq, c ≠ .jobClear rq) :
    ∃ g, Effects s g (exec c s) ∧ ∀ s, Moves allParts s (g s) := by
  cases c with
  | powerStart => cases h
  | pinStart => cases h
  | resetAssert => cases h
  | supplyLoss => cases h
  | backupSupplyExhausted => exact absurd rfl hb
  | configLock rq => exact absurd rfl (hl rq)
  | jobClear rq => exact absurd rfl (hj rq)
  | lineQuiet => exact form_powered fun s => moves_step fun _ => moves_link s _ (by simp)
  | frameReceived b => exact form_powered fun s => (moves_frameReceived s b).all
  | accessDelayExpiry =>
    refine form_powered fun s => ?_
    split
    · exact moves_step fun _ => moves_link s _ (by simp)
    · exact .refl _ s
  | deferral => exact form_powered fun s => moves_step fun _ => moves_onLink s _ fun _ _ h => by simpa using h
  | collision =>
    refine form_powered fun s => ?_
    split
    · exact moves_step fun _ => moves_collide s _
    · exact .refl _ s
  | frameSent => exact form_powered fun s => moves_step fun _ => moves_onLink s _ fun _ _ h => by simpa using h
  | rodEventJoin =>
    refine form_powered fun s => ?_
    have h := (moves_onLink s Link.joinFirst fun _ _ h => by simpa using h).all
    exact Moves.ite (fun _ => (moves_seqRun _).last (by decide) h) fun _ => h
  | lineStuck => exact form_powered fun s => moves_step fun _ => moves_onLink s _ fun _ _ h => by simpa using h
  | statusPeriodExpiry => exact form_powered fun s => moves_step fun _ => moves_statusPeriodEnd s
  | unknownRequest rq code =>
    exact form_powered fun s => Moves.ite (fun _ => (moves_arrive s _).all) fun _ =>
      moves_present s _ _ (fun q s => (moves_answer s _ _ _ _).all) (by decide)
  | requestEntry i => exact form_run fun s => (moves_requestEntry s i).all
  | answerTimeout t => exact form_powered fun s => (moves_answerTimedOut s _).all
  | peerStale k => exact form_powered fun s => (moves_peerStale s k).all
  | identify => exact form_powered fun s => moves_readOnly s _ _ _ _ fun _ _ => rfl
  | configSet rq key i k v =>
    exact form_powered fun s => ((moves_request _ _ _ _ _ moves_serveConfigSet).last (List.Subset.refl _)
      (moves_pins s _).all)
  | statusRead => exact form_powered fun s => moves_readOnly s _ _ _ _ moves_serveStatusRead
  | faultClear => exact form_powered fun s => moves_request s _ _ _ _ moves_serveFaultClear
  | claimClear => exact form_powered fun s => moves_request s _ _ _ _ moves_serveClaimClear
  | pumpRate => exact form_powered fun s => moves_request s _ _ _ _ moves_servePumpRate
  | rackLoad => exact form_powered fun s => moves_request s _ _ _ _ moves_serveRackLoad
  | rackUnload => exact form_powered fun s => moves_request s _ _ _ _ moves_serveRackUnload
  | stringRead => exact form_powered fun s => moves_readOnly s _ _ _ _ moves_serveStringRead
  | rodOp => exact form_powered fun s => moves_request s _ _ _ _ moves_serveRodOp
  | rodAbort => exact form_powered fun s => moves_request s _ _ _ _ moves_serveRodAbort
  | rodResume => exact form_powered fun s => moves_request s _ _ _ _ moves_serveRodResume
  | rodConfirm => exact form_powered fun s => moves_request s _ _ _ _ moves_serveRodConfirm
  | spin => exact form_powered fun s => moves_request s _ _ _ _ moves_serveSpin
  | describe => exact form_powered fun s => moves_request s _ _ _ _ moves_serveDescribe
  | recordRead => exact form_powered fun s => moves_readOnly s _ _ _ _ moves_serveRecordRead
  | downBegin => exact form_powered fun s => moves_request s _ _ _ _ moves_serveDownBegin
  | downEnd => exact form_powered fun s => moves_request s _ _ _ _ moves_serveDownEnd
  | additive => exact form_powered fun s => moves_request s _ _ _ _ moves_serveAdditive
  | statementRead => exact form_powered fun s => moves_readOnly s _ _ _ _ moves_serveStatementRead
  | jobClose => exact form_powered fun s => moves_request s _ _ _ _ moves_serveJobClose
  | alarmAck => exact form_powered fun s => moves_request s _ _ _ _ moves_serveAlarmAck
  | settleExpiry => exact form_run fun s => moves_step fun _ => moves_settleRun s
  | listenWindowEnd =>
    exact form_run fun s => moves_step (p := allParts) fun _ => (moves_viewSettles _).last (by decide) <|
      (moves_reevalPermit _).last (by decide) <| (moves_takeTest _).last (by decide) (moves_claims s _).all
  | thresholdSample k => exact form_run fun s => (moves_sampleTaken s k _).all
  | strokeEdge p e n =>
    refine form_run fun s => ?_
    have h := (moves_stamp s n).all
    exact Moves.ite (fun _ => (moves_strokeAccepted _ _ _).last (by decide) h) fun _ => h
  | strokeStoppedExpiry p =>
    exact form_run fun s => moves_step (p := allParts) fun _ => (moves_seqRun _).last (by decide) (moves_setChan s p _).all
  | startTimerExpiry p => exact form_run fun s => (moves_setChan s p _).all
  | pwmPeriod p => exact form_run fun s => moves_step fun _ => moves_setChan s p _
  | strokesHoldoffExpiry p => exact form_run fun s => moves_step fun _ => moves_strokesHoldoffEnd s p
  | waterPulse => exact form_run fun s => moves_step fun _ => moves_waterPulse s
  | balanceEvaluation =>
    exact form_run fun s => moves_step (p := allParts) fun _ =>
      (moves_takeEvaluation _ _).last (by decide) (moves_circ s _).all
  | encoderCount up =>
    exact form_run fun s => moves_step (p := allParts) fun _ => (moves_headMoved _ _ _).last (by decide) (moves_depth s _).all
  | topLimit level => exact form_pins fun s => moves_step fun _ => moves_homed s
  | rotationPulse n =>
    refine form_run fun s => ?_
    have h := (moves_stamp s n).all
    exact Moves.ite (fun _ => (moves_rotationPulse _ _).last (by decide) h) fun _ => h
  | rotationIdleTimeout =>
    exact form_run fun s => moves_step (p := allParts) fun _ =>
      (moves_depthFollows _ _).last (by decide) (moves_depth s _).all
  | headHoldoffExpiry => exact form_run fun s => moves_step fun _ => moves_headHoldoffEnd s
  | clampClosed => exact form_pins fun s => (moves_seqRun s).all
  | clampOpen => exact form_pins fun s => (moves_seqRun s).all
  | slotCode => exact form_pins fun s => (moves_seqRun s).all
  | rodPresented => exact form_pins fun s => (moves_seqRun s).all
  | gripped => exact form_pins fun s => (moves_seqRun s).all
  | slotOccupied => exact form_pins fun s => (moves_seqRun s).all
  | stepTimerExpiry => exact form_run fun s => (moves_stepTimeout s).all
  | spinDoneInput level => exact form_pins fun s => Moves.ite (fun _ => (moves_spinOver s _).all) fun _ => .refl _ s
  | spinTimerExpiry => exact form_run fun s => moves_step fun _ => moves_spinOver s _
  | jobSecond => exact form_run fun s => moves_step fun _ => moves_jobSecond s
  | lineBusy =>
    exact form_powered fun s => Moves.ite (fun _ => (moves_onLink s _ fun _ _ h => by simpa using h).all)
      fun _ => Moves.ite (fun _ => .refl _ s) fun _ => (moves_link s _ (by simp)).all
  | stopBitMissing => exact form_powered fun s => moves_step fun _ => moves_link s _ (by simp)

/-- What a station in RUN does when CONFIG_LOCK or JOB_CLEAR is presented keeps its straps. -/
theorem present_straps (s : State) (r : Request) (f : Request → State → State)
    (h : ∀ q s, (f q s).straps = s.straps) : (s.present r f).straps = s.straps := by
  have a := (moves_arrive s r).other.straps
  unfold State.present
  split
  · split
    · exact h _ _
    · exact a
  · dsimp only
    split
    · exact (h _ _).trans a
    · exact a

/-- CONFIG_LOCK in RUN is an answer and nothing more (R26). -/
theorem lock_in_run (s : State) (rq : ReqHead) (h : s.inRun = true) :
    Moves allParts s
      (s.present (requestOf rq configLockCode []) fun q s => s.serve .exchange ⟨true, 0, true⟩ q serveConfigLock) := by
  have g : ∀ q (t : State), t.inRun = true →
      Moves allParts t (t.serve .exchange ⟨true, 0, true⟩ q serveConfigLock) := fun q t ht =>
    moves_serve t _ _ q _ (by rw [moves_serveConfigLock q t ht]; exact .refl _ t) (by decide)
  have p : ∀ t : State, Moves allParts t { t with link := t.link.popIntake } := fun t => (moves_link t _ (by simp)).all
  have a := moves_arrive s (requestOf rq configLockCode [])
  unfold State.present
  split
  · exact Moves.ite (fun _ => (g _ { s with link := s.link.popIntake } h).last (List.Subset.refl _) (p s)) fun _ => a.all
  · dsimp only
    split
    · exact (g _ { s.arrive _ with link := (s.arrive _).link.popIntake } (by
        unfold State.inRun at h ⊢; rw [← h]; exact congrArg (· == Mode.run) a.other.mode)).last (List.Subset.refl _)
        ((p _).last (List.Subset.refl _) a.all)
    · exact a.all

end Sys2Proof.Machine
end

