-- ==== Sys2Proof/Laws/Items.lean ====
section
/-! SUPPORT. What the store of items reads after a change (R23, R24), and the digest of the COLD values. -/

namespace Sys2Proof.Machine

/-! ## The digest of the COLD values -/

/-- The check is the fold of its bytes (R6). -/
theorem crcOver_eq (bytes : List Byte) (crc : Nat) :
    crcOver crc bytes = bytes.foldl (fun crc b => crcByte crc b.toNat) crc := by
  induction bytes generalizing crc with
  | nil => rfl
  | cons b rest ih => rw [crcOver]; split <;> simp [*]

/-- The digest of a station that has taken no item (R24, R25). -/
theorem coldDigest_eq : coldDigest = configDigest [] := by decide +kernel

/-! ## Items read after a change -/

theorem itemGet_drop (items : Items) (c i c' i' : Nat) :
    itemGet (itemDrop items c i) c' i' = if c' = c ∧ i' = i then coldValue c i else itemGet items c' i' := by
  unfold itemDrop
  induction items with
  | nil => simp only [List.filter_nil, itemGet]; split <;> rename_i h <;> simp [h]
  | cons e rest ih =>
    rw [List.filter_cons]
    by_cases h : e.code = c ∧ e.index = i
    · rw [if_neg (by simp [h]), ih, itemGet]
      by_cases k : c' = c ∧ i' = i
      · rw [if_pos k, if_pos k]
      · rw [if_neg k, if_neg k, if_neg (by rintro ⟨a, b⟩; exact k ⟨by rw [← a, h.1], by rw [← b, h.2]⟩)]
    · rw [if_pos (by simpa [imp_iff_not_or] using fun x y => h ⟨x, y⟩)]
      simp only [itemGet]
      by_cases k : e.code = c' ∧ e.index = i'
      · rw [if_pos k, if_pos k, if_neg (by rintro ⟨rfl, rfl⟩; exact h k)]
      · rw [if_neg k, if_neg k, ih]

theorem itemGet_insert (items : Items) (v : ItemValue)
    (free : ∀ e ∈ items, ¬(e.code = v.code ∧ e.index = v.index)) (c' i' : Nat) :
    itemGet (itemInsert items v) c' i' =
      if c' = v.code ∧ i' = v.index then v.value else itemGet items c' i' := by
  induction items with
  | nil =>
    simp only [itemInsert, itemGet]
    by_cases h : c' = v.code ∧ i' = v.index
    · simp [h]
    · rw [if_neg h, if_neg (by rintro ⟨a, b⟩; exact h ⟨a.symm, b.symm⟩)]
  | cons e rest ih =>
    rw [itemInsert]
    have he := free e (by simp)
    have ih := ih fun x hx => free x (by simp [hx])
    split
    · simp only [itemGet]
      by_cases k : e.code = c' ∧ e.index = i'
      · rw [if_pos k, if_pos k, if_neg (by rintro ⟨rfl, rfl⟩; exact he k)]
      · rw [if_neg k, if_neg k, ih]
    · simp only [itemGet]
      by_cases h : c' = v.code ∧ i' = v.index
      · rw [if_pos ⟨h.1.symm, h.2.symm⟩, if_pos h]
      · rw [if_neg (by rintro ⟨a, b⟩; exact h ⟨a.symm, b.symm⟩), if_neg h]

/-- An item set reads as its value, and every other item as before. -/
theorem itemGet_set (items : Items) (c i v c' i' : Nat) :
    itemGet (itemSet items c i v) c' i' = if c' = c ∧ i' = i then v else itemGet items c' i' := by
  unfold itemSet
  dsimp only
  split
  · rename_i h
    rw [itemGet_drop, h]
  · rw [itemGet_insert]
    · rw [itemGet_drop]
      split <;> rfl
    · intro e he
      simp only [itemDrop, List.mem_filter, Bool.not_eq_true', Bool.and_eq_false_iff, beq_eq_false_iff_ne] at he
      rintro ⟨a, b⟩
      rcases he.2 with h | h
      · exact h a
      · exact h b

end Sys2Proof.Machine
end

