-- ==== Sys2Proof/Laws/LinkKeeps.lean ====
section
/-! SUPPORT. What a frame handed to the link unit leaves alone: the line, what is received, the requests and the
timers (R8, R9, R16). -/

namespace Sys2Proof.Machine

/-- `l'` has from `l` everything but the queues, the frame in hand, the arbiter, the answer drops and the fault
record. -/
structure Link.Keeps (l l' : Link) : Prop where
  lineBusy : l'.lineBusy = l.lineBusy
  stuck : l'.stuck = l.stuck
  rx : l'.rx = l.rx
  ownSeq : l'.ownSeq = l.ownSeq
  tagCounter : l'.tagCounter = l.tagCounter
  intake : l'.intake = l.intake
  outstanding : l'.outstanding = l.outstanding
  rxErrors : l'.rxErrors = l.rxErrors
  unmatched : l'.unmatched = l.unmatched
  listenOnly : l'.listenOnly = l.listenOnly
  statusTimer : l'.statusTimer = l.statusTimer

theorem Link.Keeps.refl (l : Link) : l.Keeps l := ⟨rfl, rfl, rfl, rfl, rfl, rfl, rfl, rfl, rfl, rfl, rfl⟩

theorem Link.Keeps.trans {a b c : Link} (h : a.Keeps b) (k : b.Keeps c) : a.Keeps c :=
  ⟨k.lineBusy.trans h.lineBusy, k.stuck.trans h.stuck, k.rx.trans h.rx, k.ownSeq.trans h.ownSeq,
   k.tagCounter.trans h.tagCounter, k.intake.trans h.intake, k.outstanding.trans h.outstanding,
   k.rxErrors.trans h.rxErrors, k.unmatched.trans h.unmatched, k.listenOnly.trans h.listenOnly,
   k.statusTimer.trans h.statusTimer⟩

theorem keeps_record (e : LinkEnv) (k : FaultKind) (p : Option Nat) (f : Option FrameKind) (q : Option Nat)
    (l : Link) : l.Keeps (l.record e k p f q) := by
  unfold Link.record
  split <;> constructor <;> rfl

theorem keeps_setQueue (l : Link) (q : QueueId) (fs : List TxFrame) : l.Keeps (l.setQueue q fs) := by
  cases q <;> constructor <;> rfl

theorem keeps_take (e : LinkEnv) (q : QueueId) (f : TxFrame) (l : Link) : l.Keeps (l.take e q f) := by
  constructor <;> rfl

theorem keeps_arbitrate (e : LinkEnv) (l : Link) : l.Keeps (l.arbitrate e) := by
  have c : ∀ (q : QueueId) (fs : List TxFrame) (n : Nat) (f : TxFrame),
      l.Keeps (({ l.setQueue q fs with arbCount := n } : Link).take e q f) := fun q fs n f =>
    (keeps_setQueue l q fs).trans (by constructor <;> rfl)
  have d : ∀ (q : QueueId) (fs : List TxFrame) (f : TxFrame),
      l.Keeps (({ l.setQueue q fs with arbQueue := q, arbCount := 1 } : Link).take e q f) := fun q fs f =>
    (keeps_setQueue l q fs).trans (by constructor <;> rfl)
  unfold Link.arbitrate Link.arbitrate.next
  repeat' split
  all_goals first
    | exact .refl l
    | exact c _ _ _ _
    | exact d _ _ _
    | constructor <;> rfl

theorem keeps_putBack (h : InHand) (l : Link) : l.Keeps (l.putBack h) :=
  (keeps_setQueue l _ _).trans (by constructor <;> rfl)

theorem keeps_preempt (l : Link) : l.Keeps l.preempt := by
  unfold Link.preempt
  repeat' split
  all_goals first
    | exact keeps_putBack _ l
    | exact .refl l

theorem keeps_settle (e : LinkEnv) (l : Link) : l.Keeps (l.settle e) :=
  (keeps_preempt l).trans (keeps_arbitrate e _)

theorem keeps_joinFirst (e : LinkEnv) (l : Link) : l.Keeps (l.joinFirst e) := by
  unfold Link.joinFirst
  repeat' split
  · exact .refl l
  · refine Link.Keeps.trans ?_ (keeps_settle e _)
    exact Link.Keeps.trans (b := { l with rodWait := _ }) (by constructor <;> rfl) (keeps_setQueue _ _ _)
  · exact .refl l

theorem keeps_handUrgent (e : LinkEnv) (f : TxFrame) (l : Link) : l.Keeps (l.handUrgent e f) := by
  unfold Link.handUrgent
  repeat' split
  all_goals first
    | exact keeps_record _ _ _ _ _ l
    | (constructor <;> rfl)
    | exact Link.Keeps.trans (b := { l with urgent := _ }) (by constructor <;> rfl) (keeps_settle e _)

theorem keeps_handRig (e : LinkEnv) (f : TxFrame) (l : Link) : l.Keeps (l.handRig e f) := by
  unfold Link.handRig
  repeat' split
  all_goals first
    | exact .refl l
    | (constructor <;> rfl)
    | exact Link.Keeps.trans (b := { l with rig := _ }) (by constructor <;> rfl) (keeps_settle e _)

theorem keeps_handPlain (e : LinkEnv) (q : QueueId) (f : TxFrame) (l : Link) : l.Keeps (l.handPlain e q f) := by
  unfold Link.handPlain
  split
  · exact (keeps_setQueue l _ _).trans (keeps_settle e _)
  · constructor <;> rfl

/-- A frame handed over leaves the line, the receiver, the requests and the timers as they were. -/
theorem keeps_handOver (e : LinkEnv) (q : QueueId) (f : TxFrame) (l : Link) : l.Keeps (l.handOver e q f) := by
  unfold Link.handOver
  repeat' split
  · exact .refl l
  · exact keeps_handUrgent e f l
  · exact keeps_handRig e f l
  · exact keeps_handPlain e _ f l

theorem keeps_report (s : State) (c : AlarmCond) (b : Bool) : s.link.Keeps (s.report c b).link := by
  unfold State.report
  repeat' split
  all_goals first
    | exact .refl _
    | exact keeps_handOver (s.flagged c b).linkEnv .urgent _ s.link

/-- The alarm unit hands ALARM frames and leaves the rest of the link unit as it was. -/
theorem keeps_alarmsFollow (s : State) : s.link.Keeps s.alarmsFollow.link := by
  have h : ∀ (l : List AlarmCond) (s : State), s.link.Keeps (l.foldl State.follow s).link := fun l => by
    induction l with
    | nil => exact fun s => .refl _
    | cons c l ih => exact fun s => (keeps_report s c _).trans (ih _)
  unfold State.alarmsFollow
  split
  · exact (h _ s).trans (keeps_report _ _ _)
  · exact .refl _

/-- So does the end of a step. -/
theorem keeps_finish (s w : State) : w.link.Keeps (State.finish s w).link := by
  rw [finish_link]; exact keeps_alarmsFollow w

end Sys2Proof.Machine
end

