-- ==== Sys2Proof/Laws/State.lean ====
section
/-! SUPPORT. What each named update of the station leaves in each of its fields. -/

namespace Sys2Proof.Machine

/-! ## onLink -/

@[simp] theorem State.onLink_pending (s : State) (f : LinkEnv → Link → Link) : (s.onLink f).pending = s.pending := rfl
@[simp] theorem State.onLink_mode (s : State) (f : LinkEnv → Link → Link) : (s.onLink f).mode = s.mode := rfl
@[simp] theorem State.onLink_clockMs (s : State) (f : LinkEnv → Link → Link) : (s.onLink f).clockMs = s.clockMs := rfl
@[simp] theorem State.onLink_lastWrite (s : State) (f : LinkEnv → Link → Link) :
    (s.onLink f).lastWrite = s.lastWrite := rfl
@[simp] theorem State.onLink_straps (s : State) (f : LinkEnv → Link → Link) : (s.onLink f).straps = s.straps := rfl
@[simp] theorem State.onLink_startKind (s : State) (f : LinkEnv → Link → Link) :
    (s.onLink f).startKind = s.startKind := rfl
@[simp] theorem State.onLink_startSource (s : State) (f : LinkEnv → Link → Link) :
    (s.onLink f).startSource = s.startSource := rfl
@[simp] theorem State.onLink_pins (s : State) (f : LinkEnv → Link → Link) : (s.onLink f).pins = s.pins := rfl
@[simp] theorem State.onLink_outs (s : State) (f : LinkEnv → Link → Link) : (s.onLink f).outs = s.outs := rfl
@[simp] theorem State.onLink_first (s : State) (f : LinkEnv → Link → Link) : (s.onLink f).first = s.first := rfl
@[simp] theorem State.onLink_second (s : State) (f : LinkEnv → Link → Link) : (s.onLink f).second = s.second := rfl
@[simp] theorem State.onLink_ret (s : State) (f : LinkEnv → Link → Link) : (s.onLink f).ret = s.ret := rfl
@[simp] theorem State.onLink_link (s : State) (f : LinkEnv → Link → Link) :
    (s.onLink f).link = f s.linkEnv s.link := rfl
@[simp] theorem State.onLink_peers (s : State) (f : LinkEnv → Link → Link) : (s.onLink f).peers = s.peers := rfl
@[simp] theorem State.onLink_claims (s : State) (f : LinkEnv → Link → Link) : (s.onLink f).claims = s.claims := rfl
@[simp] theorem State.onLink_thresholds (s : State) (f : LinkEnv → Link → Link) :
    (s.onLink f).thresholds = s.thresholds := rfl
@[simp] theorem State.onLink_pumps (s : State) (f : LinkEnv → Link → Link) : (s.onLink f).pumps = s.pumps := rfl
@[simp] theorem State.onLink_circ (s : State) (f : LinkEnv → Link → Link) : (s.onLink f).circ = s.circ := rfl
@[simp] theorem State.onLink_depth (s : State) (f : LinkEnv → Link → Link) : (s.onLink f).depth = s.depth := rfl
@[simp] theorem State.onLink_rod (s : State) (f : LinkEnv → Link → Link) : (s.onLink f).rod = s.rod := rfl
@[simp] theorem State.onLink_seq (s : State) (f : LinkEnv → Link → Link) : (s.onLink f).seq = s.seq := rfl
@[simp] theorem State.onLink_spin (s : State) (f : LinkEnv → Link → Link) : (s.onLink f).spin = s.spin := rfl
@[simp] theorem State.onLink_strata (s : State) (f : LinkEnv → Link → Link) : (s.onLink f).strata = s.strata := rfl
@[simp] theorem State.onLink_billing (s : State) (f : LinkEnv → Link → Link) : (s.onLink f).billing = s.billing := rfl
@[simp] theorem State.onLink_alarm (s : State) (f : LinkEnv → Link → Link) : (s.onLink f).alarm = s.alarm := rfl

/-! ## hand -/

@[simp] theorem State.hand_pending (s : State) (q : QueueId) (f : TxFrame) : (s.hand q f).pending = s.pending := rfl
@[simp] theorem State.hand_mode (s : State) (q : QueueId) (f : TxFrame) : (s.hand q f).mode = s.mode := rfl
@[simp] theorem State.hand_clockMs (s : State) (q : QueueId) (f : TxFrame) : (s.hand q f).clockMs = s.clockMs := rfl
@[simp] theorem State.hand_lastWrite (s : State) (q : QueueId) (f : TxFrame) :
    (s.hand q f).lastWrite = s.lastWrite := rfl
@[simp] theorem State.hand_straps (s : State) (q : QueueId) (f : TxFrame) : (s.hand q f).straps = s.straps := rfl
@[simp] theorem State.hand_startKind (s : State) (q : QueueId) (f : TxFrame) :
    (s.hand q f).startKind = s.startKind := rfl
@[simp] theorem State.hand_startSource (s : State) (q : QueueId) (f : TxFrame) :
    (s.hand q f).startSource = s.startSource := rfl
@[simp] theorem State.hand_pins (s : State) (q : QueueId) (f : TxFrame) : (s.hand q f).pins = s.pins := rfl
@[simp] theorem State.hand_outs (s : State) (q : QueueId) (f : TxFrame) : (s.hand q f).outs = s.outs := rfl
@[simp] theorem State.hand_first (s : State) (q : QueueId) (f : TxFrame) : (s.hand q f).first = s.first := rfl
@[simp] theorem State.hand_second (s : State) (q : QueueId) (f : TxFrame) : (s.hand q f).second = s.second := rfl
@[simp] theorem State.hand_ret (s : State) (q : QueueId) (f : TxFrame) : (s.hand q f).ret = s.ret := rfl
@[simp] theorem State.hand_link (s : State) (q : QueueId) (f : TxFrame) :
    (s.hand q f).link = Link.handOver s.linkEnv q f s.link := rfl
@[simp] theorem State.hand_peers (s : State) (q : QueueId) (f : TxFrame) : (s.hand q f).peers = s.peers := rfl
@[simp] theorem State.hand_claims (s : State) (q : QueueId) (f : TxFrame) : (s.hand q f).claims = s.claims := rfl
@[simp] theorem State.hand_thresholds (s : State) (q : QueueId) (f : TxFrame) :
    (s.hand q f).thresholds = s.thresholds := rfl
@[simp] theorem State.hand_pumps (s : State) (q : QueueId) (f : TxFrame) : (s.hand q f).pumps = s.pumps := rfl
@[simp] theorem State.hand_circ (s : State) (q : QueueId) (f : TxFrame) : (s.hand q f).circ = s.circ := rfl
@[simp] theorem State.hand_depth (s : State) (q : QueueId) (f : TxFrame) : (s.hand q f).depth = s.depth := rfl
@[simp] theorem State.hand_rod (s : State) (q : QueueId) (f : TxFrame) : (s.hand q f).rod = s.rod := rfl
@[simp] theorem State.hand_seq (s : State) (q : QueueId) (f : TxFrame) : (s.hand q f).seq = s.seq := rfl
@[simp] theorem State.hand_spin (s : State) (q : QueueId) (f : TxFrame) : (s.hand q f).spin = s.spin := rfl
@[simp] theorem State.hand_strata (s : State) (q : QueueId) (f : TxFrame) : (s.hand q f).strata = s.strata := rfl
@[simp] theorem State.hand_billing (s : State) (q : QueueId) (f : TxFrame) : (s.hand q f).billing = s.billing := rfl
@[simp] theorem State.hand_alarm (s : State) (q : QueueId) (f : TxFrame) : (s.hand q f).alarm = s.alarm := rfl

/-! ## recordFault -/

@[simp] theorem State.recordFault_pending (s : State) (k : FaultKind) (p : Option Nat) (f : Option FrameKind) (n : Option Nat) :
    (s.recordFault k p f n).pending = s.pending := rfl
@[simp] theorem State.recordFault_mode (s : State) (k : FaultKind) (p : Option Nat) (f : Option FrameKind) (n : Option Nat) :
    (s.recordFault k p f n).mode = s.mode := rfl
@[simp] theorem State.recordFault_clockMs (s : State) (k : FaultKind) (p : Option Nat) (f : Option FrameKind) (n : Option Nat) :
    (s.recordFault k p f n).clockMs = s.clockMs := rfl
@[simp] theorem State.recordFault_lastWrite (s : State) (k : FaultKind) (p : Option Nat) (f : Option FrameKind) (n : Option Nat) :
    (s.recordFault k p f n).lastWrite = s.lastWrite := rfl
@[simp] theorem State.recordFault_straps (s : State) (k : FaultKind) (p : Option Nat) (f : Option FrameKind) (n : Option Nat) :
    (s.recordFault k p f n).straps = s.straps := rfl
@[simp] theorem State.recordFault_startKind (s : State) (k : FaultKind) (p : Option Nat) (f : Option FrameKind) (n : Option Nat) :
    (s.recordFault k p f n).startKind = s.startKind := rfl
@[simp] theorem State.recordFault_startSource (s : State) (k : FaultKind) (p : Option Nat) (f : Option FrameKind) (n : Option Nat) :
    (s.recordFault k p f n).startSource = s.startSource := rfl
@[simp] theorem State.recordFault_pins (s : State) (k : FaultKind) (p : Option Nat) (f : Option FrameKind) (n : Option Nat) :
    (s.recordFault k p f n).pins = s.pins := rfl
@[simp] theorem State.recordFault_outs (s : State) (k : FaultKind) (p : Option Nat) (f : Option FrameKind) (n : Option Nat) :
    (s.recordFault k p f n).outs = s.outs := rfl
@[simp] theorem State.recordFault_first (s : State) (k : FaultKind) (p : Option Nat) (f : Option FrameKind) (n : Option Nat) :
    (s.recordFault k p f n).first = s.first := rfl
@[simp] theorem State.recordFault_second (s : State) (k : FaultKind) (p : Option Nat) (f : Option FrameKind) (n : Option Nat) :
    (s.recordFault k p f n).second = s.second := rfl
@[simp] theorem State.recordFault_ret (s : State) (k : FaultKind) (p : Option Nat) (f : Option FrameKind) (n : Option Nat) :
    (s.recordFault k p f n).ret = s.ret := rfl
@[simp] theorem State.recordFault_link (s : State) (k : FaultKind) (p : Option Nat) (f : Option FrameKind) (n : Option Nat) :
    (s.recordFault k p f n).link = Link.record s.linkEnv k p f n s.link := rfl
@[simp] theorem State.recordFault_peers (s : State) (k : FaultKind) (p : Option Nat) (f : Option FrameKind) (n : Option Nat) :
    (s.recordFault k p f n).peers = s.peers := rfl
@[simp] theorem State.recordFault_claims (s : State) (k : FaultKind) (p : Option Nat) (f : Option FrameKind) (n : Option Nat) :
    (s.recordFault k p f n).claims = s.claims := rfl
@[simp] theorem State.recordFault_thresholds (s : State) (k : FaultKind) (p : Option Nat) (f : Option FrameKind) (n : Option Nat) :
    (s.recordFault k p f n).thresholds = s.thresholds := rfl
@[simp] theorem State.recordFault_pumps (s : State) (k : FaultKind) (p : Option Nat) (f : Option FrameKind) (n : Option Nat) :
    (s.recordFault k p f n).pumps = s.pumps := rfl
@[simp] theorem State.recordFault_circ (s : State) (k : FaultKind) (p : Option Nat) (f : Option FrameKind) (n : Option Nat) :
    (s.recordFault k p f n).circ = s.circ := rfl
@[simp] theorem State.recordFault_depth (s : State) (k : FaultKind) (p : Option Nat) (f : Option FrameKind) (n : Option Nat) :
    (s.recordFault k p f n).depth = s.depth := rfl
@[simp] theorem State.recordFault_rod (s : State) (k : FaultKind) (p : Option Nat) (f : Option FrameKind) (n : Option Nat) :
    (s.recordFault k p f n).rod = s.rod := rfl
@[simp] theorem State.recordFault_seq (s : State) (k : FaultKind) (p : Option Nat) (f : Option FrameKind) (n : Option Nat) :
    (s.recordFault k p f n).seq = s.seq := rfl
@[simp] theorem State.recordFault_spin (s : State) (k : FaultKind) (p : Option Nat) (f : Option FrameKind) (n : Option Nat) :
    (s.recordFault k p f n).spin = s.spin := rfl
@[simp] theorem State.recordFault_strata (s : State) (k : FaultKind) (p : Option Nat) (f : Option FrameKind) (n : Option Nat) :
    (s.recordFault k p f n).strata = s.strata := rfl
@[simp] theorem State.recordFault_billing (s : State) (k : FaultKind) (p : Option Nat) (f : Option FrameKind) (n : Option Nat) :
    (s.recordFault k p f n).billing = s.billing := rfl
@[simp] theorem State.recordFault_alarm (s : State) (k : FaultKind) (p : Option Nat) (f : Option FrameKind) (n : Option Nat) :
    (s.recordFault k p f n).alarm = s.alarm := rfl

/-! ## taken -/

@[simp] theorem State.taken_pending (s : State) : s.taken.pending = s.pending := rfl
@[simp] theorem State.taken_mode (s : State) : s.taken.mode = s.mode := rfl
@[simp] theorem State.taken_clockMs (s : State) : s.taken.clockMs = s.clockMs := rfl
@[simp] theorem State.taken_lastWrite (s : State) : s.taken.lastWrite = s.lastWrite := rfl
@[simp] theorem State.taken_straps (s : State) : s.taken.straps = s.straps := rfl
@[simp] theorem State.taken_startKind (s : State) : s.taken.startKind = s.startKind := rfl
@[simp] theorem State.taken_startSource (s : State) : s.taken.startSource = s.startSource := rfl
@[simp] theorem State.taken_pins (s : State) : s.taken.pins = s.pins := rfl
@[simp] theorem State.taken_outs (s : State) : s.taken.outs = s.outs := rfl
@[simp] theorem State.taken_first (s : State) : s.taken.first = s.first := rfl
@[simp] theorem State.taken_second (s : State) : s.taken.second = s.second := rfl
@[simp] theorem State.taken_ret (s : State) : s.taken.ret = s.ret := rfl
@[simp] theorem State.taken_link (s : State) : s.taken.link = s.link.popIntake := rfl
@[simp] theorem State.taken_peers (s : State) : s.taken.peers = s.peers := rfl
@[simp] theorem State.taken_claims (s : State) : s.taken.claims = s.claims := rfl
@[simp] theorem State.taken_thresholds (s : State) : s.taken.thresholds = s.thresholds := rfl
@[simp] theorem State.taken_pumps (s : State) : s.taken.pumps = s.pumps := rfl
@[simp] theorem State.taken_circ (s : State) : s.taken.circ = s.circ := rfl
@[simp] theorem State.taken_depth (s : State) : s.taken.depth = s.depth := rfl
@[simp] theorem State.taken_rod (s : State) : s.taken.rod = s.rod := rfl
@[simp] theorem State.taken_seq (s : State) : s.taken.seq = s.seq := rfl
@[simp] theorem State.taken_spin (s : State) : s.taken.spin = s.spin := rfl
@[simp] theorem State.taken_strata (s : State) : s.taken.strata = s.strata := rfl
@[simp] theorem State.taken_billing (s : State) : s.taken.billing = s.billing := rfl
@[simp] theorem State.taken_alarm (s : State) : s.taken.alarm = s.alarm := rfl

/-! ## stamp -/

@[simp] theorem State.stamp_pending (s : State) (n : Nat) : (s.stamp n).pending = s.pending := rfl
@[simp] theorem State.stamp_mode (s : State) (n : Nat) : (s.stamp n).mode = s.mode := rfl
@[simp] theorem State.stamp_clockMs (s : State) (n : Nat) : (s.stamp n).clockMs = max s.clockMs n := rfl
@[simp] theorem State.stamp_lastWrite (s : State) (n : Nat) : (s.stamp n).lastWrite = s.lastWrite := rfl
@[simp] theorem State.stamp_straps (s : State) (n : Nat) : (s.stamp n).straps = s.straps := rfl
@[simp] theorem State.stamp_startKind (s : State) (n : Nat) : (s.stamp n).startKind = s.startKind := rfl
@[simp] theorem State.stamp_startSource (s : State) (n : Nat) : (s.stamp n).startSource = s.startSource := rfl
@[simp] theorem State.stamp_pins (s : State) (n : Nat) : (s.stamp n).pins = s.pins := rfl
@[simp] theorem State.stamp_outs (s : State) (n : Nat) : (s.stamp n).outs = s.outs := rfl
@[simp] theorem State.stamp_first (s : State) (n : Nat) : (s.stamp n).first = s.first := rfl
@[simp] theorem State.stamp_second (s : State) (n : Nat) : (s.stamp n).second = s.second := rfl
@[simp] theorem State.stamp_ret (s : State) (n : Nat) : (s.stamp n).ret = s.ret := rfl
@[simp] theorem State.stamp_link (s : State) (n : Nat) : (s.stamp n).link = s.link := rfl
@[simp] theorem State.stamp_peers (s : State) (n : Nat) : (s.stamp n).peers = s.peers := rfl
@[simp] theorem State.stamp_claims (s : State) (n : Nat) : (s.stamp n).claims = s.claims := rfl
@[simp] theorem State.stamp_thresholds (s : State) (n : Nat) : (s.stamp n).thresholds = s.thresholds := rfl
@[simp] theorem State.stamp_pumps (s : State) (n : Nat) : (s.stamp n).pumps = s.pumps := rfl
@[simp] theorem State.stamp_circ (s : State) (n : Nat) : (s.stamp n).circ = s.circ := rfl
@[simp] theorem State.stamp_depth (s : State) (n : Nat) : (s.stamp n).depth = s.depth := rfl
@[simp] theorem State.stamp_rod (s : State) (n : Nat) : (s.stamp n).rod = s.rod := rfl
@[simp] theorem State.stamp_seq (s : State) (n : Nat) : (s.stamp n).seq = s.seq := rfl
@[simp] theorem State.stamp_spin (s : State) (n : Nat) : (s.stamp n).spin = s.spin := rfl
@[simp] theorem State.stamp_strata (s : State) (n : Nat) : (s.stamp n).strata = s.strata := rfl
@[simp] theorem State.stamp_billing (s : State) (n : Nat) : (s.stamp n).billing = s.billing := rfl
@[simp] theorem State.stamp_alarm (s : State) (n : Nat) : (s.stamp n).alarm = s.alarm := rfl

/-! ## setChan -/

@[simp] theorem State.setChan_pending (s : State) (p : PumpId) (c : PumpChannel) :
    (s.setChan p c).pending = s.pending := rfl
@[simp] theorem State.setChan_mode (s : State) (p : PumpId) (c : PumpChannel) : (s.setChan p c).mode = s.mode := rfl
@[simp] theorem State.setChan_clockMs (s : State) (p : PumpId) (c : PumpChannel) :
    (s.setChan p c).clockMs = s.clockMs := rfl
@[simp] theorem State.setChan_lastWrite (s : State) (p : PumpId) (c : PumpChannel) :
    (s.setChan p c).lastWrite = s.lastWrite := rfl
@[simp] theorem State.setChan_straps (s : State) (p : PumpId) (c : PumpChannel) :
    (s.setChan p c).straps = s.straps := rfl
@[simp] theorem State.setChan_startKind (s : State) (p : PumpId) (c : PumpChannel) :
    (s.setChan p c).startKind = s.startKind := rfl
@[simp] theorem State.setChan_startSource (s : State) (p : PumpId) (c : PumpChannel) :
    (s.setChan p c).startSource = s.startSource := rfl
@[simp] theorem State.setChan_pins (s : State) (p : PumpId) (c : PumpChannel) : (s.setChan p c).pins = s.pins := rfl
@[simp] theorem State.setChan_outs (s : State) (p : PumpId) (c : PumpChannel) : (s.setChan p c).outs = s.outs := rfl
@[simp] theorem State.setChan_first (s : State) (p : PumpId) (c : PumpChannel) :
    (s.setChan p c).first = s.first := rfl
@[simp] theorem State.setChan_second (s : State) (p : PumpId) (c : PumpChannel) :
    (s.setChan p c).second = s.second := rfl
@[simp] theorem State.setChan_ret (s : State) (p : PumpId) (c : PumpChannel) : (s.setChan p c).ret = s.ret := rfl
@[simp] theorem State.setChan_link (s : State) (p : PumpId) (c : PumpChannel) : (s.setChan p c).link = s.link := rfl
@[simp] theorem State.setChan_peers (s : State) (p : PumpId) (c : PumpChannel) :
    (s.setChan p c).peers = s.peers := rfl
@[simp] theorem State.setChan_claims (s : State) (p : PumpId) (c : PumpChannel) :
    (s.setChan p c).claims = s.claims := rfl
@[simp] theorem State.setChan_thresholds (s : State) (p : PumpId) (c : PumpChannel) :
    (s.setChan p c).thresholds = s.thresholds := rfl
@[simp] theorem State.setChan_pumps (s : State) (p : PumpId) (c : PumpChannel) :
    (s.setChan p c).pumps = s.pumps.set p c := rfl
@[simp] theorem State.setChan_circ (s : State) (p : PumpId) (c : PumpChannel) : (s.setChan p c).circ = s.circ := rfl
@[simp] theorem State.setChan_depth (s : State) (p : PumpId) (c : PumpChannel) :
    (s.setChan p c).depth = s.depth := rfl
@[simp] theorem State.setChan_rod (s : State) (p : PumpId) (c : PumpChannel) : (s.setChan p c).rod = s.rod := rfl
@[simp] theorem State.setChan_seq (s : State) (p : PumpId) (c : PumpChannel) : (s.setChan p c).seq = s.seq := rfl
@[simp] theorem State.setChan_spin (s : State) (p : PumpId) (c : PumpChannel) : (s.setChan p c).spin = s.spin := rfl
@[simp] theorem State.setChan_strata (s : State) (p : PumpId) (c : PumpChannel) :
    (s.setChan p c).strata = s.strata := rfl
@[simp] theorem State.setChan_billing (s : State) (p : PumpId) (c : PumpChannel) :
    (s.setChan p c).billing = s.billing := rfl
@[simp] theorem State.setChan_alarm (s : State) (p : PumpId) (c : PumpChannel) :
    (s.setChan p c).alarm = s.alarm := rfl

/-! ## mapPumps -/

@[simp] theorem State.mapPumps_pending (s : State) (f : PumpId → PumpChannel → PumpChannel) :
    (s.mapPumps f).pending = s.pending := rfl
@[simp] theorem State.mapPumps_mode (s : State) (f : PumpId → PumpChannel → PumpChannel) :
    (s.mapPumps f).mode = s.mode := rfl
@[simp] theorem State.mapPumps_clockMs (s : State) (f : PumpId → PumpChannel → PumpChannel) :
    (s.mapPumps f).clockMs = s.clockMs := rfl
@[simp] theorem State.mapPumps_lastWrite (s : State) (f : PumpId → PumpChannel → PumpChannel) :
    (s.mapPumps f).lastWrite = s.lastWrite := rfl
@[simp] theorem State.mapPumps_straps (s : State) (f : PumpId → PumpChannel → PumpChannel) :
    (s.mapPumps f).straps = s.straps := rfl
@[simp] theorem State.mapPumps_startKind (s : State) (f : PumpId → PumpChannel → PumpChannel) :
    (s.mapPumps f).startKind = s.startKind := rfl
@[simp] theorem State.mapPumps_startSource (s : State) (f : PumpId → PumpChannel → PumpChannel) :
    (s.mapPumps f).startSource = s.startSource := rfl
@[simp] theorem State.mapPumps_pins (s : State) (f : PumpId → PumpChannel → PumpChannel) :
    (s.mapPumps f).pins = s.pins := rfl
@[simp] theorem State.mapPumps_outs (s : State) (f : PumpId → PumpChannel → PumpChannel) :
    (s.mapPumps f).outs = s.outs := rfl
@[simp] theorem State.mapPumps_first (s : State) (f : PumpId → PumpChannel → PumpChannel) :
    (s.mapPumps f).first = s.first := rfl
@[simp] theorem State.mapPumps_second (s : State) (f : PumpId → PumpChannel → PumpChannel) :
    (s.mapPumps f).second = s.second := rfl
@[simp] theorem State.mapPumps_ret (s : State) (f : PumpId → PumpChannel → PumpChannel) :
    (s.mapPumps f).ret = s.ret := rfl
@[simp] theorem State.mapPumps_link (s : State) (f : PumpId → PumpChannel → PumpChannel) :
    (s.mapPumps f).link = s.link := rfl
@[simp] theorem State.mapPumps_peers (s : State) (f : PumpId → PumpChannel → PumpChannel) :
    (s.mapPumps f).peers = s.peers := rfl
@[simp] theorem State.mapPumps_claims (s : State) (f : PumpId → PumpChannel → PumpChannel) :
    (s.mapPumps f).claims = s.claims := rfl
@[simp] theorem State.mapPumps_thresholds (s : State) (f : PumpId → PumpChannel → PumpChannel) :
    (s.mapPumps f).thresholds = s.thresholds := rfl
@[simp] theorem State.mapPumps_pumps (s : State) (f : PumpId → PumpChannel → PumpChannel) :
    (s.mapPumps f).pumps = ⟨f .a s.pumps.a, f .b s.pumps.b⟩ := rfl
@[simp] theorem State.mapPumps_circ (s : State) (f : PumpId → PumpChannel → PumpChannel) :
    (s.mapPumps f).circ = s.circ := rfl
@[simp] theorem State.mapPumps_depth (s : State) (f : PumpId → PumpChannel → PumpChannel) :
    (s.mapPumps f).depth = s.depth := rfl
@[simp] theorem State.mapPumps_rod (s : State) (f : PumpId → PumpChannel → PumpChannel) :
    (s.mapPumps f).rod = s.rod := rfl
@[simp] theorem State.mapPumps_seq (s : State) (f : PumpId → PumpChannel → PumpChannel) :
    (s.mapPumps f).seq = s.seq := rfl
@[simp] theorem State.mapPumps_spin (s : State) (f : PumpId → PumpChannel → PumpChannel) :
    (s.mapPumps f).spin = s.spin := rfl
@[simp] theorem State.mapPumps_strata (s : State) (f : PumpId → PumpChannel → PumpChannel) :
    (s.mapPumps f).strata = s.strata := rfl
@[simp] theorem State.mapPumps_billing (s : State) (f : PumpId → PumpChannel → PumpChannel) :
    (s.mapPumps f).billing = s.billing := rfl
@[simp] theorem State.mapPumps_alarm (s : State) (f : PumpId → PumpChannel → PumpChannel) :
    (s.mapPumps f).alarm = s.alarm := rfl

/-! ## mapPeer -/

@[simp] theorem State.mapPeer_pending (s : State) (k : Nat) (f : PeerEntry → PeerEntry) :
    (s.mapPeer k f).pending = s.pending := rfl
@[simp] theorem State.mapPeer_mode (s : State) (k : Nat) (f : PeerEntry → PeerEntry) :
    (s.mapPeer k f).mode = s.mode := rfl
@[simp] theorem State.mapPeer_clockMs (s : State) (k : Nat) (f : PeerEntry → PeerEntry) :
    (s.mapPeer k f).clockMs = s.clockMs := rfl
@[simp] theorem State.mapPeer_lastWrite (s : State) (k : Nat) (f : PeerEntry → PeerEntry) :
    (s.mapPeer k f).lastWrite = s.lastWrite := rfl
@[simp] theorem State.mapPeer_straps (s : State) (k : Nat) (f : PeerEntry → PeerEntry) :
    (s.mapPeer k f).straps = s.straps := rfl
@[simp] theorem State.mapPeer_startKind (s : State) (k : Nat) (f : PeerEntry → PeerEntry) :
    (s.mapPeer k f).startKind = s.startKind := rfl
@[simp] theorem State.mapPeer_startSource (s : State) (k : Nat) (f : PeerEntry → PeerEntry) :
    (s.mapPeer k f).startSource = s.startSource := rfl
@[simp] theorem State.mapPeer_pins (s : State) (k : Nat) (f : PeerEntry → PeerEntry) :
    (s.mapPeer k f).pins = s.pins := rfl
@[simp] theorem State.mapPeer_outs (s : State) (k : Nat) (f : PeerEntry → PeerEntry) :
    (s.mapPeer k f).outs = s.outs := rfl
@[simp] theorem State.mapPeer_first (s : State) (k : Nat) (f : PeerEntry → PeerEntry) :
    (s.mapPeer k f).first = s.first := rfl
@[simp] theorem State.mapPeer_second (s : State) (k : Nat) (f : PeerEntry → PeerEntry) :
    (s.mapPeer k f).second = s.second := rfl
@[simp] theorem State.mapPeer_ret (s : State) (k : Nat) (f : PeerEntry → PeerEntry) :
    (s.mapPeer k f).ret = s.ret := rfl
@[simp] theorem State.mapPeer_link (s : State) (k : Nat) (f : PeerEntry → PeerEntry) :
    (s.mapPeer k f).link = s.link := rfl
@[simp] theorem State.mapPeer_peers (s : State) (k : Nat) (f : PeerEntry → PeerEntry) :
    (s.mapPeer k f).peers = s.peers.map fun p => if p.station = k then f p else p := rfl
@[simp] theorem State.mapPeer_claims (s : State) (k : Nat) (f : PeerEntry → PeerEntry) :
    (s.mapPeer k f).claims = s.claims := rfl
@[simp] theorem State.mapPeer_thresholds (s : State) (k : Nat) (f : PeerEntry → PeerEntry) :
    (s.mapPeer k f).thresholds = s.thresholds := rfl
@[simp] theorem State.mapPeer_pumps (s : State) (k : Nat) (f : PeerEntry → PeerEntry) :
    (s.mapPeer k f).pumps = s.pumps := rfl
@[simp] theorem State.mapPeer_circ (s : State) (k : Nat) (f : PeerEntry → PeerEntry) :
    (s.mapPeer k f).circ = s.circ := rfl
@[simp] theorem State.mapPeer_depth (s : State) (k : Nat) (f : PeerEntry → PeerEntry) :
    (s.mapPeer k f).depth = s.depth := rfl
@[simp] theorem State.mapPeer_rod (s : State) (k : Nat) (f : PeerEntry → PeerEntry) :
    (s.mapPeer k f).rod = s.rod := rfl
@[simp] theorem State.mapPeer_seq (s : State) (k : Nat) (f : PeerEntry → PeerEntry) :
    (s.mapPeer k f).seq = s.seq := rfl
@[simp] theorem State.mapPeer_spin (s : State) (k : Nat) (f : PeerEntry → PeerEntry) :
    (s.mapPeer k f).spin = s.spin := rfl
@[simp] theorem State.mapPeer_strata (s : State) (k : Nat) (f : PeerEntry → PeerEntry) :
    (s.mapPeer k f).strata = s.strata := rfl
@[simp] theorem State.mapPeer_billing (s : State) (k : Nat) (f : PeerEntry → PeerEntry) :
    (s.mapPeer k f).billing = s.billing := rfl
@[simp] theorem State.mapPeer_alarm (s : State) (k : Nat) (f : PeerEntry → PeerEntry) :
    (s.mapPeer k f).alarm = s.alarm := rfl

/-! ## mapUnit -/

@[simp] theorem State.mapUnit_pending (s : State) (f : UnitRec → UnitRec) : (s.mapUnit f).pending = s.pending := rfl
@[simp] theorem State.mapUnit_mode (s : State) (f : UnitRec → UnitRec) : (s.mapUnit f).mode = s.mode := rfl
@[simp] theorem State.mapUnit_clockMs (s : State) (f : UnitRec → UnitRec) : (s.mapUnit f).clockMs = s.clockMs := rfl
@[simp] theorem State.mapUnit_lastWrite (s : State) (f : UnitRec → UnitRec) :
    (s.mapUnit f).lastWrite = s.lastWrite := rfl
@[simp] theorem State.mapUnit_straps (s : State) (f : UnitRec → UnitRec) : (s.mapUnit f).straps = s.straps := rfl
@[simp] theorem State.mapUnit_startKind (s : State) (f : UnitRec → UnitRec) :
    (s.mapUnit f).startKind = s.startKind := rfl
@[simp] theorem State.mapUnit_startSource (s : State) (f : UnitRec → UnitRec) :
    (s.mapUnit f).startSource = s.startSource := rfl
@[simp] theorem State.mapUnit_pins (s : State) (f : UnitRec → UnitRec) : (s.mapUnit f).pins = s.pins := rfl
@[simp] theorem State.mapUnit_outs (s : State) (f : UnitRec → UnitRec) : (s.mapUnit f).outs = s.outs := rfl
@[simp] theorem State.mapUnit_first (s : State) (f : UnitRec → UnitRec) : (s.mapUnit f).first = s.first := rfl
@[simp] theorem State.mapUnit_second (s : State) (f : UnitRec → UnitRec) : (s.mapUnit f).second = s.second := rfl
@[simp] theorem State.mapUnit_ret (s : State) (f : UnitRec → UnitRec) :
    (s.mapUnit f).ret = { s.ret with unit := s.ret.unit.map f } := rfl
@[simp] theorem State.mapUnit_link (s : State) (f : UnitRec → UnitRec) : (s.mapUnit f).link = s.link := rfl
@[simp] theorem State.mapUnit_peers (s : State) (f : UnitRec → UnitRec) : (s.mapUnit f).peers = s.peers := rfl
@[simp] theorem State.mapUnit_claims (s : State) (f : UnitRec → UnitRec) : (s.mapUnit f).claims = s.claims := rfl
@[simp] theorem State.mapUnit_thresholds (s : State) (f : UnitRec → UnitRec) :
    (s.mapUnit f).thresholds = s.thresholds := rfl
@[simp] theorem State.mapUnit_pumps (s : State) (f : UnitRec → UnitRec) : (s.mapUnit f).pumps = s.pumps := rfl
@[simp] theorem State.mapUnit_circ (s : State) (f : UnitRec → UnitRec) : (s.mapUnit f).circ = s.circ := rfl
@[simp] theorem State.mapUnit_depth (s : State) (f : UnitRec → UnitRec) : (s.mapUnit f).depth = s.depth := rfl
@[simp] theorem State.mapUnit_rod (s : State) (f : UnitRec → UnitRec) : (s.mapUnit f).rod = s.rod := rfl
@[simp] theorem State.mapUnit_seq (s : State) (f : UnitRec → UnitRec) : (s.mapUnit f).seq = s.seq := rfl
@[simp] theorem State.mapUnit_spin (s : State) (f : UnitRec → UnitRec) : (s.mapUnit f).spin = s.spin := rfl
@[simp] theorem State.mapUnit_strata (s : State) (f : UnitRec → UnitRec) : (s.mapUnit f).strata = s.strata := rfl
@[simp] theorem State.mapUnit_billing (s : State) (f : UnitRec → UnitRec) : (s.mapUnit f).billing = s.billing := rfl
@[simp] theorem State.mapUnit_alarm (s : State) (f : UnitRec → UnitRec) : (s.mapUnit f).alarm = s.alarm := rfl

/-! ## mapZones -/

@[simp] theorem State.mapZones_pending (s : State) (f : ZoneEntry → ZoneEntry) :
    (s.mapZones f).pending = s.pending := rfl
@[simp] theorem State.mapZones_mode (s : State) (f : ZoneEntry → ZoneEntry) : (s.mapZones f).mode = s.mode := rfl
@[simp] theorem State.mapZones_clockMs (s : State) (f : ZoneEntry → ZoneEntry) :
    (s.mapZones f).clockMs = s.clockMs := rfl
@[simp] theorem State.mapZones_lastWrite (s : State) (f : ZoneEntry → ZoneEntry) :
    (s.mapZones f).lastWrite = s.lastWrite := rfl
@[simp] theorem State.mapZones_straps (s : State) (f : ZoneEntry → ZoneEntry) :
    (s.mapZones f).straps = s.straps := rfl
@[simp] theorem State.mapZones_startKind (s : State) (f : ZoneEntry → ZoneEntry) :
    (s.mapZones f).startKind = s.startKind := rfl
@[simp] theorem State.mapZones_startSource (s : State) (f : ZoneEntry → ZoneEntry) :
    (s.mapZones f).startSource = s.startSource := rfl
@[simp] theorem State.mapZones_pins (s : State) (f : ZoneEntry → ZoneEntry) : (s.mapZones f).pins = s.pins := rfl
@[simp] theorem State.mapZones_outs (s : State) (f : ZoneEntry → ZoneEntry) : (s.mapZones f).outs = s.outs := rfl
@[simp] theorem State.mapZones_first (s : State) (f : ZoneEntry → ZoneEntry) : (s.mapZones f).first = s.first := rfl
@[simp] theorem State.mapZones_second (s : State) (f : ZoneEntry → ZoneEntry) :
    (s.mapZones f).second = s.second := rfl
@[simp] theorem State.mapZones_ret (s : State) (f : ZoneEntry → ZoneEntry) :
    (s.mapZones f).ret = { s.ret with zones := s.ret.zones.map f } := rfl
@[simp] theorem State.mapZones_link (s : State) (f : ZoneEntry → ZoneEntry) : (s.mapZones f).link = s.link := rfl
@[simp] theorem State.mapZones_peers (s : State) (f : ZoneEntry → ZoneEntry) : (s.mapZones f).peers = s.peers := rfl
@[simp] theorem State.mapZones_claims (s : State) (f : ZoneEntry → ZoneEntry) :
    (s.mapZones f).claims = s.claims := rfl
@[simp] theorem State.mapZones_thresholds (s : State) (f : ZoneEntry → ZoneEntry) :
    (s.mapZones f).thresholds = s.thresholds := rfl
@[simp] theorem State.mapZones_pumps (s : State) (f : ZoneEntry → ZoneEntry) : (s.mapZones f).pumps = s.pumps := rfl
@[simp] theorem State.mapZones_circ (s : State) (f : ZoneEntry → ZoneEntry) : (s.mapZones f).circ = s.circ := rfl
@[simp] theorem State.mapZones_depth (s : State) (f : ZoneEntry → ZoneEntry) : (s.mapZones f).depth = s.depth := rfl
@[simp] theorem State.mapZones_rod (s : State) (f : ZoneEntry → ZoneEntry) : (s.mapZones f).rod = s.rod := rfl
@[simp] theorem State.mapZones_seq (s : State) (f : ZoneEntry → ZoneEntry) : (s.mapZones f).seq = s.seq := rfl
@[simp] theorem State.mapZones_spin (s : State) (f : ZoneEntry → ZoneEntry) : (s.mapZones f).spin = s.spin := rfl
@[simp] theorem State.mapZones_strata (s : State) (f : ZoneEntry → ZoneEntry) :
    (s.mapZones f).strata = s.strata := rfl
@[simp] theorem State.mapZones_billing (s : State) (f : ZoneEntry → ZoneEntry) :
    (s.mapZones f).billing = s.billing := rfl
@[simp] theorem State.mapZones_alarm (s : State) (f : ZoneEntry → ZoneEntry) : (s.mapZones f).alarm = s.alarm := rfl

/-! ## startTimer -/

@[simp] theorem State.startTimer_pending (s : State) (n : Nat) : (s.startTimer n).pending = s.pending := rfl
@[simp] theorem State.startTimer_mode (s : State) (n : Nat) : (s.startTimer n).mode = s.mode := rfl
@[simp] theorem State.startTimer_clockMs (s : State) (n : Nat) : (s.startTimer n).clockMs = s.clockMs := rfl
@[simp] theorem State.startTimer_lastWrite (s : State) (n : Nat) : (s.startTimer n).lastWrite = s.lastWrite := rfl
@[simp] theorem State.startTimer_straps (s : State) (n : Nat) : (s.startTimer n).straps = s.straps := rfl
@[simp] theorem State.startTimer_startKind (s : State) (n : Nat) : (s.startTimer n).startKind = s.startKind := rfl
@[simp] theorem State.startTimer_startSource (s : State) (n : Nat) :
    (s.startTimer n).startSource = s.startSource := rfl
@[simp] theorem State.startTimer_pins (s : State) (n : Nat) : (s.startTimer n).pins = s.pins := rfl
@[simp] theorem State.startTimer_outs (s : State) (n : Nat) : (s.startTimer n).outs = s.outs := rfl
@[simp] theorem State.startTimer_first (s : State) (n : Nat) : (s.startTimer n).first = s.first := rfl
@[simp] theorem State.startTimer_second (s : State) (n : Nat) : (s.startTimer n).second = s.second := rfl
@[simp] theorem State.startTimer_ret (s : State) (n : Nat) : (s.startTimer n).ret = s.ret := rfl
@[simp] theorem State.startTimer_link (s : State) (n : Nat) : (s.startTimer n).link = s.link := rfl
@[simp] theorem State.startTimer_peers (s : State) (n : Nat) : (s.startTimer n).peers = s.peers := rfl
@[simp] theorem State.startTimer_claims (s : State) (n : Nat) : (s.startTimer n).claims = s.claims := rfl
@[simp] theorem State.startTimer_thresholds (s : State) (n : Nat) : (s.startTimer n).thresholds = s.thresholds := rfl
@[simp] theorem State.startTimer_pumps (s : State) (n : Nat) : (s.startTimer n).pumps = s.pumps := rfl
@[simp] theorem State.startTimer_circ (s : State) (n : Nat) : (s.startTimer n).circ = s.circ := rfl
@[simp] theorem State.startTimer_depth (s : State) (n : Nat) : (s.startTimer n).depth = s.depth := rfl
@[simp] theorem State.startTimer_rod (s : State) (n : Nat) : (s.startTimer n).rod = s.rod := rfl
@[simp] theorem State.startTimer_seq (s : State) (n : Nat) :
    (s.startTimer n).seq = { s.seq with timer := some n } := rfl
@[simp] theorem State.startTimer_spin (s : State) (n : Nat) : (s.startTimer n).spin = s.spin := rfl
@[simp] theorem State.startTimer_strata (s : State) (n : Nat) : (s.startTimer n).strata = s.strata := rfl
@[simp] theorem State.startTimer_billing (s : State) (n : Nat) : (s.startTimer n).billing = s.billing := rfl
@[simp] theorem State.startTimer_alarm (s : State) (n : Nat) : (s.startTimer n).alarm = s.alarm := rfl

/-! ## setHeard -/

@[simp] theorem State.setHeard_pending (s : State) (n : Heard) : (s.setHeard n).pending = s.pending := rfl
@[simp] theorem State.setHeard_mode (s : State) (n : Heard) : (s.setHeard n).mode = s.mode := rfl
@[simp] theorem State.setHeard_clockMs (s : State) (n : Heard) : (s.setHeard n).clockMs = s.clockMs := rfl
@[simp] theorem State.setHeard_lastWrite (s : State) (n : Heard) : (s.setHeard n).lastWrite = s.lastWrite := rfl
@[simp] theorem State.setHeard_straps (s : State) (n : Heard) : (s.setHeard n).straps = s.straps := rfl
@[simp] theorem State.setHeard_startKind (s : State) (n : Heard) : (s.setHeard n).startKind = s.startKind := rfl
@[simp] theorem State.setHeard_startSource (s : State) (n : Heard) : (s.setHeard n).startSource = s.startSource := rfl
@[simp] theorem State.setHeard_pins (s : State) (n : Heard) : (s.setHeard n).pins = s.pins := rfl
@[simp] theorem State.setHeard_outs (s : State) (n : Heard) : (s.setHeard n).outs = s.outs := rfl
@[simp] theorem State.setHeard_first (s : State) (n : Heard) : (s.setHeard n).first = s.first := rfl
@[simp] theorem State.setHeard_second (s : State) (n : Heard) : (s.setHeard n).second = s.second := rfl
@[simp] theorem State.setHeard_ret (s : State) (n : Heard) :
    (s.setHeard n).ret = { s.ret with balState := n.state, lost := n.lost, gained := n.gained, water := n.water } := rfl
@[simp] theorem State.setHeard_link (s : State) (n : Heard) : (s.setHeard n).link = s.link := rfl
@[simp] theorem State.setHeard_peers (s : State) (n : Heard) : (s.setHeard n).peers = s.peers := rfl
@[simp] theorem State.setHeard_claims (s : State) (n : Heard) : (s.setHeard n).claims = s.claims := rfl
@[simp] theorem State.setHeard_thresholds (s : State) (n : Heard) : (s.setHeard n).thresholds = s.thresholds := rfl
@[simp] theorem State.setHeard_pumps (s : State) (n : Heard) : (s.setHeard n).pumps = s.pumps := rfl
@[simp] theorem State.setHeard_circ (s : State) (n : Heard) :
    (s.setHeard n).circ = { s.circ with heardReturn := n.ret, heardSource := n.source, heardStale := n.stale } := rfl
@[simp] theorem State.setHeard_depth (s : State) (n : Heard) : (s.setHeard n).depth = s.depth := rfl
@[simp] theorem State.setHeard_rod (s : State) (n : Heard) : (s.setHeard n).rod = s.rod := rfl
@[simp] theorem State.setHeard_seq (s : State) (n : Heard) : (s.setHeard n).seq = s.seq := rfl
@[simp] theorem State.setHeard_spin (s : State) (n : Heard) : (s.setHeard n).spin = s.spin := rfl
@[simp] theorem State.setHeard_strata (s : State) (n : Heard) : (s.setHeard n).strata = s.strata := rfl
@[simp] theorem State.setHeard_billing (s : State) (n : Heard) : (s.setHeard n).billing = s.billing := rfl
@[simp] theorem State.setHeard_alarm (s : State) (n : Heard) : (s.setHeard n).alarm = s.alarm := rfl

/-! ## Channels -/

@[simp] theorem Pumps.get_set (p : Pumps) (i : PumpId) (c : PumpChannel) : (p.set i c).get i = c := by
  cases i <;> rfl

theorem Pumps.get_set_of_ne (p : Pumps) {i j : PumpId} (c : PumpChannel) (h : j ≠ i) :
    (p.set i c).get j = p.get j := by
  cases i <;> cases j <;> first | rfl | exact absurd rfl h

@[simp] theorem State.chan_setChan (s : State) (i : PumpId) (c : PumpChannel) : (s.setChan i c).chan i = c :=
  Pumps.get_set _ _ _

end Sys2Proof.Machine
end

