-- ==== Sys2Proof/Tests/Slice0.lean ====
section
/-! SUPPORT. Tests: ill-formed commands refused, figures of the manual's worked sequences, and for each statement
with hypotheses a state and operands that meet them. -/

open Sys2Proof Sys2Proof.Machine Host

namespace Sys2Proof.Tests

-- One theorem after another: side by side they ask for more threads than the check's memory limit holds.
set_option Elab.async false

/-! ## Well-formedness: one ill-formed command for each check -/

theorem test_wf_straps_have_five_number_bits : (Instr.powerStart ⟨32, true, false, false, false, false, false⟩).wf = false := by
  decide

theorem test_wf_pin_start_straps : (Instr.pinStart ⟨32, true, false, false, false, false, false⟩).wf = false := by decide

theorem test_wf_request_source_zero : (Instr.identify ⟨0, false, 7⟩).wf = false := by decide

theorem test_wf_request_source_high : (Instr.jobClear ⟨31, false, 7⟩).wf = false := by decide

theorem test_wf_frame_too_short : (Instr.frameReceived (List.replicate 7 0)).wf = false := by decide

theorem test_wf_frame_too_long : (Instr.frameReceived (List.replicate 49 0)).wf = false := by decide

theorem test_wf_unknown_request_is_unknown : (Instr.unknownRequest ⟨20, false, 7⟩ 24).wf = false := by decide

theorem test_wf_peer_number : (Instr.peerStale 31).wf = false := by decide

theorem test_wf_threshold_step : (Instr.thresholdSample .pit 3 3 16 3).wf = false := by decide

theorem test_wf_slot_code : (Instr.slotCode 64).wf = false := by decide

theorem test_wf_accepts : (Instr.thresholdSample .pit 15 0 15 15).wf = true ∧ (Instr.slotCode 63).wf = true ∧
    (Instr.unknownRequest ⟨30, true, 7⟩ 25).wf = true ∧ (Instr.peerStale 1).wf = true := by decide

/-- No row of the table has bits. -/
theorem test_no_word_spells_a_command : decodeTableWord 8 0 = none ∧ decodeTableWord 32 255 = none := by decide

/-! ## Figures of the manual -/

/-- The check of R6 over the digits 1 to 9: 0x29B1, the published value for this generator and starting value. -/
theorem test_check_of_digits : crc16 [0x31, 0x32, 0x33, 0x34, 0x35, 0x36, 0x37, 0x38, 0x39] = 0x29B1 := by
  decide +kernel

/-- R51: duty 125 of a period of 20.0 ms is 9.8 ms. -/
theorem test_pwm_high_time : (PumpChannel.pwm 200 { PumpChannel.start with staged := 125 }).high = 98 := by decide

/-- R59: a target of 60 and a period of 1,090 ms move a duty of 140 to 142. -/
theorem test_control_duty : spmOf 1090 = 55 ∧ controlDuty 140 60 55 = 142 := by decide

/-- Chapter 4, worked sequence: captures 1 to 5 at a limit of 10. -/
theorem test_pressure_clamp :
    pressureClamp true 10 10 (controlDuty 142 60 55) 142 0 = (142, 0) ∧
    pressureClamp true 12 10 (controlDuty 142 60 56) 142 0 = (134, 1) ∧
    pressureClamp true 12 10 (controlDuty 134 60 53) 134 1 = (126, 2) ∧
    pressureClamp true 13 10 (controlDuty 126 60 50) 126 2 = (118, 3) ∧
    pressureClamp true 11 10 (controlDuty 118 60 49) 118 3 = (118, 0) := by decide

/-- R45: a steady input reads as the step it stands in, at both ends. -/
theorem test_threshold_reading :
    thresholdReading 0 0 0 0 = 0 ∧ thresholdReading 9 9 9 9 = 9 ∧ thresholdReading 15 15 15 15 = 15 := by decide

/-- R152: 1 m at 10,000 a metre and 125 % is 12,500. -/
theorem test_footage_charge : footageCharge 1000 10000 125 = 12500 := by decide

/-- R92: the six codes of the hold record that are combinations, and the two that are not. -/
theorem test_hold_records : (HoldRec.mk .hung .latched false).valid = true ∧ (HoldRec.mk .hung .free false).valid = false ∧
    (HoldRec.mk .clamped .free true).valid = false ∧ (HoldRec.mk .clamped .latched true).valid = true := by decide

/-! ## A station to try things on -/

/-- A request of station 20. -/
abbrev rq : ReqHead := ⟨20, false, 7⟩

/-- Straps of station 5 with every role and the pit sensor. -/
abbrev every : Straps := ⟨5, true, true, true, true, false, true⟩

/-- Straps of station 5 with no role. -/
abbrev bare : Straps := ⟨5, false, false, false, false, false, false⟩

/-- A station in RUN with an open job, both pumps fitted and its view SURE. -/
def inRun (p : Straps) : State := { State.reset with
  mode := .run
  straps := p
  startKind := .cold
  ret := { Retained.cold with
    items := [⟨28, 0, 1⟩, ⟨28, 1, 1⟩], job := .opened, recorded := some p.recorded }
  link := { Link.start with statusTimer := some 250 }
  rod := { RodUnit.start with sure := true }
  depth := { DepthUnit.start with headSource := if p.head then some p.number else none }
  billing := ⟨some 1000, false, false⟩ }

/-- The station with every role. -/
def st : State := inRun every

/-- The station with no role. -/
def plain : State := inRun bare

/-- A station in CONFIG. -/
def inConfig : State := { State.reset with mode := .config, straps := every }

/-- A rod of type 1. -/
def rod (id : Nat) (state : RodState) (slot : Option Nat) : Rod := ⟨id, 1, 0, state, false, slot⟩

/-- A peer that is heard. -/
def peer (k : Nat) : PeerEntry :=
  { station := k, stale := false, lastSeq := 0, gaps := 0, silence := some 750, status := none, claim := .absent,
    strokesA := ⟨none, false⟩, strokesB := ⟨none, false⟩, head := none, headFresh := false, differed := false }

def calm (s : State) : Bool := AlarmCond.all.all fun c => s.alarm.isActive c == s.alarmCond c

/-- The station with its active flags as its conditions stand. -/
def calmed (s : State) : State :=
  { s with alarm := ⟨AlarmCond.all.foldl (fun f c => setFlag f c (s.alarmCond c)) 0, 0⟩ }

theorem settled (s : State) (h : calm s = true) : s.AlarmsSettled := by
  intro _ c
  have := List.all_eq_true.mp h c (by cases c <;> decide)
  simpa using this

theorem serves (s : State) (r : Request)
    (h : (s.powered && s.link.intake.isEmpty && !s.link.listenOnly) = true) : s.Serves r := by
  simp only [Bool.and_eq_true, Bool.not_eq_true', List.isEmpty_iff] at h
  exact ⟨h.1.1, .inl ⟨h.1.2, .inr h.2⟩⟩

/-- The state after a command. -/
def after (c : Instr) (s : State) : State :=
  match exec c s with
  | .next t => t
  | _ => s

theorem test_station_is_settled : st.AlarmsSettled ∧ plain.AlarmsSettled ∧ inConfig.AlarmsSettled :=
  ⟨settled _ (by decide), settled _ (by decide), settled _ (by decide)⟩

/-! ## Witnesses: the machine and its starts

Each theorem below names states and operands that meet the hypotheses of a statement, clause by clause. -/

theorem witness_StepRunsFrontCommand :
    st.pending = [] ∧ ({ st with pending := [.identify rq, .waterPulse] } : State).pending = .identify rq :: [.waterPulse] :=
  ⟨rfl, rfl⟩

theorem witness_StepKeepsAlarmsSettled : ∃ t, st.AlarmsSettled ∧ step st = .next t :=
  ⟨st, settled _ (by decide), rfl⟩

theorem witness_StepKeepsOutputsAndNumber :
    ∃ t, State.reset.OutputsAgree ∧ step State.reset = .next t ∧ t.mode ≠ .run ∧ st.NumberGood ∧ st.powered = true ∧
      step st = .next st :=
  ⟨State.reset, rfl, rfl, by decide, fun _ => by decide, rfl, rfl⟩

/-- A station whose newest image holds its retained state. -/
def saved (s : State) : State := { s with first := .written s.ret 0, second := .written s.ret 1 }

theorem witness_StepKeepsImagesAgree : ∃ t, (saved st).ImagesAgree ∧ (saved st).powered = true ∧ step (saved st) = .next t :=
  ⟨saved st, fun _ => rfl, rfl, rfl⟩

/-- The own CONNECTION claim is ACTIVE. -/
def claiming : State := { st with ret := { st.ret with claim := ⟨.connection, .active⟩ } }

theorem witness_StepKeepsPumpsYielding :
    claiming.PumpsYield ∧ claiming.viewHolds = true ∧ step claiming = .next claiming :=
  ⟨⟨fun p => by cases p <;> decide, fun _ p => by cases p <;> decide⟩, by decide, rfl⟩

/-- A station that has worked: two seconds on the meters and a tag in the lag queue. -/
def worked : State :=
  let r : Retained := { st.ret with
    jobTime := 2, meters := [2, 0, 0, 0, 0, 0, 0, 0], lag := [⟨0, 500, 1000, 1⟩], pumped := 1000 }
  { st with ret := r, first := .written r 4, second := .written st.ret 3 }

theorem witness_StepKeepsMetersSummed :
    worked.Metered ∧ worked.mode = .run ∧ worked.straps.record = true ∧ step worked = .next worked := by
  refine ⟨⟨fun r h => ?_, fun _ => rfl⟩, rfl, rfl, rfl⟩
  simp only [State.records, worked, Image.written, List.mem_cons, List.not_mem_nil, or_false] at h
  rcases h with rfl | rfl | rfl
  all_goals exact ⟨rfl, by decide⟩

theorem witness_StepKeepsTheLagQueueInOrder : worked.LagsInOrder ∧ step worked = .next worked := by
  refine ⟨⟨fun r h => ?_, fun h => (nomatch h)⟩, rfl⟩
  simp only [State.records, worked, Image.written, List.mem_cons, List.not_mem_nil, or_false] at h
  rcases h with rfl | rfl | rfl
  all_goals exact ⟨by decide, by decide, by decide +kernel, by decide +kernel, by decide, by decide⟩

theorem witness_RunGoesOnward : ∃ t, st.mode = .run ∧ Instr.waterPulse.isSupply = false ∧
    (∀ r, Instr.waterPulse ≠ .jobClear r) ∧ exec .waterPulse st = .next t ∧ st.ret.pumped ≤ top48 :=
  ⟨_, rfl, rfl, fun _ h => (nomatch h), rfl, by decide⟩

theorem witness_RunGoesOnward_listen_only :
    ∃ t, exec .waterPulse { st with link := { st.link with listenOnly := true } } = .next t := ⟨_, rfl⟩

theorem witness_StartWithoutAJob_fault :
    (StartSource.power = .pin → st.mode ≠ .off) ∧
    ¬(Straps.mk 0 true false false false false false).goodNumber ∧
    ¬(Straps.mk 31 true false false false false false).goodNumber ∧
    ∃ r, (saved st).retainedImage = some r ∧ r.job ≠ .noJob ∧ r.recorded ≠ some bare.recorded :=
  ⟨(nomatch ·), by unfold Straps.goodNumber; decide, by unfold Straps.goodNumber; decide,
    st.ret, rfl, by decide, by decide⟩

theorem witness_StartWithoutAJob_cold :
    (StartSource.pin = .pin → st.mode ≠ .off) ∧ every.goodNumber ∧
    (Straps.mk 1 true false false false false false).goodNumber ∧
    (Straps.mk 30 true false false false false false).goodNumber ∧
    (∀ r, State.reset.retainedImage = some r → r.job = .noJob) ∧
    ∀ r, (saved inConfig).retainedImage = some r → r.job = .noJob :=
  ⟨fun _ => by decide, by unfold Straps.goodNumber; decide, by unfold Straps.goodNumber; decide,
    by unfold Straps.goodNumber; decide, fun _ h => (nomatch h), fun r h => by cases h; rfl⟩

/-- A retained image with a unit in progress under the ACTIVE claim. -/
def midUnit : State := { st with ret := { st.ret with
  claim := ⟨.connection, .active⟩, unit := some ⟨.makeUp, 5, none, none, true⟩ } }

/-- The same with the claim still PENDING. -/
def midClaim : State := { st with ret := { st.ret with
  claim := ⟨.connection, .pending⟩, unit := some ⟨.breakOut, 1, none, none, false⟩ } }

theorem witness_WarmStartResumesTheJob :
    every.goodNumber ∧ (saved midUnit).retainedImage = some midUnit.ret ∧ midUnit.ret.job ≠ .noJob ∧
    midUnit.ret.recorded = some every.recorded ∧ midUnit.ret.claim.phase = .active ∧ midUnit.ret.unit.isSome = true ∧
    (saved midClaim).retainedImage = some midClaim.ret ∧ midClaim.ret.claim.phase ≠ .active ∧
    midClaim.ret.unit = some ⟨.breakOut, 1, none, none, false⟩ :=
  ⟨by unfold Straps.goodNumber; decide, rfl, by decide, rfl, rfl, rfl, rfl, by decide, rfl⟩

/-- A retained image of a close under way with an open zone, an open interval and no tag. -/
def midClose : State := { st with ret := { st.ret with
  job := .closing, close := .processing, closeKind := some .normal, closingSeconds := 1799
  zones := [.zone .loss 100 none 5 none 7], intervals := [st.newInterval 0] } }

theorem witness_WarmStartResumesTheJob_close :
    (saved midClose).retainedImage = some midClose.ret ∧ midClose.ret.job = .closing ∧ midClose.ret.lag = [] ∧
    midClose.ret.recorded = some every.recorded ∧
    (∃ op, midClose.ret.intervals.getLast? = some op ∧ op.closedTime = none) ∧
    (saved plain).retainedImage = some plain.ret ∧ plain.ret.recorded = some bare.recorded :=
  ⟨rfl, rfl, rfl, rfl, ⟨_, rfl, rfl⟩, rfl, rfl⟩

theorem witness_StoppedStationDoesNothing_stops :
    (true = true → st.mode ≠ .off) ∧ State.reset.mode = .off ∧ st.mode ≠ .off ∧
    ({ saved st with lastWrite := some .first } : State).lastWrite = some .first :=
  ⟨fun _ => by decide, rfl, by decide, rfl⟩

theorem witness_StoppedStationDoesNothing :
    State.reset.powered = false ∧ Instr.waterPulse.isSupply = false ∧ Instr.waterPulse ≠ .backupSupplyExhausted ∧
    ({ State.reset with mode := .startFault } : State).powered = false ∧
    ({ State.reset with mode := .resetHeld } : State).powered = false :=
  ⟨rfl, rfl, by decide, rfl, rfl⟩

/-! ## Witnesses: the line and the transmitter -/

/-- A STATUS frame waiting to be sent. -/
def frame (attempts collisions : Nat) : TxFrame := ⟨.status, 31, false, none, [], attempts, collisions, none⟩

/-- The station with its link unit changed. -/
def withLink (f : Link → Link) : State := { st with link := f st.link }

/-- A frame in hand whose access delay runs on a QUIET line. -/
def delaying (attempts : Nat) : State :=
  withLink fun l => { l with lineBusy := false, inHand := some ⟨.rig, frame attempts 0, false, some 37⟩ }

/-- A frame being sent. -/
def sends (attempts collisions : Nat) : State :=
  withLink fun l => { l with inHand := some ⟨.rig, frame attempts collisions, true, none⟩ }

theorem witness_LineMovesReceiverAndSender_levels :
    st.powered = true ∧ st.AlarmsSettled ∧ st.link.lineBusy = true ∧ st.link.sending = false ∧
    (withLink fun l => { l with lineBusy := false }).AlarmsSettled ∧
    (∀ h, (withLink fun l => { l with lineBusy := false }).link.inHand = some h → h.delay = none) :=
  ⟨rfl, settled _ (by decide), rfl, rfl, settled _ (by decide), by intro h e; cases e⟩

theorem witness_LineMovesReceiverAndSender_receiver :
    ∀ p ∈ [RxPhase.idle, .gathering, .complete, .trailing], (withLink fun l => { l with rx := p }).link.rx = p ∧
      (withLink fun l => { l with rx := p }).link.lineBusy = true := by decide

theorem witness_LinkFaultsAreRecorded_deferral :
    (delaying 62).AlarmsSettled ∧ (delaying 62).link.lineBusy = false ∧
    (∃ h, (delaying 62).link.inHand = some h ∧ h.delay.isSome = true ∧ h.frame.attempts + 1 < 64) ∧
    (delaying 63).AlarmsSettled ∧ (delaying 63).cfg Item.accessLimitOff 0 ≠ 1 ∧
    (∃ h, (delaying 63).link.inHand = some h ∧ h.delay.isSome = true ∧ 64 ≤ h.frame.attempts + 1) :=
  ⟨settled _ (by decide), rfl, ⟨_, rfl, rfl, by decide⟩, settled _ (by decide), by decide, ⟨_, rfl, rfl, by decide⟩⟩

theorem witness_LinkFaultsAreRecorded_stuck :
    st.powered = true ∧ st.link.lineBusy = true ∧ st.link.sending = false ∧ st.link.stuck = false :=
  ⟨rfl, rfl, rfl, rfl⟩

theorem witness_LineMovesReceiverAndSender_sends :
    (delaying 0).AlarmsSettled ∧ (delaying 0).link.lineBusy = false ∧
    (∃ h, (delaying 0).link.inHand = some h ∧ h.delay.isSome = true) ∧
    (sends 0 0).AlarmsSettled ∧ ∃ h, (sends 0 0).link.inHand = some h ∧ h.sending = true :=
  ⟨settled _ (by decide), rfl, ⟨_, rfl, rfl⟩, settled _ (by decide), _, rfl, rfl⟩

theorem witness_LinkFaultsAreRecorded_collision :
    (sends 62 1).powered = true ∧
    ∃ h, (sends 62 1).link.inHand = some h ∧ h.sending = true ∧ h.frame.collisions < 2 ∧ h.frame.attempts + 1 < 64 :=
  ⟨rfl, _, rfl, rfl, by decide, by decide⟩

theorem witness_LinkFaultsAreRecorded_last_collision :
    (sends 63 1).powered = true ∧ (sends 63 1).cfg Item.accessLimitOff 0 ≠ 1 ∧
    ∃ h, (sends 63 1).link.inHand = some h ∧ h.sending = true ∧ h.frame.collisions < 2 ∧ 64 ≤ h.frame.attempts + 1 :=
  ⟨rfl, by decide, _, rfl, rfl, by decide, by decide⟩

/-- R2 with R3: a second collision that is the 64th attempt is counted, and the frame is dropped: the arbiter chooses
the ALARM frame of LINK_FAULT. -/
theorem test_last_collision_drops :
    let l := (after .collision (sends 63 1)).link
    l.inHand.map (·.frame.kind) = some .alarm ∧ l.counts.collision = 1 ∧ l.counts.accessDrop = 1 ∧
    (after .collision (sends 62 1)).link.counts.accessDrop = 0 := by decide +kernel

/-- An ALARM of station `k` to station 31. -/
def alarmFrom (k : Nat) : List Byte :=
  wireFrame k ⟨.alarm, 31, true, none, encodeAlarm .loss true 0 0, 0, 0, none⟩ 3

theorem witness_DuplicateStationSilencesTheStation :
    (sends 0 2).powered = true ∧ (sends 0 2).link.listenOnly = false ∧
    (∃ h, (sends 0 2).link.inHand = some h ∧ h.sending = true ∧ 2 ≤ h.frame.collisions) ∧
    st.link.sending = false ∧ ∃ f, decodeFrame (alarmFrom 5) = some f ∧ f.source = st.straps.number :=
  ⟨rfl, rfl, ⟨_, rfl, rfl, by decide⟩, rfl, ⟨5, 31, .alarm, 3, .alarm⟩, by decide +kernel, rfl⟩

theorem witness_ArbiterTakesTurns :
    let f := frame 0 0
    let l := Link.start
    ({ l with inHand := some ⟨.rig, f, false, none⟩ } : Link).inHand = some ⟨.rig, f, false, none⟩ ∧
    ({ l with urgent := [f] } : Link).urgent = f :: [] ∧
    ({ l with rig := [f] } : Link).queue ({ l with rig := [f] } : Link).arbQueue = f :: [] ∧
    ({ l with rig := [f], arbCount := 3 } : Link).arbCount < st.linkEnv.weight .rig ∧
    st.linkEnv.weight .rig ≤ ({ l with rig := [f], exchange := [f], arbCount := 4 } : Link).arbCount :=
  ⟨rfl, rfl, rfl, by decide, by decide⟩

theorem witness_FullQueuesFollowTheirRules :
    let f := frame 0 0
    let event : TxFrame := ⟨.rodEvent, 31, false, none, [], 0, 0, none⟩
    let l := Link.start
    ({ l with urgent := List.replicate 8 event } : Link).count .urgent = 8 ∧
    (∀ g ∈ List.replicate 8 event, g.replacedBy { f with urgent := true } = false) ∧
    ({ l with exchange := List.replicate 8 event } : Link).count .exchange = 8 ∧
    ({ l with bulk := List.replicate 4 event } : Link).count .bulk = 4 ∧
    ({ l with rig := [event, f, event] } : Link).rig = [event] ++ f :: [event] ∧
    ({ l with rig := [f, f, event] } : Link).rig = [f] ++ f :: [event] ∧ (∀ g ∈ [event], g.replacedBy f = false) ∧
    ({ l with rig := List.replicate 16 event } : Link).count .rig = 16 ∧
    (∀ g ∈ List.replicate 16 event, g.replacedBy f = false) ∧
    ({ l with rig := List.replicate 15 event ++ [f] } : Link).count .rig = 16 ∧
    (∀ g ∈ List.replicate 15 event ++ [f], g.replacedBy { f with kind := .head } = false) := by
  decide

theorem witness_FullQueuesFollowTheirRules_urgent :
    let f := { frame 0 0 with urgent := true }
    let event : TxFrame := ⟨.rodEvent, 31, true, none, [], 0, 0, none⟩
    let l : Link := { Link.start with urgent := List.replicate 7 event ++ [f] }
    l.urgent = List.replicate 7 event ++ f :: [] ∧ (∀ g ∈ ([] : List TxFrame), g.replacedBy f = false) ∧
    f.kind = .status ∧ l.count .urgent = 8 := by decide

/-- R62, R9, R10: a STROKES frame put back by an URGENT one, a newer one queued, and a third that replaces it: the
counts 1 and 3 are left to be sent, in this order. -/
theorem test_strokes_never_go_backwards :
    let strokes := fun n => newFrame .strokes 31 false (some .a) [byteOf n]
    let l : Link := { Link.start with inHand := some ⟨.rig, strokes 1, false, none⟩, rig := [strokes 2] }
    let urgent := newFrame .claim 31 true none []
    ((l.handOver st.linkEnv .urgent urgent).handOver st.linkEnv .rig (strokes 3)).rig = [strokes 1, strokes 3] := by
  decide

theorem witness_StatusPeriodHandsStatus :
    st.powered = true ∧ st.link.statusTimer.isSome = true ∧ st.mode = .run ∧
    ({ inConfig with link := { inConfig.link with statusTimer := some 250 } } : State).link.statusTimer.isSome = true :=
  ⟨rfl, rfl, rfl, rfl⟩

/-! ## Witnesses: frames and peers -/

/-- STATUS contents with a sequencer in HOLD, and the widest values of the fields. -/
def fullStatus : StatusMsg where
  roles := ⟨true, true, true, true⟩
  startKind := .warm
  startSource := .pin
  job := .closed
  digest := 65535
  pumpA := ⟨.stalled, true, true, 254, 255⟩
  pumpB := ⟨.running, true, false, 150, 60⟩
  lastOp := some ⟨.breakOut, .dropped, some 30, some 4294967295⟩
  balance := some ⟨.flowing, some 15, 4294967295, 4294967295⟩
  seq := .hold
  step := some 13
  cause := some .rackFull
  entries := 14
  headEntry := some ⟨62, 30⟩
  claim := ⟨.still, .active⟩
  eventNo := 65535
  stringCount := 128
  stringLength := 2097150
  hold := ⟨.clamped, .latched, true⟩
  water := 4294967295
  active := 32767
  pending := 32767
  unitKind := some .breakOut

/-- STATUS contents of an IDLE station with every optional field absent. -/
def idleStatus : StatusMsg := { fullStatus with
  lastOp := none, balance := none, seq := .idle, step := none, cause := none, entries := 0, headEntry := none,
  unitKind := none }

theorem witness_PayloadsReadBack_status : fullStatus.Fits ∧ idleStatus.Fits := by
  refine ⟨⟨by decide, ⟨⟨by decide, by decide⟩, by decide, by decide⟩, ?_, ?_, ⟨by decide, by decide, ?_⟩, rfl, by decide,
    ⟨by decide, by decide⟩, ?_, by decide, by decide, by decide⟩,
    ⟨by decide, ⟨⟨by decide, by decide⟩, by decide, by decide⟩, (fun o h => (nomatch h)), (fun o h => (nomatch h)),
      ⟨by decide, by decide, (fun n h => (nomatch h))⟩, rfl, by decide, ⟨by decide, by decide⟩, (fun o h => (nomatch h)),
      by decide, by decide, by decide⟩⟩
  · intro o h; cases h
    exact ⟨rfl, (fun r h => by cases h; decide), fun q h => by cases h; decide⟩
  · intro b h; cases h
    exact ⟨fun r h => by cases h; decide, by decide, by decide⟩
  · intro n h; cases h; decide
  · intro e h; cases h; decide

theorem witness_PayloadsReadBack_others :
    (StrokesMsg.mk .b 4294967295 65534 255).Fits ∧
    (HeadMsg.mk 65534 true true .running 4294967295 4294967295 254 255 (some 30) (some .latch)).Fits ∧
    (HeadMsg.mk 0 false false .idle 0 0 0 0 none none).Fits ∧
    (RodEventMsg.mk 65535 .confirmed (some 65534) (some 254) (some .slot) 254 16777214 ⟨.hung, .latched, false⟩).Fits :=
  ⟨⟨by decide, by decide, by decide⟩, ⟨by decide, by decide, by decide, (fun k h => by cases h; decide), by decide⟩,
    ⟨by decide, by decide, by decide, (fun k h => (nomatch h)), by decide⟩,
    ⟨by decide, (fun r h => by cases h; decide), (fun r h => by cases h; decide), ⟨by decide, by decide⟩, rfl, by decide⟩⟩

/-- R6, section 11.3: the spin owner of a HEAD frame cannot be absent; its spin number 255 is a number (log 62). -/
theorem test_head_owner_is_never_absent :
    let p := encodeHead ⟨0, false, false, .idle, 0, 0, 0, 255, none, none⟩
    (decodeHead p).isSome = true ∧ decodeHead (p.set 13 255) = none := by decide +kernel

/-- Bytes of a frame from station 7 to all. -/
def from7 (k : FrameKind) (p : List Byte) : List Byte := wireFrame 7 ⟨k, 31, false, none, p, 0, 0, none⟩ 1

theorem witness_WireFrameIsAGoodFrame :
    decodeBody .claim (encodeClaim ⟨.connection, .pending⟩) = some (.claim ⟨.connection, .pending⟩) ∧
    (encodeStatus fullStatus).length = 40 ∧ (decodeBody .status (encodeStatus fullStatus)).isSome = true := by
  decide +kernel

theorem witness_FramesRefreshTheirPeer_bad :
    st.AlarmsSettled ∧ st.link.lineBusy = true ∧ st.link.sending = false ∧ st.link.rx = .idle ∧
    decodeFrame [1, 2, 3] = none ∧ (withLink fun l => { l with rx := .complete }).AlarmsSettled ∧
    (withLink fun l => { l with rx := .trailing }).AlarmsSettled :=
  ⟨settled _ (by decide), rfl, rfl, rfl, by decide, settled _ (by decide), settled _ (by decide)⟩

/-- The station with peer 7 heard. -/
def heard (p : PeerEntry) : State := { st with peers := [p] }

theorem witness_FramesRefreshTheirPeer_good :
    st.AlarmsSettled ∧ (heard (peer 7)).AlarmsSettled ∧ st.peer? 7 = none ∧ (heard (peer 7)).peer? 7 = some (peer 7) ∧
    (peer 7).stale = false ∧ decodeFrame (alarmFrom 7) = some ⟨7, 31, .alarm, 3, .alarm⟩ ∧ 7 ≠ st.straps.number :=
  ⟨settled _ (by decide), settled _ (by decide), rfl, rfl, rfl, by decide +kernel, by decide⟩

/-- A good frame of station 7 to all is heard. -/
theorem hears (s : State) (bytes : List Byte) (f : RxFrame) (good : decodeFrame bytes = some f)
    (ready : (s.powered && s.link.lineBusy && !s.link.sending && s.link.rx == .idle && f.source != s.straps.number &&
      f.dest == 31) = true) : s.Hears bytes f := by
  simp only [Bool.and_eq_true, bne_iff_ne, beq_iff_eq, Bool.not_eq_true'] at ready
  obtain ⟨⟨⟨⟨⟨p, b⟩, l⟩, r⟩, o⟩, d⟩ := ready
  exact ⟨p, b, l, .inl r, good, o, .inr d⟩

/-- The one entry of the peer table. -/
theorem knows (s : State) (k : Nat) (p : PeerEntry) (one : s.peers = [p]) (station : p.station = k) : s.Knows k p := by
  subst station
  exact ⟨by simp [State.peer?, one], fun q h _ => by simpa [one] using h⟩

theorem witness_ClaimHeardHoldsThePumps :
    (heard (peer 7)).Hears (from7 .claim (encodeClaim ⟨.connection, .active⟩))
      ⟨7, 31, .claim, 1, .claim ⟨.connection, .active⟩⟩ ∧
    (heard (peer 7)).mode = .run ∧ (heard (peer 7)).peer? 7 = some (peer 7) ∧
    (heard (peer 7)).viewHolds = false ∧ (heard (peer 7)).spin.state ≠ .running :=
  ⟨hears _ _ _ (by decide +kernel) rfl, rfl, rfl, rfl, by decide⟩

/-- The station with an own claim in a phase, and peer 7 with a claim. -/
def facing (own : ClaimPhase) (p : PeerEntry) (f : State → State) : State :=
  calmed (f { heard p with ret := { st.ret with claim := ⟨.connection, own⟩ } })

/-- Peer 7 with a claim in a phase. -/
def claims7 (phase : ClaimPhase) : PeerEntry := { peer 7 with claim := ⟨.still, phase⟩ }

/-- Bytes of a CLAIM frame of station 7. -/
def claimFrom7 (phase : ClaimPhase) : List Byte := from7 .claim (encodeClaim ⟨.still, phase⟩)

theorem witness_ClaimHeardHoldsThePumps_own :
    let s := facing .pending (peer 7) fun s => { s with claims := ⟨true, some 500, none⟩, seq := { s.seq with state := .claiming } }
    s.Hears (claimFrom7 .active) ⟨7, 31, .claim, 1, .claim ⟨.still, .active⟩⟩ ∧ s.AlarmsSettled ∧ s.Knows 7 (peer 7) ∧
    s.mode = .run ∧ s.spin.state ≠ .running ∧ s.ret.claim.phase = .pending ∧ s.link.listenOnly = false ∧
    s.straps.number ≤ 7 ∧
    ((facing .active (peer 7) id).AlarmsSettled ∧ (facing .active (peer 7) id).Knows 7 (peer 7)) ∧
    ((facing .active (claims7 .active) id).AlarmsSettled ∧
      ∀ q ∈ (facing .active (claims7 .active) id).peers, q.station ≠ 7 → q.claim.phase ≠ .active) :=
  ⟨hears _ _ _ (by decide +kernel) (by decide), settled _ (by decide), knows _ _ _ rfl rfl, rfl, by decide, rfl, rfl,
    by decide, ⟨settled _ (by decide), knows _ _ _ rfl rfl⟩, ⟨settled _ (by decide), by decide⟩⟩

/-- R8, R16, R35, R166: the withdrawal of an own PENDING claim finds the URGENT queue full of frames it may not
replace; the fault record it latches raises LINK_FAULT. -/
theorem test_withdrawal_may_latch_a_fault :
    let s := facing .pending (peer 7) fun s => { s with
      claims := ⟨false, some 500, none⟩
      link := { s.link with urgent := List.replicate 8 ⟨.rodEvent, 31, true, none, [], 0, 0, none⟩ } }
    s.AlarmsSettled ∧ s.alarm.isActive .linkFault = false ∧
    (after (.frameReceived (claimFrom7 .active)) s).alarm.isActive .linkFault = true :=
  ⟨settled _ (by decide), by decide, by decide +kernel⟩

theorem witness_ClaimHeardHoldsThePumps_leaves :
    let s := facing .none (claims7 .active) fun s => { s with claims := ⟨true, none, none⟩ }
    s.Hears (claimFrom7 .none) ⟨7, 31, .claim, 1, .claim ⟨.still, .none⟩⟩ ∧ s.AlarmsSettled ∧
    s.Knows 7 (claims7 .active) ∧ s.ret.claim.phase = .none ∧ (∀ q ∈ s.peers, q.station ≠ 7 → q.claim.phase = .none) ∧
    s.claims.takeRequest = true ∧ s.claims.listen = none ∧ s.link.listenOnly = false ∧ s.link.Roomy ∧
    st.claims.takeRequest = false :=
  ⟨hears _ _ _ (by decide +kernel) (by decide), settled _ (by decide), knows _ _ _ rfl rfl, rfl, by decide, rfl, rfl, rfl,
    ⟨rfl, by decide, by decide⟩, rfl⟩

/-- R35: an own PENDING claim of station 5 outlasts a PENDING one of station 7, whose settle time begins anew, and not
an ACTIVE one; R36: two ACTIVE claims are a conflict. -/
theorem test_claims_meet :
    let s := facing .pending (peer 7) fun s => { s with claims := ⟨true, some 1, none⟩ }
    (after (.frameReceived (claimFrom7 .pending)) s).ret.claim.phase = .pending ∧
    (after (.frameReceived (claimFrom7 .pending)) s).claims.settle = some 500 ∧
    (after (.frameReceived (claimFrom7 .active)) s).ret.claim.phase = .none ∧
    (after (.frameReceived (claimFrom7 .active)) (facing .active (peer 7) id)).seq.state = .hold .claimConflict := by
  decide +kernel

/-- A peer with a credit baseline one stroke short of the wrap. -/
def counting : PeerEntry := { peer 7 with strokesA := ⟨some 4294967295, true⟩ }

theorem witness_PeerStrokesAreCredited :
    (heard counting).Hears (from7 .strokes (encodeStrokes ⟨.a, 999, 9200, 60⟩))
      ⟨7, 31, .strokes, 1, .strokes ⟨.a, 999, 9200, 60⟩⟩ ∧
    (heard counting).peer? 7 = some counting ∧ counting.strokesA.baseline = true ∧
    (999 + 4294967296 - 4294967295) % 4294967296 ≤ 1000 ∧ 1000 < (1000 + 4294967296 - 4294967295) % 4294967296 ∧
    st.ret.pumped ≤ top48 ∧ (peer 7).strokesA.last = none ∧ (peer 7).strokesA.baseline = false :=
  ⟨hears _ _ _ (by decide +kernel) rfl, rfl, rfl, by decide, by decide, by decide, rfl, rfl⟩

/-- A closed interval. -/
def closedInterval (i : Nat) : Interval :=
  ⟨i, some 60, 30, 100, some 1, some 200, 0, 0, IntervalFlags.clear, .surfaced, some 60, none, none, none, some 0, some 0⟩

/-- The station with interval 0 closed and interval 1 open. -/
def logged : State := { st with ret := { st.ret with intervals := [closedInterval 0, st.newInterval 1] } }

/-- In CLOSING one tag waits for the credit of one stroke of station 7, and no zone is open. -/
def lastTag : State := { heard counting with
  ret := { st.ret with job := .closing, lag := [⟨0, 9200, 1000, 1⟩], intervals := [closedInterval 0] } }

theorem witness_PeerStrokesAreCredited_strata :
    lastTag.Hears (from7 .strokes (encodeStrokes ⟨.a, 0, 9200, 60⟩)) ⟨7, 31, .strokes, 1, .strokes ⟨.a, 0, 9200, 60⟩⟩ ∧
    lastTag.strataOn = true ∧ (∀ g ∈ lastTag.ret.lag, g.mark ≤ 9200) ∧ lastTag.ret.job = .closing ∧
    (∀ z ∈ lastTag.ret.zones, z.openKind = none) ∧
    ({ lastTag with strata := ⟨[⟨7, .a, 9000⟩]⟩ } : State).lastVolume 7 .a = some 9000 :=
  ⟨hears _ _ _ (by decide +kernel) rfl, rfl, by decide, rfl, by decide, rfl⟩

/-- R135 and R159: the credit makes the interval SURFACED and completes the close; R141: in OPEN a new volume is
marked; R67: a difference above 1,000 flags the open interval. -/
theorem test_strokes_reach_the_record :
    let volume := fun s : State => { s with strata := ⟨[⟨7, .a, 9000⟩]⟩, ret := { s.ret with job := .opened } }
    let gap : State := { logged with peers := [counting] }
    (after (.frameReceived (from7 .strokes (encodeStrokes ⟨.a, 0, 9200, 60⟩))) lastTag).ret.intervals.map (·.sample) =
      [.surfaced] ∧
    (after (.frameReceived (from7 .strokes (encodeStrokes ⟨.a, 0, 9200, 60⟩))) lastTag).ret.job = .closed ∧
    (after (.frameReceived (from7 .strokes (encodeStrokes ⟨.a, 0, 9200, 60⟩))) (volume lastTag)).ret.zones =
      [.mark .service 0 0 7] ∧
    (after (.frameReceived (from7 .strokes (encodeStrokes ⟨.a, 1000, 9200, 60⟩))) gap).ret.intervals.map (·.flags.gap) =
      [false, true] := by decide +kernel

/-- The same with a ceiling in force, and units closed for 5. -/
def lastTagUnder (ceiling : Nat) : State :=
  { lastTag with ret := { lastTag.ret with items := ⟨Item.ceiling, 0, ceiling⟩ :: lastTag.ret.items, sumCurrent := 5 } }

theorem witness_PeerStrokesAreCredited_ceiling :
    (lastTagUnder 5).cfg Item.ceiling 0 = 5 ∧ (lastTagUnder 5).total = 5 ∧ (lastTagUnder 5).ret.job = .closing ∧
    (lastTagUnder 5).ret.overCeiling = false ∧ (lastTagUnder 6).cfg Item.ceiling 0 = 6 ∧ (lastTagUnder 6).total = 5 := by
  decide +kernel

/-- R157, R159: the close checks the ceiling, reached at the total itself and not below it. -/
theorem test_close_checks_the_ceiling :
    let credit := Instr.frameReceived (from7 .strokes (encodeStrokes ⟨.a, 0, 9200, 60⟩))
    (after credit (lastTagUnder 5)).ret.job = .closed ∧ (after credit (lastTagUnder 5)).ret.overCeiling = true ∧
    (after credit (lastTagUnder 6)).ret.job = .closed ∧ (after credit (lastTagUnder 6)).ret.overCeiling = false := by
  decide +kernel

/-! STATUS, HEAD and ROD_EVENT frames. -/

/-- A peer whose claim is that of `fullStatus`. -/
def claimant : PeerEntry := { peer 7 with claim := ⟨.still, .active⟩ }

/-- The station without a role, and station 7 heard. -/
def listens (p : PeerEntry) (f : State → State) : State :=
  calmed (f { plain with peers := [p] })

theorem witness_StatusHeard :
    let s := listens claimant id
    s.Hears (from7 .status (encodeStatus fullStatus)) ⟨7, 31, .status, 1, .status fullStatus⟩ ∧ s.AlarmsSettled ∧
    s.Knows 7 claimant ∧ claimant.stale = false ∧ fullStatus.claim = claimant.claim ∧ s.spin.state ≠ .running ∧
    s.seq.state ≠ .running ∧ s.mode = .run ∧ s.ret.job ≠ .noJob ∧ fullStatus.job ≠ .noJob ∧
    fullStatus.digest ≠ s.ret.digest ∧ claimant.differed = false ∧ s.isPit = false ∧ s.straps.head = false ∧
    s.straps.rod = false ∧ s.straps.record = false ∧ s.rod.sure = true ∧ s.rod.source ≠ some 7 ∧
    st.isPit = true ∧ st.straps.head = true ∧ st.straps.rod = true :=
  ⟨hears _ _ _ (by decide +kernel) (by decide +kernel), settled _ (by decide +kernel), knows _ _ _ rfl rfl, rfl, rfl,
    by decide, by decide, rfl, by decide, by decide, by decide, rfl, rfl, rfl, rfl, rfl, rfl, by decide, rfl, rfl, rfl⟩

theorem witness_StatusHeard_views :
    let s := fun n lag => listens { claimant with status := some { fullStatus with eventNo := n } } fun s =>
      { s with
        ret := { s.ret with job := .closing, close := .processing }
        rod := { s.rod with source := some 7, lagCount := lag } }
    (s 0 0).AlarmsSettled ∧ (s 0 0).rod.source = some 7 ∧ (s 0 0).rod.sure = true ∧ (s 0 2).rod.lagCount + 1 = 3 ∧
    (s 0 1).rod.lagCount + 1 < 3 ∧ fullStatus.eventNo ≠ (s 0 0).ret.eventNo ∧
    ({ fullStatus with eventNo := 0 } : StatusMsg).eventNo = (s 0 0).ret.eventNo ∧
    fullStatus.roles.record = true ∧ fullStatus.job = .closed ∧ (s 0 0).ret.job = .closing ∧
    fullStatus.balance.isSome = true ∧ idleStatus.balance = none :=
  ⟨settled _ (by decide +kernel), rfl, rfl, rfl, by decide, by decide, rfl, rfl, rfl, rfl, rfl, rfl⟩

/-- HEAD contents of station 7 after 1,000 turns. -/
def turned : HeadMsg := ⟨3000, true, true, .running, 1000, 0, 60, 1, some 5, some .make⟩

/-- A HEAD peer that reported 900 turns. -/
def header : PeerEntry :=
  { peer 7 with
    status := some { idleStatus with claim := .absent }
    head := some { turned with turns := 900 }
    headFresh := true }

theorem witness_HeadHeard :
    let s := listens header fun s => { s with depth := { s.depth with headSource := some 7, wear := some (900, 0) } }
    s.Hears (from7 .head (encodeHead turned)) ⟨7, 31, .head, 1, .head turned⟩ ∧ s.AlarmsSettled ∧ s.Knows 7 header ∧
    header.stale = false ∧ s.seq.state ≠ .running ∧ s.seq.spin ≠ .accepted 7 turned.number ∧ s.mode = .run ∧
    s.straps.head = false ∧ s.depth.wear = some (900, 0) ∧
    (s.peers.find? fun q => !q.stale && q.headFresh && q.status.any fun n => n.roles.head).map (·.station) =
      s.depth.headSource ∧ (header.head.any fun v => v.turns != turned.turns) = true ∧ st.straps.head = true :=
  ⟨hears _ _ _ (by decide +kernel) (by decide +kernel), settled _ (by decide +kernel), knows _ _ _ rfl rfl, rfl, by decide, by decide,
    rfl, rfl, rfl, by decide, by decide, rfl⟩

/-- A HEAD frame that repeats the values of its peer's entry, and a STATUS that makes the peer the head source. -/
theorem witness_HeadHeard_repeated :
    let s := listens header fun s => { s with depth := { s.depth with headSource := some 7, wear := some (900, 0) } }
    let same : HeadMsg := { turned with turns := 900 }
    s.Hears (from7 .head (encodeHead same)) ⟨7, 31, .head, 1, .head same⟩ ∧ header.head = some same ∧
    header.head ≠ some turned ∧ fullStatus.roles.head = true ∧
    (listens { claimant with head := some same, headFresh := true } id).depth.headSource = none :=
  ⟨hears _ _ _ (by decide +kernel) (by decide +kernel), rfl, by decide, rfl, rfl⟩

/-- R93, R94: D stands above H, as after a lock. A STATUS of a PUMP peer, or a HEAD frame that repeats its values, changes
nothing that D is formed from, and H stays; a turn heard from the head source forms D again, and H becomes D. -/
theorem test_hole_rises_at_a_change_only :
    let s := listens header fun s => { s with
      ret := { s.ret with hole := 0 }
      depth := { s.depth with headSource := some 7, bitDepth := s.depthNow } }
    let pumps : StatusMsg := { idleStatus with roles := ⟨true, false, false, false⟩, claim := .absent }
    let other := { s with peers := s.peers ++ [{ peer 8 with status := some pumps }] }
    let from8 := wireFrame 8 ⟨.status, 31, false, none, encodeStatus pumps, 0, 0, none⟩ 1
    s.depthNow = some 2200 ∧
    (after (.frameReceived from8) other).ret.hole = 0 ∧
    (after (.frameReceived (from7 .head (encodeHead { turned with turns := 900 }))) s).ret.hole = 0 ∧
    (after (.frameReceived (from7 .head (encodeHead turned))) s).ret.hole = 2200 := by decide +kernel

/-- A spin of station 7 accepted as number 1 in a step of the ROD station. -/
def watching : State := listens header fun s => { s with
  straps := { bare with rod := true }
  ret := { s.ret with unit := some ⟨.makeUp, 9, some 1, some 3, true⟩ }
  seq := { s.seq with state := .running, spin := .accepted 7 1 } }

theorem witness_HeadHeard_spin :
    watching.AlarmsSettled ∧ watching.Knows 7 header ∧ watching.seq.phase ≠ .ending ∧
    (∃ u kind, watching.ret.unit = some u ∧ u.kindOfStep = .spin kind) ∧
    watching.seq.spin = .accepted 7 turned.number ∧ turned.spin ≠ .done ∧
    watching.Hears (from7 .head (encodeHead { turned with spin := .failed }))
      ⟨7, 31, .head, 1, .head { turned with spin := .failed }⟩ :=
  ⟨settled _ (by decide +kernel), knows _ _ _ rfl rfl, by decide, ⟨_, _, rfl, rfl⟩, rfl, by decide,
    hears _ _ _ (by decide +kernel) (by decide +kernel)⟩

/-- The event of a rod 1 that joins the string as event 1. -/
def added : RodEventMsg := ⟨1, .added, some 1, some 3, none, 1, 3000, ⟨.clamped, .latched, true⟩⟩

/-- A station that follows the rods of station 7. -/
def follows (f : RodUnit → RodUnit) (p : PeerEntry := peer 7) : State := listens p fun s => { s with
  ret := { s.ret with rods := [⟨1, 1, 0, .rack, false, some 3⟩] }
  rod := f { s.rod with source := some 7 } }

theorem witness_RodEventHeard :
    (follows id).Hears (from7 .rodEvent (encodeRodEvent added)) ⟨7, 31, .rodEvent, 1, .rodEvent added⟩ ∧
    (follows id).AlarmsSettled ∧ (follows id).Knows 7 (peer 7) ∧ (follows id).mode = .run ∧
    (follows id).straps.rod = false ∧ (follows id).rod.source = some 7 ∧ (follows id).ret.retirements.length = 4 ∧
    (follows id).rod.sure = true ∧ added.number = ((follows id).ret.eventNo + 1) % 65536 ∧
    (follows id).ret.rods.find? (fun r => r.id == 1) = some ⟨1, 1, 0, .rack, false, some 3⟩ ∧
    (added.change (follows id).ret).isSome = true ∧ ({ added with rod := some 2 }.change (follows id).ret) = none ∧
    (follows fun r => { r with sure := false }).AlarmsSettled ∧ (listens (peer 7) id).rod.source ≠ some 7 ∧
    (follows id).lengthOf [1] ≠ 3000 :=
  ⟨hears _ _ _ (by decide +kernel) (by decide +kernel), settled _ (by decide +kernel), knows _ _ _ rfl rfl, rfl, rfl, rfl, rfl, rfl,
    rfl, rfl, by decide, by decide, settled _ (by decide +kernel), by decide, by decide⟩

/-- An event that leaves the string list and the hold record as they are. -/
theorem witness_RodEventHeard_rack :
    let r := (follows id).ret
    let m : RodEventMsg := ⟨1, .rackUnloaded, some 1, some 3, none, 0, (follows id).stringLength, r.hold⟩
    m.change r = some { r with rods := [⟨1, 1, 0, .offRig, false, none⟩] } ∧ m.number = (r.eventNo + 1) % 65536 ∧
    (follows id).lengthOf [] = m.length ∧ r.string = [] ∧ m.hold = ⟨.clamped, .free, false⟩ ∧
    (follows id).Hears (from7 .rodEvent (encodeRodEvent m)) ⟨7, 31, .rodEvent, 1, .rodEvent m⟩ ∧
    added.hold ≠ r.hold :=
  ⟨by decide +kernel, rfl, rfl, rfl, rfl, hears _ _ _ (by decide +kernel) (by decide +kernel), by decide⟩

/-! Requests and answers. -/

/-- An ANSWER of station 7 to station 5. -/
def answer7 (payload : List Byte) : List Byte := wireFrame 7 ⟨.answer, 5, false, none, payload, 0, 0, none⟩ 1

/-- A first page of a string of one rod at event 2, clamped and latched. -/
def page : List Byte := [0, 1] ++ leBytes 3 3000 ++ leBytes 2 2 ++ [3] ++ leBytes 2 1

/-- A station that has asked station 7 for its first page. -/
def paging (status : StatusMsg) : State :=
  let s := follows (fun r => { r with sure := false, resync := ⟨0, [], none, false, .sent 7 3 false⟩ })
    { peer 7 with status := some status }
  { s with link := { s.link with outstanding := [⟨7, 3, 10, 0⟩] } }

theorem witness_RequestAndAnswerHeard :
    st.AlarmsSettled ∧ st.link.intake.length < 8 ∧ st.link.listenOnly = false ∧
    (heard (peer 7)).Hears (wireFrame 7 ⟨.request, 31, false, none, [9, 1], 0, 0, none⟩ 1)
      ⟨7, 31, .request, 1, .request 9 1 []⟩ ∧ (heard (peer 7)).AlarmsSettled ∧ (heard (peer 7)).Knows 7 (peer 7) ∧
    decodeFrame (answer7 ([3, 0] ++ page)) = some ⟨7, 5, .answer, 1, .answer 3 0 page⟩ ∧
    (∀ o ∈ (heard (peer 7)).link.outstanding, ¬(o.dest = 7 ∧ o.tag = 3)) :=
  ⟨settled _ (by decide), by decide, rfl, hears _ _ _ (by decide +kernel) (by decide +kernel), settled _ (by decide),
    knows _ _ _ rfl rfl, by decide +kernel, by decide⟩

theorem witness_RequestAndAnswerHeard_page :
    let s := paging { idleStatus with stringCount := 1, stringLength := (follows id).lengthOf [1] }
    (calm s) = true ∧ s.link.outstanding.find? (fun o => o.dest == 7 && o.tag == 3) = some ⟨7, 3, 10, 0⟩ ∧
    s.rod.resync.request = .sent 7 3 false ∧ s.mode = .run ∧ s.straps.rod = false ∧ s.rod.sure = false ∧
    s.rod.source = some 7 ∧ natAt page 1 1 = 1 ∧ natAt page 5 2 = 2 ∧
    HoldRec.ofCode (natAt page 7 1 % 8) = ⟨.clamped, .latched, false⟩ ∧
    ((List.range ((page.length - 8) / 2)).map fun i => natAt page (8 + 2 * i) 2) = [1] ∧
    (∀ id ∈ [1], ∃ d ∈ s.ret.rods, d.id = id) ∧ s.rod.held = [] ∧
    (paging { idleStatus with stringCount := 2 }).peers.any (fun p => p.status.any fun n => n.stringCount == 2) = true := by
  decide +kernel

theorem witness_RequestAndAnswerHeard_spin :
    let s : State := { watching with
      seq := { watching.seq with spin := .sent 7 4 }, link := { watching.link with outstanding := [⟨7, 4, 15, 0⟩] } }
    calm s = true ∧ s.link.outstanding.find? (fun o => o.dest == 7 && o.tag == 4) = some ⟨7, 4, 15, 0⟩ ∧
    s.seq.spin = .sent 7 4 ∧ s.seq.state = .running ∧ s.seq.phase ≠ .ending ∧
    decodeFrame (answer7 [4, 1]) = some ⟨7, 5, .answer, 1, .answer 4 1 []⟩ ∧
    decodeFrame (answer7 [4, 3]) = some ⟨7, 5, .answer, 1, .answer 4 3 []⟩ := by decide +kernel

/-! ## Witnesses: requests to peers -/

theorem witness_RequestsToPeersAreTracked_issue :
    let spinning : State := { st with seq := { st.seq with spin := .waiting 7 .make } }
    let paging : State := { plain with rod := { plain.rod with resync := { plain.rod.resync with request := .waiting 7 10 } } }
    spinning.link.outstanding.length < 4 ∧ spinning.link.count .exchange < 8 ∧ spinning.link.listenOnly = false ∧
    spinning.seq.spin = .waiting 7 .make ∧ paging.link.outstanding.length < 4 ∧ paging.link.count .exchange < 8 ∧
    paging.link.listenOnly = false ∧ paging.rod.resync.request = .waiting 7 10 := by decide

theorem witness_RequestsToPeersAreTracked_timeout :
    let page : OutEntry := ⟨7, 3, 10, 0⟩
    let spin : OutEntry := ⟨7, 255, 15, 0⟩
    let w : State := { withLink (fun l => { l with outstanding := [page, spin] }) with
      rod := { st.rod with resync := { st.rod.resync with request := .sent 7 3 false } }
      seq := { st.seq with spin := .sent 7 255, state := .running } }
    w.powered = true ∧ w.link.outstanding = [] ++ page :: [spin] ∧ w.link.outstanding = [page] ++ spin :: [] ∧
    (∀ b ∈ [page], b.tag ≠ (255 : Byte).toNat) ∧ w.rod.resync.request = .sent page.dest page.tag false ∧
    w.seq.spin = .sent spin.dest spin.tag ∧ w.seq.phase ≠ .ending := by decide

theorem witness_SilentPeerGoesStale :
    let p := { peer 7 with claim := ⟨.connection, .active⟩ }
    (heard p).powered = true ∧ (heard p).peer? 7 = some p ∧ p.silence.isSome = true ∧ p.claim.phase ≠ .none ∧
    ({ inConfig with peers := [p] } : State).peer? 7 = some p := by decide

theorem witness_SilentPeerGoesStale_returns :
    let p := { peer 7 with claim := ⟨.connection, .active⟩, stale := true, silence := none }
    let s : State := { claiming with peers := [p], rod := { st.rod with source := some 7, sure := false } }
    s.powered = true ∧ s.link.lineBusy = true ∧ s.link.sending = false ∧ s.link.rx = .idle ∧
    decodeFrame (alarmFrom 7) = some ⟨7, 31, .alarm, 3, .alarm⟩ ∧ s.peer? 7 = some p ∧ p.stale = true ∧
    p.claim.phase = .active ∧ s.ret.claim.phase = .active ∧ s.mode = .run ∧ s.rod.source = some 7 ∧
    s.rod.sure = false := by decide +kernel

theorem witness_FullQueuesFollowTheirRules_join :
    let f : TxFrame := ⟨.rodEvent, 31, false, none, [], 0, 0, none⟩
    (withLink fun l => { l with rodWait := [f], rig := List.replicate 15 f }).link.count .rig = 15 ∧
    (withLink fun l => { l with rodWait := [f], rig := List.replicate 16 f }).link.count .rig = 16 ∧
    (withLink fun l => { l with rodWait := [{ f with urgent := true }], urgent := List.replicate 7 f }).link.count .urgent = 7 ∧
    st.seq.state ≠ .running := by decide

/-! ## Witnesses: requests -/

theorem witness_RequestsPassTheGate_waiting :
    (Instr.identify rq).ask?.isSome = true ∧
    (withLink fun l => { l with listenOnly := true }).AlarmsSettled ∧
    (withLink fun l => { l with intake := List.replicate 8 (requestOf ⟨21, false, 7⟩ 1 []) }).AlarmsSettled ∧
    (requestOf ⟨21, false, 7⟩ 1 []).same (requestOf rq 1 []) = false ∧
    (withLink fun l => { l with intake := List.replicate 7 (requestOf ⟨21, false, 7⟩ 1 []) }).link.intake.length < 8 :=
  ⟨rfl, settled _ (by decide), settled _ (by decide), by decide, by decide⟩

theorem witness_RequestsPassTheGate_served :
    st.Serves (requestOf rq 0 []) ∧ st.Serves (requestOf rq 25 []) ∧ st.AlarmsSettled ∧
    plain.Serves (requestOf rq 15 [0]) ∧ plain.AlarmsSettled ∧ Straps.head plain.straps = false ∧
    inConfig.Serves (requestOf rq 15 [0]) ∧ inConfig.AlarmsSettled ∧ Straps.head inConfig.straps = true ∧
    inConfig.mode = .config ∧ (Instr.spin rq 0).ask?.map (·.inConfig) = some false ∧
    (withLink fun l => { l with intake := [requestOf rq 1 []] }).Serves (requestOf rq 1 []) :=
  ⟨serves _ _ rfl, serves _ _ rfl, settled _ (by decide), serves _ _ rfl, settled _ (by decide), rfl, serves _ _ rfl,
    settled _ (by decide), rfl, rfl, rfl, ⟨rfl, .inr ⟨[], rfl⟩⟩⟩

/-- R173: a SPIN that waits without its argument byte is refused with RANGE, in CONFIG too. -/
theorem witness_RequestsPassTheGate_short :
    let q := requestOf rq 15 []
    (withLink fun l => { l with intake := [q] }).link.intake = q :: [] ∧ q.same (requestOf rq 15 [0]) = true ∧
    q.args.length < (requestOf rq 15 [0]).args.length ∧ (withLink fun l => { l with intake := [q] }).AlarmsSettled ∧
    (after (.spin rq 0) { inConfig with link := { inConfig.link with intake := [q] } }).link.inHand.map
      (·.frame.payload) = some [rq.tag, 5] :=
  ⟨rfl, by decide, by decide, settled _ (by decide), by decide +kernel⟩

theorem witness_RequestsPassTheGate_answers :
    (ReqHead.mk 20 true 7).toAll = true ∧ rq.toAll = false ∧ (List.replicate 38 (0 : Byte)).length ≤ 38 ∧
    38 < (List.replicate 39 (0 : Byte)).length ∧ (List.replicate 76 (0 : Byte)).length ≤ 76 := by decide

theorem witness_IdentifyAnswersTheStation :
    st.AlarmsSettled ∧ st.Serves (requestOf rq 1 []) ∧ inConfig.Serves (requestOf rq 1 []) ∧
    (withLink fun l => { l with listenOnly := true }).AlarmsSettled :=
  ⟨settled _ (by decide), serves _ _ rfl, serves _ _ rfl, settled _ (by decide)⟩

theorem witness_ReadsAnswerFromTheRecords :
    st.AlarmsSettled ∧ st.Serves (requestOf rq 4 [3]) ∧ st.Serves (requestOf rq 10 [10]) ∧
    st.Serves (requestOf rq 17 (2 :: leBytes 2 (127 : BitVec 16).toNat)) ∧ st.Serves (requestOf rq 21 [3]) ∧
    st.straps.rod = true ∧ st.straps.record = true :=
  ⟨settled _ (by decide), serves _ _ rfl, serves _ _ rfl, serves _ _ rfl, serves _ _ rfl, rfl, rfl⟩

theorem witness_RecordsReadByTheirLayouts :
    st.statement.meters.length = 8 ∧ st.statement.timeCharges.length = 8 ∧ st.statement.units.length = 8 ∧
    st.statement.retirements.length = 4 ∧ st.ret.job ≠ .closed ∧ (st.newInterval 0).cls.getD 7 < 8 ∧
    ({ st with ret := { st.ret with job := .closed, frozen := some st.statement } } : State).ret.frozen =
      some st.statement := by decide +kernel

theorem witness_ConfigSetTakesItems_config :
    inConfig.mode = .config ∧ inConfig.Serves (requestOf rq 2 ([51, 0] ++ leBytes 4 (31 : BitVec 32).toNat)) :=
  ⟨rfl, serves _ _ rfl⟩

theorem witness_ConfigSetTakesItems_run :
    st.AlarmsSettled ∧ st.Serves (requestOf rq 2 ([29, 1] ++ leBytes 4 (1000 : BitVec 32).toNat)) ∧
    (∃ row, itemRow (29 : Byte).toNat = some row ∧ row.lo ≤ (9200 : BitVec 32).toNat ∧ (9200 : BitVec 32).toNat ≤ row.hi) ∧
    (∃ row, itemRow (32 : Byte).toNat = some row ∧ row.hi < (14 : BitVec 32).toNat) ∧
    (1 : Byte).toNat = (if PumpId.b = .a then 0 else 1) :=
  ⟨settled _ (by decide), serves _ _ rfl, ⟨_, rfl, by decide, by decide⟩, ⟨_, rfl, by decide⟩, rfl⟩

/-- The COLD items pass the tests of R26; a collar depth that is no whole number of intervals does not. -/
theorem witness_ConfigLockOpensTheJob :
    st.mode = .run ∧ st.Serves (requestOf rq 3 []) ∧ inConfig.Serves (requestOf rq 3 []) ∧ inConfig.AlarmsSettled ∧
    lockFails inConfig.ret.items = none ∧ lockFails [⟨Item.collarDepth, 0, 500⟩] = some (Item.collarDepth, 0) ∧
    ({ inConfig with pins := { inConfig.pins with topLimit := true } } : State).AlarmsSettled ∧
    inConfig.straps.head = true ∧ inConfig.isPit = true ∧
    ({ inConfig with straps := bare } : State).straps.record = false :=
  ⟨rfl, serves _ _ rfl, serves _ _ rfl, settled _ (by decide), by decide +kernel, by decide +kernel,
    settled _ (by decide), rfl, rfl, rfl⟩

/-- A set of items for each test of R26, in the order of the tests; most fail a later one too. -/
theorem witness_LockNamesTheFirstFailingItem :
    lockFails [⟨Item.sectionCount, 0, 3⟩, ⟨Item.sectionBottom, 1, 5000⟩, ⟨Item.sectionBottom, 2, 5000⟩,
      ⟨Item.collarDepth, 0, 500⟩] = some (Item.sectionBottom, 2) ∧
    lockFails [⟨Item.bandCount, 0, 2⟩, ⟨Item.bandBottom, 1, 1500⟩, ⟨Item.collarDepth, 0, 500⟩] =
      some (Item.bandBottom, 1) ∧
    lockFails [⟨Item.depthLimit, 0, 4000⟩, ⟨Item.bandBottom, 1, 5000⟩, ⟨Item.collarDepth, 0, 500⟩] =
      some (Item.bandBottom, 1) ∧
    lockFails [⟨Item.depthLimit, 0, 2000000⟩, ⟨Item.bandBottom, 1, 2000000⟩, ⟨Item.collarDepth, 0, 500⟩] =
      some (Item.intervalLength, 0) ∧
    lockFails [⟨Item.collarDepth, 0, 500⟩, ⟨Item.inventoryCount, 0, 2⟩, ⟨Item.inventoryRod, 1, 7⟩,
      ⟨Item.inventoryRod, 2, 7⟩] = some (Item.collarDepth, 0) ∧
    lockFails [⟨Item.inventoryCount, 0, 2⟩, ⟨Item.inventoryRod, 1, 7⟩, ⟨Item.inventoryRod, 2, 7⟩,
      ⟨Item.inventoryType, 2, 4⟩, ⟨Item.rackSlot, 0, 9⟩] = some (Item.inventoryRod, 2) ∧
    lockFails [⟨Item.inventoryCount, 0, 1⟩, ⟨Item.inventoryRod, 1, 7⟩, ⟨Item.inventoryType, 1, 4⟩,
      ⟨Item.rackSlot, 0, 9⟩] = some (Item.inventoryType, 1) ∧
    lockFails [⟨Item.inventoryCount, 0, 1⟩, ⟨Item.inventoryRod, 1, 7⟩, ⟨Item.rackSlot, 0, 7⟩, ⟨Item.rackSlot, 1, 7⟩,
      ⟨Item.rackSlot, 2, 9⟩] = some (Item.rackSlot, 2) ∧
    lockFails [⟨Item.inventoryCount, 0, 1⟩, ⟨Item.inventoryRod, 1, 7⟩, ⟨Item.rackSlot, 0, 7⟩, ⟨Item.rackSlot, 1, 7⟩] =
      some (Item.rackSlot, 1) := by decide +kernel

/-! ## Witnesses: services -/

theorem witness_AlarmReportRaisesAndClears :
    st.alarm.isActive .ceilingReached = false ∧ st.alarm.isActive .ceilingReached ≠ true ∧
    st.cfg Item.conditionEnabled AlarmCond.ceilingReached.code = 1 := by decide

/-- The station with a stale claim of peer 7 in view. -/
def staleClaim : State := calmed (heard { peer 7 with claim := ⟨.still, .active⟩, stale := true, silence := none })

theorem witness_ClearsAndAcknowledgements :
    st.AlarmsSettled ∧ st.Serves (requestOf rq 5 []) ∧
    (calmed (withLink fun l => { l with stuck := true, fault := some ⟨.lineStuck, none, none, none, 0⟩ })).AlarmsSettled ∧
    staleClaim.AlarmsSettled ∧ staleClaim.Serves (requestOf rq 6 [7]) ∧ staleClaim.Serves (requestOf rq 6 [31]) ∧
    (∃ p, staleClaim.peer? 7 = some p ∧ p.claim.phase ≠ .none ∧ p.stale = true) ∧ staleClaim.peer? 30 = none ∧
    staleClaim.ret.claim.phase = .none ∧ staleClaim.claims.takeRequest = false ∧ staleClaim.spin.state ≠ .running ∧
    (∀ q ∈ staleClaim.peers, q.station ≠ 7 → q.claim.phase = .none) ∧
    (∃ p, (heard { peer 7 with claim := ⟨.still, .active⟩ }).peer? 7 = some p ∧ p.stale = false) ∧
    st.Serves (requestOf rq 24 [255]) ∧ st.Serves (requestOf rq 24 [14]) ∧ st.Serves (requestOf rq 24 [15]) :=
  ⟨settled _ (by decide), serves _ _ rfl, settled _ (by decide), settled _ (by decide), serves _ _ (by decide),
    serves _ _ (by decide), ⟨_, rfl, by decide, rfl⟩, by decide, rfl, rfl, by decide, by decide, ⟨_, rfl, rfl⟩,
    serves _ _ rfl, serves _ _ rfl, serves _ _ rfl⟩

theorem witness_PumpRateMovesTheChannel :
    st.AlarmsSettled ∧ st.Serves (requestOf rq 7 [1, 150]) ∧ st.Serves (requestOf rq 7 [2, 151]) ∧
    (1 : Byte).toNat = (if PumpId.b = .a then 0 else 1) ∧ st.cfg Item.fitted (1 : Byte).toNat = 1 ∧
    ({ st with ret := { st.ret with items := [] } } : State).cfg Item.fitted 1 ≠ 1 ∧
    st.viewHolds = false ∧ st.claims.listen = none ∧ staleClaim.viewHolds = true ∧
    ({ st with claims := { st.claims with listen := some 750 } } : State).claims.listen.isSome = true ∧
    ({ st with ret := { st.ret with job := .closed } } : State).ret.job = .closed ∧
    ({ st with pumps := ⟨st.pumps.a, { st.pumps.b with state := .held }⟩ } : State).chan .b =
      { PumpChannel.start with state := .held } ∧
    plain.AlarmsSettled ∧ plain.Serves (requestOf rq 7 [1, 150]) ∧ plain.straps.pump = false ∧
    inConfig.AlarmsSettled ∧ inConfig.Serves (requestOf rq 7 [1, 150]) ∧ inConfig.mode = .config :=
  ⟨settled _ (by decide), serves _ _ rfl, serves _ _ rfl, rfl, by decide, by decide, rfl, rfl, by decide, rfl, rfl, rfl,
    settled _ (by decide), serves _ _ rfl, rfl, settled _ (by decide), serves _ _ rfl, rfl⟩

/-- The station with one rod off the rig and one in slot 63. -/
def racked : State := { st with ret := { st.ret with rods := [rod 1 .offRig none, rod 4095 .rack (some 63)] } }

theorem witness_RackRequestsMoveTheRod :
    racked.AlarmsSettled ∧ racked.Serves (requestOf rq 8 (0 :: leBytes 2 (1 : BitVec 16).toNat)) ∧
    racked.Serves (requestOf rq 8 (64 :: leBytes 2 (4096 : BitVec 16).toNat)) ∧
    racked.ret.rods.find? (fun r => r.id == 2) = none ∧
    racked.ret.rods.find? (fun r => r.id == 1) = some (rod 1 .offRig none) ∧
    racked.ret.rods.find? (fun r => r.id == 4095) = some (rod 4095 .rack (some 63)) ∧
    racked.link.listenOnly = false ∧ racked.seq.state = .idle ∧ racked.seq.queue = [] ∧
    (∀ r ∈ racked.ret.rods, r.slot ≠ some 0) ∧ racked.Serves (requestOf rq 9 [63]) ∧
    racked.Serves (requestOf rq 9 [64]) ∧ racked.ret.rods.find? (fun r => r.slot == some 0) = none ∧
    racked.ret.rods.find? (fun r => r.slot == some 63) = some (rod 4095 .rack (some 63)) :=
  ⟨settled _ (by decide), serves _ _ rfl, serves _ _ rfl, rfl, rfl, rfl, rfl, rfl, rfl, by decide, serves _ _ rfl,
    serves _ _ rfl, rfl, rfl⟩

/-- The station with its sequencer changed. -/
def withSeq (f : Sequencer → Sequencer) (unit : Option UnitRec) : State :=
  calmed { st with seq := f st.seq, ret := { st.ret with unit := unit } }

theorem witness_RodOpQueuesAndBegins :
    st.AlarmsSettled ∧ st.Serves (requestOf rq 11 [0, 32]) ∧ st.Serves (requestOf rq 11 [1, 1]) ∧
    st.Serves (requestOf rq 11 [2, 33]) ∧ st.seq.state = .idle ∧ st.seq.queue = [] ∧ st.ret.claim.phase = .none ∧
    st.ret.string = [] ∧ st.viewHolds = false ∧ st.claims.listen = none ∧ staleClaim.viewHolds = true ∧
    (withSeq (fun q => { q with state := .hold .aborted }) none).seq.state = .hold .aborted ∧
    (withSeq (fun q => { q with state := .running, queue := List.replicate 8 ⟨.makeUp, 1, 20, 0⟩ }) none).seq.queue.length = 8 ∧
    (withSeq (fun q => { q with state := .running, queue := List.replicate 7 ⟨.makeUp, 1, 20, 0⟩ }) none).AlarmsSettled :=
  ⟨settled _ (by decide), serves _ _ rfl, serves _ _ rfl, serves _ _ rfl, rfl, rfl, rfl, rfl, rfl, rfl, by decide, rfl, rfl,
    settled _ (by decide)⟩

/-- A make-up unit with a step in hand. -/
def unitAt (n : Nat) : UnitRec := ⟨.makeUp, n, none, none, false⟩

/-- A sequencer that stopped at a step with the own claim ACTIVE. -/
def stoppedAt (n : Nat) : State :=
  calmed { st with
    seq := { st.seq with state := .fault .clamp }
    ret := { st.ret with unit := some (unitAt n), claim := ⟨.connection, .active⟩ } }

theorem witness_AbortAndResumeActOnTheUnit :
    st.AlarmsSettled ∧ st.Serves (requestOf rq 12 []) ∧ st.seq.state = .idle ∧ st.ret.unit = none ∧
    (withSeq (fun q => { q with state := .waitClaim }) (some (unitAt 1))).AlarmsSettled ∧
    (withSeq (fun q => { q with state := .running }) (some (unitAt 4))).AlarmsSettled ∧
    (unitAt 4).kindOfStep = .waitPosition ∧ (unitAt 4).moved = false ∧
    (withSeq (fun q => { q with state := .running }) (some (unitAt 5))).AlarmsSettled ∧ (unitAt 5).kindOfStep = .clamp ∧
    (stoppedAt 5).AlarmsSettled ∧ (stoppedAt 5).Serves (requestOf rq 13 []) ∧
    (∃ c, (stoppedAt 5).seq.state = .hold c ∨ (stoppedAt 5).seq.state = .fault c) ∧
    (stoppedAt 5).link.listenOnly = false ∧ (stoppedAt 5).ret.claim.phase = .active ∧ (stoppedAt 5).otherClaims = [] ∧
    (stoppedAt 5).pins.clampClosed = false ∧ (unitAt 3).kindOfStep = .release ∧ (stoppedAt 3).pins.clampOpen = false ∧
    (unitAt 2).kindOfStep = .waitPumps ∧
    ({ stoppedAt 2 with peers := [{ peer 7 with stale := true, status := some { idleStatus with roles := ⟨true, false, false, false⟩ } }] } : State).pumpsDown = false ∧
    ({ stoppedAt 5 with peers := [{ peer 7 with claim := ⟨.still, .pending⟩ }] } : State).otherClaims ≠ [] :=
  ⟨settled _ (by decide), serves _ _ rfl, rfl, rfl, settled _ (by decide), settled _ (by decide), rfl, rfl,
    settled _ (by decide), rfl, settled _ (by decide), serves _ _ (by decide), ⟨.clamp, .inr rfl⟩, rfl, rfl, rfl, rfl, rfl,
    rfl, rfl, by decide, by decide⟩

/-- A sequencer stopped at a step of a unit, with a rod in slot 3. -/
def stoppedIn (kind : OpKind) (n : Nat) (f : State → State) : State :=
  calmed (f { stoppedAt n with ret := { (stoppedAt n).ret with
    unit := some ⟨kind, n, some 1, some 3, true⟩, rods := [rod 1 .rack (some 3)] } })

theorem witness_AbortAndResumeActOnTheUnit_resumes :
    (∀ p ∈ [(OpKind.makeUp, 7), (.makeUp, 8), (.makeUp, 4), (.makeUp, 9), (.breakOut, 8), (.breakOut, 10)],
      calm (stoppedIn p.1 p.2 id) = true ∧ (stoppedIn p.1 p.2 id).otherClaims = [] ∧
        (stoppedIn p.1 p.2 id).ret.claim.phase = .active) ∧
    (UnitRec.mk .makeUp 8 (some 1) (some 3) true).kindOfStep = .fetch ∧ (stoppedIn .makeUp 8 id).pins.slotCode ≠ 3 ∧
    (UnitRec.mk .makeUp 4 (some 1) (some 3) true).kindOfStep = .waitPosition ∧
    (stoppedIn .makeUp 4 id).headNear ((stoppedIn .makeUp 4 id).targetHeight ⟨.makeUp, 4, some 1, some 3, true⟩) =
      false ∧
    (UnitRec.mk .makeUp 9 (some 1) (some 3) true).kindOfStep = .spin .make ∧
    (stoppedIn .makeUp 9 id).depth.headSource = some 5 ∧ (stoppedIn .makeUp 9 id).claims.listen = none ∧
    (stoppedIn .makeUp 9 id).spin.state ≠ .running ∧
    (stoppedIn .makeUp 9 fun s => { s with depth := { s.depth with headSource := some 7 } }).link.outstanding.length < 4 ∧
    (UnitRec.mk .breakOut 8 (some 1) (some 3) true).kindOfStep = .grip ∧ (stoppedIn .breakOut 8 id).pins.gripped = false ∧
    (UnitRec.mk .breakOut 10 (some 1) (some 3) true).kindOfStep = .store ∧
    (∀ r ∈ (stoppedIn .breakOut 10 fun s => { s with pins := { s.pins with slotCode := 63 } }).ret.rods, r.slot ≠ some 0) ∧
    (stoppedIn .makeUp 7 fun s => { s with ret := { s.ret with string := List.replicate 128 1 } }).ret.string.length =
      128 := by decide +kernel

/-- A stopped station with a rod in slot 3 and one in the string. -/
def stoppedRods : State :=
  calmed { stoppedAt 5 with ret := { (stoppedAt 5).ret with rods := [rod 1 .rack (some 3), rod 2 .string none], string := [2] } }

theorem witness_RodConfirmSetsTheRecords :
    stoppedRods.AlarmsSettled ∧ (stoppedRods.ret.rods.map (·.id)).Nodup ∧
    stoppedRods.Serves (requestOf rq 14 (leBytes 2 (1 : BitVec 16).toNat ++ [1, 63, 0])) ∧
    stoppedRods.Serves (requestOf rq 14 (leBytes 2 (65535 : BitVec 16).toNat ++ [255, 255, 0])) ∧
    (HoldRec.ofCode ((4 : Byte).toNat % 8)).above = true ∧ (HoldRec.ofCode ((0 : Byte).toNat % 8)) = ⟨.hung, .free, false⟩ ∧
    stoppedRods.ret.rods.find? (fun r => r.id == 3) = none ∧
    (stoppedRods.ret.rods.find? (fun r => r.id == 1)).isSome = true ∧
    (let s := calmed { stoppedRods with spin := ⟨.running, 1, some 5, some .make, some 15000, true, false, true⟩ }
     s.AlarmsSettled ∧ s.spin.owner = some s.straps.number ∧ s.ret.claim.phase ≠ .none) :=
  ⟨settled _ (by decide), by decide, serves _ _ (by decide), serves _ _ (by decide), by decide, by decide, rfl, rfl,
    ⟨settled _ (by decide), rfl, by decide⟩⟩

/-- A spin accepted from the own sequencer runs. -/
def spinning : State := calmed { claiming with
  spin := ⟨.running, 1, some 5, some .make, some 15000, true, false, true⟩
  seq := { claiming.seq with state := .running, spin := .accepted 5 1 }
  ret := { claiming.ret with unit := some (unitAt 9) } }

theorem witness_SpinRunsAndEnds :
    claiming.AlarmsSettled ∧ claiming.Serves (requestOf ⟨5, false, 7⟩ 15 [3]) ∧
    claiming.Serves (requestOf ⟨5, false, 7⟩ 15 [4]) ∧ SpinKind.ofCode (3 : Byte).toNat = some .unlatch ∧
    (∃ c ∈ claiming.claimView, c.station = 5 ∧ c.kind = .connection ∧ c.phase = .active) ∧
    (∀ c ∈ claiming.claimView, c.station ≠ 5 → c.phase ≠ .active) ∧ claiming.claims.listen = none ∧
    claiming.spin.state ≠ .running ∧ spinning.AlarmsSettled ∧ spinning.spin.state = .running ∧
    spinning.pins.spinDone = false ∧ spinning.spin.timer.isSome = true ∧
    spinning.seq.spin = .accepted spinning.straps.number spinning.spin.number ∧ spinning.seq.state = .running ∧
    (unitAt 9).kindOfStep = .spin .make ∧ ∀ k n, claiming.seq.spin ≠ .accepted k n :=
  ⟨settled _ (by decide), serves _ _ rfl, serves _ _ rfl, rfl, ⟨_, .head _, rfl, rfl, rfl⟩, by decide, rfl, by decide,
    settled _ (by decide), rfl, rfl, rfl, rfl, rfl, rfl, fun k n h => (nomatch h)⟩

/-- A spin of station 7 runs. -/
def spinsFor7 (p : PeerEntry) : State := facing .none p fun s => { s with
  spin := ⟨.running, 1, some 7, some .make, some 15000, true, false, true⟩ }

theorem witness_SpinRunsAndEnds_abandoned :
    let stale : PeerEntry := { claims7 .active with stale := true, silence := none }
    (spinsFor7 (claims7 .active)).AlarmsSettled ∧ (spinsFor7 (claims7 .active)).Knows 7 (claims7 .active) ∧
    (spinsFor7 (claims7 .active)).Hears (claimFrom7 .none) ⟨7, 31, .claim, 1, .claim ⟨.still, .none⟩⟩ ∧
    (spinsFor7 stale).AlarmsSettled ∧ (spinsFor7 stale).Knows 7 stale ∧ (spinsFor7 stale).Serves (requestOf rq 6 [7]) ∧
    (spinsFor7 stale).spin.owner = some 7 ∧ (spinsFor7 stale).depth.holdoff = none ∧ 7 ≠ st.straps.number :=
  ⟨settled _ (by decide), knows _ _ _ rfl rfl, hears _ _ _ (by decide +kernel) (by decide), settled _ (by decide),
    knows _ _ _ rfl rfl, serves _ _ (by decide), rfl, rfl, by decide⟩

/-- R118: the spin of a claim that leaves the view is ABANDONED. -/
theorem test_spin_is_abandoned :
    (after (.frameReceived (claimFrom7 .none)) (spinsFor7 (claims7 .active))).spin =
      ⟨.abandoned, 1, some 7, some .make, none, false, false, true⟩ := by decide +kernel

theorem witness_RecordRequestsAreTaken_describe :
    logged.AlarmsSettled ∧ logged.Serves (requestOf rq 16 (leBytes 2 (0 : BitVec 16).toNat ++ [63, 4, 1])) ∧
    logged.Serves (requestOf rq 16 (leBytes 2 (0 : BitVec 16).toNat ++ [64, 5, 2])) ∧
    logged.ret.intervals.find? (fun iv => iv.index == 2) = none ∧
    logged.ret.intervals.find? (fun iv => iv.index == 0) = some (closedInterval 0) ∧
    (logged.newInterval 1).closedTime = none ∧ (closedInterval 0).cls.getD (logged.cfg Item.defaultClass 0) = 1 :=
  ⟨settled _ (by decide), serves _ _ rfl, serves _ _ rfl, rfl, rfl, rfl, by decide⟩

theorem witness_RecordRequestsAreTaken_billing :
    st.AlarmsSettled ∧ st.Serves (requestOf rq 18 [255]) ∧ st.ret.down = false ∧ st.ret.job ≠ .closed ∧
    st.Serves (requestOf rq 19 []) ∧ ({ st with ret := { st.ret with down := true } } : State).AlarmsSettled ∧
    st.Serves (requestOf rq 20 (7 :: leBytes 2 (1000 : BitVec 16).toNat)) ∧
    st.Serves (requestOf rq 20 (8 :: leBytes 2 (1001 : BitVec 16).toNat)) ∧ st.ret.units.length = 8 :=
  ⟨settled _ (by decide), serves _ _ rfl, rfl, by decide, serves _ _ rfl, settled _ (by decide), serves _ _ rfl,
    serves _ _ rfl, rfl⟩

/-- The station without a role, with RECORD station 7 heard in a job state. -/
def ofPlain (job : JobState) : State := listens { peer 7 with status := some { idleStatus with job := job } } id

theorem witness_JobCloseEndsTheJob :
    st.AlarmsSettled ∧ st.Serves (requestOf rq 22 [0]) ∧ st.Serves (requestOf rq 22 [1]) ∧ st.Serves (requestOf rq 22 [2]) ∧
    st.straps.record = true ∧ st.ret.job = .opened ∧ st.ret.lag = [] ∧ (∀ z ∈ st.ret.zones, z.openKind = none) ∧
    ({ st with ret := { st.ret with lag := [⟨0, 100, 1000, 60⟩] } } : State).ret.lag ≠ [] ∧
    ({ st with ret := { st.ret with lag := [⟨0, 100, 1000, 60⟩] } } : State).AlarmsSettled ∧
    (heard { peer 7 with status := some { idleStatus with job := .opened } }).straps.record = true ∧
    (ofPlain .opened).AlarmsSettled ∧ (ofPlain .opened).straps.record = false ∧
    (∃ p ∈ (ofPlain .opened).peers, ∃ m, p.status = some m ∧ m.roles.record = true ∧ m.job ≠ .closed) ∧
    (ofPlain .closed).AlarmsSettled ∧
    ((ofPlain .closed).peers.all fun p => p.status.all fun m => m.job == .closed) = true :=
  ⟨settled _ (by decide), serves _ _ rfl, serves _ _ rfl, serves _ _ rfl, rfl, rfl, rfl, by decide, by decide,
    settled _ (by decide), rfl, settled _ (by decide +kernel), rfl, ⟨_, .head _, _, rfl, rfl, by decide⟩,
    settled _ (by decide +kernel), rfl⟩

theorem witness_JobClearEmptiesTheRecords :
    st.AlarmsSettled ∧ st.Serves (requestOf rq 23 []) ∧ st.ret.job ≠ .closed ∧
    ({ st with ret := { st.ret with job := .closed } } : State).AlarmsSettled ∧
    ({ st with ret := { st.ret with job := .closed } } : State).Serves (requestOf rq 23 []) :=
  ⟨settled _ (by decide), serves _ _ rfl, by decide, settled _ (by decide), serves _ _ rfl⟩

/-! ## Witnesses: field lines and timers -/

/-- The own claim PENDING with its settle timer running. -/
def settling : State := calmed { st with
  ret := { st.ret with claim := ⟨.connection, .pending⟩, unit := some (unitAt 1) }
  claims := ⟨true, some 500, none⟩
  seq := { st.seq with state := .claiming } }

/-- The listen window runs. -/
def listening (take : Bool) : State := { st with claims := ⟨take, none, some 750⟩ }

/-- The listen window runs at a station with no role whose view is UNSURE: an event is held, its source went away. -/
def sourceless : State := calmed { plain with
  claims := ⟨false, none, some 750⟩
  rod := { plain.rod with sure := false, source := none, held := [added] } }

theorem witness_ClaimTimersRunOut :
    st.AlarmsSettled ∧ st.claims.settle = none ∧ settling.AlarmsSettled ∧ settling.claims.settle.isSome = true ∧
    settling.ret.claim.phase = .pending ∧ settling.otherClaims = [] ∧
    (settling.spin.state = .running → settling.spin.owner = some settling.straps.number) ∧
    settling.seq.state = .claiming ∧ settling.ret.unit = some (unitAt 1) ∧
    ({ settling with pumps := ⟨{ PumpChannel.start with strokeStopped := false }, .start⟩ } : State).pumpsDown = false ∧
    ({ settling with peers := [{ peer 7 with claim := ⟨.still, .pending⟩ }] } : State).otherClaims ≠ [] ∧
    (listening false).AlarmsSettled ∧ (listening true).AlarmsSettled ∧ (listening true).claims.listen.isSome = true ∧
    (listening true).ret.claim.phase = .none ∧ (listening true).claimView = [] ∧
    (listening true).link.listenOnly = false ∧ (listening true).spin.state ≠ .running ∧
    (sourceless.mode = .run ∧ sourceless.AlarmsSettled ∧ sourceless.claims.listen.isSome = true ∧
      sourceless.straps.rod = false ∧ sourceless.rod.source = none ∧ sourceless.rod.sure = false) :=
  ⟨settled _ (by decide), rfl, settled _ (by decide), rfl, rfl, rfl, fun h => (nomatch h), rfl, rfl, by decide, by decide,
    settled _ (by decide), settled _ (by decide), rfl, rfl, rfl, rfl, by decide,
    ⟨rfl, settled _ (by decide), rfl, rfl, rfl, rfl⟩⟩

/-- R98: the records are taken as they stand; that the event held is dropped is the model's choice (log 72). -/
theorem test_listen_window_drops_held_events :
    ∃ t, exec .listenWindowEnd sourceless = .next t ∧ t.rod.sure = true ∧ t.rod.held = [] ∧ t.ret.string = [] ∧
      t.ret.hold = sourceless.ret.hold ∧ t.ret.eventNo = 0 :=
  ⟨_, rfl, by decide +kernel⟩

/-- Threshold channels in service. -/
def sampling : State := { st with thresholds :=
  ⟨⟨some 12, 6, true, some 100⟩, ⟨some 9, 8, true, some 100⟩, ⟨some 0, 0, false, some 100⟩⟩ }

theorem witness_ThresholdSampleIsTaken :
    st.AlarmsSettled ∧ (st.thresholds.get .pit).timer = none ∧ sampling.AlarmsSettled ∧
    (∀ c, (sampling.thresholds.get c).timer.isSome = true) ∧ (sampling.thresholds.get .pressure).last = some 12 ∧
    (sampling.thresholds.get .ret).last = some 0 ∧ (sampling.thresholds.get .ret).known = false :=
  ⟨settled _ (by decide), rfl, settled _ (by decide), (fun c => by cases c <;> rfl), rfl, rfl, rfl⟩

theorem witness_StrokeEdgeCountsAndCaptures :
    let last : State := { st with pumps := ⟨{ PumpChannel.start with lastEdge := some 1000, refValid := true, state := .running }, .start⟩ }
    last.AlarmsSettled ∧ last.straps.pump = true ∧ last.cfg Item.fitted (pumpCode .a) = 1 ∧
    last.cfg Item.edgePolarity (pumpCode .a) = 0 ∧ (last.chan .a).lastEdge = some 1000 ∧ 1000 + 200 ≤ 1200 ∧
    ¬1000 + 200 ≤ 1199 ∧
    (let edge : State := { lastTag with pumps := ⟨{ last.pumps.a with effVolume := 9200 }, .start⟩ }
     edge.strataOn = true ∧ edge.ret.job = .closing ∧ edge.ret.pumped ≠ edge.ret.pumped + (edge.chan .a).effVolume ∧
      (∀ g ∈ edge.ret.lag, g.mark ≤ 9200) ∧ ∀ z ∈ edge.ret.zones, z.openKind = none) :=
  ⟨settled _ (by decide), rfl, by decide, by decide, rfl, by decide, by decide, ⟨rfl, rfl, by decide, by decide, by decide⟩⟩

/-- Pump A runs with a kept call, pump B starts. -/
def pumping : State :=
  let a : PumpChannel := { PumpChannel.start with
    state := .running, stoppedTimer := some 3000, holdoff := some 200, callKept := true, strokeStopped := false }
  let b : PumpChannel := { PumpChannel.start with state := .starting, startTimer := some 5000, holdoff := some 200 }
  { st with pumps := ⟨a, b⟩, depth := { st.depth with holdoff := some 200, callKept := true } }

theorem witness_PumpAndFrameTimersRunOut :
    pumping.AlarmsSettled ∧ (pumping.chan .a).stoppedTimer.isSome = true ∧ pumping.seq.state ≠ .running ∧ (pumping.chan .b).startTimer.isSome = true ∧
    (pumping.chan .a).holdoff.isSome = true ∧ (pumping.chan .a).callKept = true ∧ (pumping.chan .b).callKept = false ∧
    pumping.depth.holdoff.isSome = true ∧ pumping.depth.callKept = true ∧ (st.chan .a).stoppedTimer = none ∧
    (st.chan .a).holdoff = none ∧ st.depth.holdoff = none :=
  ⟨settled _ (by decide), rfl, by decide, rfl, rfl, rfl, rfl, rfl, rfl, rfl, rfl, rfl⟩

/-- The station of the worked sequence "a loss builds" before evaluation 3, with pit step 7 and H and D 185,600 mm. -/
def losing : State := { sampling with
  thresholds := ⟨.start, ⟨some 7, 7, true, some 100⟩, ⟨some 1, 1, true, some 100⟩⟩
  ret := { st.ret with
    hold := ⟨.clamped, .free, false⟩, water := 50000, lost := 1200000, hole := 185600, balState := .balanced
    items := [⟨9, 0, 186400⟩, ⟨28, 0, 1⟩, ⟨28, 1, 1⟩]
    reference := some ⟨225000, 0, 184000, 184000⟩ }
  depth := { st.depth with headKnown := true }
  circ := { st.circ with evalTimer := some 2000, trackers := { Trackers.clear with lossRun := 2 } } }

/-- Chapter 5, worked sequence, evaluation 3: the loss increment of 52,080 mL and the rebase. -/
theorem test_a_loss_builds : losing.depthNow = some 185600 ∧
    losing.evaluate = ⟨.losing, Trackers.clear, some ⟨175000, 50000, 185600, 185600⟩, 1252080, 0⟩ := by decide +kernel

theorem witness_BalanceFollowsThePit :
    st.AlarmsSettled ∧ plain.isPit = false ∧ st.isPit = true ∧ st.circ.evalTimer = none ∧
    losing.AlarmsSettled ∧ losing.circ.evalTimer.isSome = true ∧ losing.headPosition.isSome = true ∧ losing.viewSure = true ∧
    losing.noStalePump = true ∧ losing.ret.balState ≠ .suspended ∧ losing.ret.reference.isSome = true ∧
    st.ret.balState = .suspended ∧ st.thresholds.pit.known = false :=
  ⟨settled _ (by decide), rfl, rfl, rfl, settled _ (by decide), rfl, rfl, rfl, rfl, by decide, rfl, rfl, rfl⟩

theorem witness_HeadMotionIsMeasured :
    st.AlarmsSettled ∧ st.seq.state ≠ .running ∧ st.straps.head = true ∧ plain.straps.head = false ∧
    st.pins.topLimit = false ∧ st.cfg Item.pulsesPerTurn 0 ≤ st.depth.pulses + 1 ∧
    ¬({ st with ret := { st.ret with items := [⟨27, 0, 2⟩] } } : State).cfg Item.pulsesPerTurn 0 ≤ st.depth.pulses + 1 ∧
    st.depth.headSource = some st.straps.number ∧ st.depth.wear = none ∧ st.ret.turns < 4294967296 :=
  ⟨settled _ (by decide), by decide, rfl, rfl, rfl, by decide, by decide, rfl, rfl, by decide⟩

/-- A count down at h 0 changes no head value; a count up does. -/
theorem witness_HeadMotionIsMeasured_still :
    let counted := fun h : Nat => ({ st with depth := { st.depth with h := h } } : State).headValues
    st.depth.h - st.cfg Item.feedPerCount 0 = 0 ∧ counted 0 = st.headValues ∧
    counted (min (st.cfg Item.mastTravel 0) (st.depth.h + st.cfg Item.feedPerCount 0)) ≠ st.headValues := by
  decide +kernel

/-- H at 999 mm, and D 1,000 mm at any h: the bottom of interval 0 is reached. -/
def reaching (assembly : Nat) : State := calmed { st with
  ret := { st.ret with
    hole := 999, hold := ⟨.clamped, .free, false⟩, items := [⟨Item.assemblyLength, 0, assembly⟩]
    intervals := [st.newInterval 0] }
  depth := { st.depth with headKnown := true } }

theorem witness_RiseOfHClosesIntervals :
    (∀ n ∈ [1800, 3800, 1000000], calm (reaching n) = true) ∧ (reaching 1800).seq.state ≠ .running ∧
    (reaching 1800).straps.head = true ∧ (reaching 1800).strataOn = true ∧
    (reaching 1800).openInterval = some (st.newInterval 0) ∧
    (reaching 1800).depthNow = some 1000 ∧ (reaching 3800).depthNow = some 3000 ∧
    (reaching 1800).cfg Item.intervalLength 0 = 1000 ∧ (reaching 1800).ret.hole < 1000 ∧
    ({ reaching 2799 with ret := { (reaching 2799).ret with hole := 1998, intervals := [st.newInterval 1] } } : State).depthNow =
      some 1999 ∧
    (let counted := fun h : Nat => { reaching 1800 with depth := { (reaching 1800).depth with h := h } }
     (counted 0).headValues = (reaching 1800).headValues ∧
     (counted ((reaching 1800).cfg Item.feedPerCount 0)).headValues ≠ (reaching 1800).headValues) := by
  decide +kernel

theorem witness_ZonesFollowTheHeardBalance :
    st.AlarmsSettled ∧ st.isPit = true ∧ st.strataOn = true ∧
    losing.AlarmsSettled ∧ losing.strataOn = true ∧ losing.isPit = true ∧
    losing.evaluate.state ≠ losing.ret.balState ∧
    (after .waterPulse { st with ret := { st.ret with job := .closing, close := .processing, zones := [] } }).ret.job =
      .closed :=
  ⟨settled _ (by decide), rfl, rfl, settled _ (by decide), rfl, rfl, by decide +kernel, by decide +kernel⟩

/-- A unit at a step, with a rod and a slot chosen and a rod in the loader. -/
def stepAt (kind : OpKind) (n : Nat) (phase : StepPhase) : State :=
  calmed { claiming with
    seq := { claiming.seq with state := .running, phase := phase, timer := some 5000 }
    ret := { claiming.ret with unit := some ⟨kind, n, some 1, some 3, true⟩, rods := [rod 1 .rack (some 3), rod 2 .loader none] } }

theorem witness_RodInputsEndTheirSteps :
    st.AlarmsSettled ∧ st.seq.state ≠ .running ∧
    (stepAt .makeUp 5 .first).AlarmsSettled ∧ (UnitRec.mk .makeUp 5 (some 1) (some 3) true).kindOfStep = .clamp ∧
    (stepAt .makeUp 3 .first).AlarmsSettled ∧ (UnitRec.mk .makeUp 3 (some 1) (some 3) true).kindOfStep = .release ∧
    (stepAt .makeUp 8 .first).AlarmsSettled ∧ (stepAt .makeUp 8 .second).AlarmsSettled ∧
    (UnitRec.mk .makeUp 8 (some 1) (some 3) true).kindOfStep = .fetch ∧
    (stepAt .breakOut 10 .first).AlarmsSettled ∧ (stepAt .breakOut 10 .second).AlarmsSettled ∧
    (UnitRec.mk .breakOut 10 (some 1) (some 3) true).kindOfStep = .store ∧
    rodInLoader (stepAt .breakOut 10 .second).ret.rods = some (rod 2 .loader none) ∧
    (stepAt .breakOut 8 .first).AlarmsSettled ∧ (UnitRec.mk .breakOut 8 (some 1) (some 3) true).kindOfStep = .grip ∧
    (stepAt .breakOut 8 .first).seq.aborted = false ∧ (stepAt .breakOut 8 .first).seq.timer.isSome = true ∧
    (stepAt .makeUp 5 .first).pins.clampClosed = false ∧ (stepAt .makeUp 8 .first).pins.rodPresented = false :=
  ⟨settled _ (by decide), by decide, settled _ (by decide), rfl, settled _ (by decide), rfl, settled _ (by decide),
    settled _ (by decide), rfl, settled _ (by decide), settled _ (by decide), rfl, rfl, settled _ (by decide), rfl, rfl, rfl,
    rfl, rfl⟩

theorem witness_RodInputsEndTheirSteps_next :
    (stepAt .makeUp 5 .first).link.Roomy ∧ (stepAt .makeUp 5 .first).ret.unit = some ⟨.makeUp, 5, some 1, some 3, true⟩ ∧
    (stepAt .makeUp 5 .first).seq.phase ≠ .ending ∧
    (stepAt .breakOut 7 .first).AlarmsSettled ∧ (stepAt .breakOut 7 .first).pins.gripped = false ∧
    (stepAt .makeUp 3 .first).pins.clampClosed = false ∧
    (stepAt .makeUp 3 .first).headNear ((stepAt .makeUp 3 .first).cfg Item.clampHeight 0) = false ∧
    (stepAt .breakOut 10 .second).ret.retirements.length = 4 ∧
    ((stepAt .breakOut 10 .second).ret.rods.map (·.id)).Nodup ∧ (stepAt .breakOut 10 .second).link.listenOnly = false ∧
    (withLink fun l => { l with rodWait := [frame 0 0] }).link.rodWait ≠ [] :=
  ⟨⟨rfl, by decide, by decide⟩, rfl, by decide, settled _ (by decide), rfl, rfl, by decide, rfl, by decide, rfl, by decide⟩

/-- A running unit with an op queue and an abort mark. -/
def ending (kind : OpKind) (n : Nat) (queue : List OpEntry) (aborted : Bool) : State :=
  let s := stepAt kind n .first
  calmed { s with seq := { s.seq with queue := queue, aborted := aborted } }

theorem witness_UnitEndsByTheQueue :
    (∀ q ∈ [[], [⟨.makeUp, 2, 20, 7⟩], [⟨.makeUp, 1, 20, 7⟩], [⟨.makeUp, 1, 20, 7⟩, ⟨.breakOut, 1, 20, 8⟩]],
      calm (ending .makeUp 10 q false) = true ∧ calm (ending .makeUp 10 q true) = true) ∧
    (ending .makeUp 10 [] false).ret.claim.phase = .active ∧ (ending .makeUp 10 [] false).link.rodWait = [] ∧
    (ending .makeUp 10 [] false).link.count .rig + 1 < 16 ∧ (ending .makeUp 10 [] false).link.count .urgent + 1 < 8 ∧
    (ending .makeUp 10 [] false).seq.phase ≠ .ending ∧ (ending .makeUp 10 [] false).pins.clampClosed = false ∧
    (ending .makeUp 10 [] false).ret.string = [] ∧ calm (ending .makeUp 5 [] true) = true ∧
    rodInLoader (ending .makeUp 5 [] true).ret.rods ≠ none ∧
    rodInLoader ({ ending .makeUp 5 [] true with ret := { (ending .makeUp 5 [] true).ret with rods := [] } } : State).ret.rods =
      none := by decide +kernel

/-- DONE of the own spin, at a running step and at one in FAULT. -/
theorem witness_SpinStepCompletes :
    spinning.AlarmsSettled ∧ spinning.straps.rod = true ∧ spinning.ret.unit = some (unitAt 9) ∧
    (unitAt 9).kindOfStep = .spin .make ∧ spinning.seq.spin = .accepted 5 1 ∧ spinning.seq.phase ≠ .ending ∧
    spinning.seq.state = .running ∧ spinning.spin.state = .running ∧ spinning.spin.number = 1 ∧
    spinning.pins.spinDone = false ∧ spinning.link.Roomy ∧ spinning.seq.aborted = false ∧
    spinning.pins.clampOpen = false ∧
    (calmed { spinning with seq := { spinning.seq with state := .fault .spin } }).AlarmsSettled ∧
    (SeqState.fault StopCause.spin).stopped = true :=
  ⟨settled _ (by decide), rfl, rfl, rfl, rfl, by decide, rfl, rfl, rfl, rfl, ⟨rfl, by decide, by decide⟩, rfl, rfl,
    settled _ (by decide), rfl⟩

/-- DONE in a HEAD frame of the station asked. -/
theorem witness_SpinStepCompletes_heard :
    watching.AlarmsSettled ∧ watching.straps.rod = true ∧ watching.seq.spin = .accepted 7 1 ∧
    watching.peer? 7 = some { header with head := some { turned with turns := 900 } } ∧
    decodeFrame (from7 .head (encodeHead { turned with turns := 900, spin := .done })) =
      some ⟨7, 31, .head, 1, .head { turned with turns := 900, spin := .done }⟩ :=
  ⟨settled _ (by decide +kernel), rfl, rfl, rfl, by decide +kernel⟩

theorem witness_JobSecondIsCharged :
    st.AlarmsSettled ∧ st.billing.jobTimer.isSome = true ∧ st.ret.jobTime < 4294967295 ∧ st.ret.job = .opened ∧
    ({ st with ret := { st.ret with jobTime := 4294967294 } } : State).ret.jobTime < 4294967295 ∧
    ({ st with ret := { st.ret with jobTime := 59 } } : State).AlarmsSettled ∧
    ({ st with ret := { st.ret with job := .closing, closingSeconds := 1799 } } : State).AlarmsSettled ∧
    logged.strataOn = true ∧ logged.openInterval = some (st.newInterval 1) ∧
    ({ st with billing := { st.billing with jobTimer := none } } : State).AlarmsSettled :=
  ⟨settled _ (by decide), rfl, by decide, rfl, by decide, settled _ (by decide), settled _ (by decide), rfl, by decide,
    settled _ (by decide)⟩

/-! ## One step of each family, against the manual -/

/-- R21: from the state before the first start, POWER_START is COLD and enters CONFIG with both images written. -/
theorem test_power_start_is_cold :
    (after (.powerStart every) State.reset).mode = .config ∧ (after (.powerStart every) State.reset).first.number = 0 ∧
    (after (.powerStart every) State.reset).second.number = 1 := by decide +kernel

/-- R2: a ROUTINE frame of station 5 waits 37 slots. -/
theorem test_access_delay :
    (after (.lineQuiet false) (withLink fun l => { l with inHand := some ⟨.rig, frame 0 0, false, none⟩ })).link.inHand =
      some ⟨.rig, frame 0 0, false, some 37⟩ := by decide +kernel

/-- Pump A of the worked sequence of chapter 4, between its first edge and its second. -/
def starting : PumpChannel := { PumpChannel.start with
  state := .starting, target := 60, staged := 120, startTimer := some 5000, strokeStopped := false
  lastEdge := some 1400, refValid := true }

/-- The station of that sequence. -/
def fromChapter4 (c : PumpChannel) : State := { st with
  ret := { st.ret with items := [⟨28, 0, 1⟩, ⟨31, 0, 120⟩] }
  pumps := ⟨c, .start⟩
  thresholds := ⟨⟨some 6, 6, true, some 100⟩, .start, .start⟩ }

/-- The request starts the pump, the second edge makes it RUNNING at 50 spm, and the third stages 123. -/
theorem test_pump_start :
    ((after (.pumpRate rq 0 60) (fromChapter4 .start)).chan .a).staged = 120 ∧
    ((after (.pumpRate rq 0 60) (fromChapter4 .start)).chan .a).state = .starting ∧
    ((after (.strokeEdge .a .rising 2600) (fromChapter4 starting)).chan .a).state = .running ∧
    ((after (.strokeEdge .a .rising 2600) (fromChapter4 starting)).chan .a).spm = 50 ∧
    ((after (.strokeEdge .a .rising 3700) (fromChapter4 { starting with state := .running, lastEdge := some 2600 })).chan
      .a).staged = 123 := by decide +kernel

/-- R86: h stops at the mast travel, which the top limit sets and makes known. -/
theorem test_head_position :
    (after (.encoderCount true) { st with depth := { st.depth with h := 7000 } }).depth.h = 7000 ∧
    (after (.encoderCount false) st).depth.h = 0 ∧ (after (.topLimit true) st).depth.h = 7000 ∧
    (after (.topLimit true) st).depth.headKnown = true := by decide +kernel

/-- R110: a clamp closed in a make-up leaves the string clamped, latched, with no rod above the clamp. -/
theorem test_clamp_closes :
    (after (.clampClosed true) (stepAt .makeUp 5 .first)).ret.hold = ⟨.clamped, .latched, false⟩ ∧
    (after (.clampClosed true) (stepAt .makeUp 5 .first)).ret.eventNo = 1 := by decide +kernel

/-- R119: the timer of the clamp step faults with cause CLAMP and keeps the clamp output. -/
theorem test_step_timer_faults :
    (after .stepTimerExpiry (stepAt .makeUp 5 .first)).seq.state = .fault .clamp ∧
    (after .stepTimerExpiry (stepAt .makeUp 5 .first)).alarm.isActive .sequenceHold = true := by decide +kernel

/-- R118: LATCH drives the make direction, with spin number 1 and the permit on. -/
theorem test_spin_begins :
    (after (.spin ⟨5, false, 7⟩ 2) claiming).spin = ⟨.running, 1, some 5, some .latch, some 15000, true, false, true⟩ := by
  decide +kernel

/-- R148: with no pump running, an open job stands by, and a CONNECTION claim at D unknown is TRIPPING. -/
theorem test_activity_classes :
    (after .jobSecond st).ret.meters = [0, 0, 0, 0, 0, 0, 0, 1] ∧
    (after .jobSecond claiming).ret.meters = [0, 0, 1, 0, 0, 0, 0, 0] := by decide +kernel

/-- R168: the acknowledgement of the last pending condition stops the horn. -/
theorem test_alarm_ack_stops_the_horn :
    (after (.alarmAck rq 255) { st with alarm := ⟨0, 3⟩, outs := { Outputs.off with horn := true } }).outs.horn = false := by
  decide +kernel

end Sys2Proof.Tests
end

/-! PUMP_RATE (O40): what serving a request and answering it do to any state, each test of R53 in its place,
the moves of R54, and the statement assembled from them. -/

namespace Sys2Proof.Machine

/-! ## A request served (R12, R22, log 7) -/

@[simp] theorem Request.same_self (r : Request) : r.same r = true := by simp [Request.same]

/-- A request that is served now is taken out of the intake queue and handed to its service. -/
theorem present_of_serves {s : State} {r : Request} (h : s.Serves r) (f : Request → State → State) :
    s.present r f = f r s.taken := by
  obtain ⟨-, ⟨hempty, hheard⟩ | ⟨rest, hhead⟩⟩ := h
  · have hsilent : (s.link.listenOnly && !r.toAll) = false := by
      obtain h | h := hheard <;> simp [h]
    have harrive : s.arrive r = { s with link := { s.link with intake := [r] } } := by
      simp [State.arrive, hsilent, hempty, Config.intakeRoom]
    simp [State.present, hempty, harrive, State.taken, Link.popIntake]
  · simp [State.present, hhead, State.taken]

theorem serve_of_noRole {g : Gate} (h : g.role = false) (s : State) (k : QueueId) (q : Request)
    (f : Request → State → Served) : s.serve k g q f = s.answer k q .noRole [] := by
  simp [State.serve, h]

theorem serve_of_config {g : Gate} {s : State} {q : Request} (hrole : g.role = true)
    (hbytes : g.bytes ≤ q.args.length) (hrun : s.inRun = false) (hconfig : g.inConfig = false) (k : QueueId)
    (f : Request → State → Served) : s.serve k g q f = s.answer k q .state [] := by
  simp [State.serve, hrole, hbytes.not_gt, hrun, hconfig]

theorem serve_of_run {g : Gate} {s : State} {q : Request} (hrole : g.role = true)
    (hbytes : g.bytes ≤ q.args.length) (hrun : s.inRun = true) (k : QueueId) (f : Request → State → Served) :
    s.serve k g q f = (f q s).state.answer k q (f q s).code (f q s).data := by
  simp [State.serve, hrole, hbytes.not_gt, hrun]

/-! ## An answer changes no alarm condition (R8, R12, R166) -/

theorem handRig_fault_eq (e : LinkEnv) (f : TxFrame) (l : Link) : (l.handRig e f).fault = l.fault := by
  unfold Link.handRig
  repeat' split
  all_goals simp

theorem handPlain_fault_eq (e : LinkEnv) (q : QueueId) (f : TxFrame) (l : Link) :
    (l.handPlain e q f).fault = l.fault := by
  unfold Link.handPlain
  split <;> simp

/-- Only a frame dropped at a full URGENT queue is a fault (R8, R16). -/
theorem handOver_fault_of_routine (e : LinkEnv) (q : QueueId) {f : TxFrame} (hf : f.urgent = false) (l : Link) :
    (l.handOver e q f).fault = l.fault := by
  unfold Link.handOver
  rw [hf]
  split
  · rfl
  · cases q with
    | rig => exact handRig_fault_eq e f l
    | urgent => exact handPlain_fault_eq e .urgent f l
    | exchange => exact handPlain_fault_eq e .exchange f l
    | bulk => exact handPlain_fault_eq e .bulk f l

theorem answerFrames_routine {dest tag : Nat} {code : ResultCode} {data : List Byte} {f : TxFrame}
    (h : f ∈ answerFrames dest tag code data) : f.urgent = false := by
  obtain ⟨i, -, rfl⟩ := List.mem_map.1 h
  rfl

theorem foldl_hand_fault (q : QueueId) (fs : List TxFrame) (h : ∀ f ∈ fs, f.urgent = false) (s : State) :
    (fs.foldl (fun s f => s.hand q f) s).link.fault = s.link.fault := by
  induction fs generalizing s with
  | nil => rfl
  | cons f fs ih =>
    rw [List.foldl_cons, ih fun g hg => h g (List.mem_cons_of_mem _ hg)]
    exact handOver_fault_of_routine _ q (h f List.mem_cons_self) _

theorem answer_fault (s : State) (q : QueueId) (r : Request) (code : ResultCode) (data : List Byte) :
    (s.answer q r code data).link.fault = s.link.fault := by
  unfold State.answer
  split
  · rfl
  · exact foldl_hand_fault q _ (fun _ hf => answerFrames_routine hf) s

/-- A change of the link unit that leaves the fault record leaves every alarm condition. -/
theorem settled_of_link {s t : State} (h : LeavesOther [.link] s t) (hfault : t.link.fault = s.link.fault)
    (hs : s.AlarmsSettled) : t.AlarmsSettled := by
  intro hrun c
  have hcond : t.alarmCond c = s.alarmCond c := by
    by_cases hc : c = .linkFault
    · subst hc; exact congrArg Option.isSome hfault
    · exact alarmCond_eq (h.mono (by decide)) hc
  rw [hcond, h.alarm (by decide)]
  exact hs (by unfold State.inRun at hrun ⊢; rwa [← h.mode]) c

theorem taken_settled {s : State} (hs : s.AlarmsSettled) : s.taken.AlarmsSettled :=
  settled_of_link (moves_link s _ (by simp)).other rfl hs

theorem replied_settled {w : State} (hw : w.AlarmsSettled) (q : QueueId) (rq : ReqHead) (code : ResultCode)
    (data : List Byte) : (w.replied q rq code data).AlarmsSettled :=
  settled_of_link (moves_answer w q _ code data).other (answer_fault w q _ code data) hw

/-! ## The tests of PUMP_RATE (R53) -/

theorem pumpOfCode_pumpCode (p : PumpId) : pumpOfCode (pumpCode p) = some p := by cases p <;> rfl

theorem pumpOfCode_eq_none {n : Nat} (h : 1 < n) : pumpOfCode n = none := by
  unfold pumpOfCode
  split
  · omega
  · omega
  · rfl

section Tests

variable {rq : ReqHead} {pump rate : Byte} {s : State} {p : PumpId}

theorem isFitted_iff (hrun : s.inRun = true) (hrole : s.straps.pump = true) :
    s.isFitted p = true ↔ s.cfg Item.fitted (pumpCode p) = 1 := by
  simp [State.isFitted, hrun, hrole]

theorem servePumpRate_of_badPump (h : 1 < pump.toNat) :
    servePumpRate (requestOf rq 7 [pump, rate]) s = s.refuse .range := by
  have harg : pumpOfCode ((requestOf rq 7 [pump, rate]).arg 0) = none := pumpOfCode_eq_none h
  simp only [servePumpRate, harg]

/-- The tests that remain once the pump argument names a pump. -/
theorem servePumpRate_of_pump (h : pump.toNat = pumpCode p) :
    servePumpRate (requestOf rq 7 [pump, rate]) s =
      if 150 < rate.toNat then s.refuse .range
      else if !s.isFitted p then s.refuse .notFound
      else if 0 < rate.toNat ∧ (s.viewHolds ∨ s.claims.listen.isSome) then s.refuse .claimed
      else if 0 < rate.toNat ∧ (s.ret.job = .closed ∨ s.link.listenOnly) then s.refuse .state
      else if 0 < rate.toNat ∧ (s.chan p).state = .held then s.refuse .claimed
      else (s.setChan p ((s.chan p).setRate (s.startDuty p) rate.toNat)).done := by
  have harg : pumpOfCode ((requestOf rq 7 [pump, rate]).arg 0) = some p :=
    (congrArg pumpOfCode h).trans (pumpOfCode_pumpCode p)
  have hrate : (requestOf rq 7 [pump, rate]).arg 1 = rate.toNat := rfl
  simp only [servePumpRate, harg, hrate]

theorem servePumpRate_of_badRate (h : 150 < rate.toNat) :
    servePumpRate (requestOf rq 7 [pump, rate]) s = s.refuse .range := by
  by_cases hpump : 1 < pump.toNat
  · exact servePumpRate_of_badPump hpump
  · have hcode : pump.toNat = pumpCode .a ∨ pump.toNat = pumpCode .b := by simp only [pumpCode]; omega
    obtain hcode | hcode := hcode <;> rw [servePumpRate_of_pump hcode, if_pos h]

end Tests

/-! ## The moves of a channel (R54) -/

/-- The table of R54 by rate and state; R53 has refused a rate above 0 for a HELD channel. -/
theorem setRate_eq {duty rate : Nat} {c : PumpChannel} (h : 0 < rate → c.state ≠ .held) :
    c.setRate duty rate =
      if 0 < rate then
        if c.state = .starting ∨ c.state = .running then { c with target := rate }
        else ({ c with target := rate } : PumpChannel).toStarting duty
      else if c.state = .stopped ∨ c.state = .stopping then { c with target := rate }
      else if c.state = .stalled then ({ c with target := rate } : PumpChannel).toStopped
      else ({ c with target := rate } : PumpChannel).toStopping := by
  unfold PumpChannel.setRate
  by_cases habove : 0 < rate
  · have hheld := h habove
    cases hstate : c.state with
    | held => exact absurd hstate hheld
    | _ => simp [habove]
  · cases hstate : c.state <;> simp [habove]

/-! ## PUMP_RATE as a command -/

section Command

variable {rq : ReqHead} {pump rate : Byte} {s : State}

theorem exec_pumpRate_of_serves (h : s.Serves (requestOf rq 7 [pump, rate])) :
    exec (.pumpRate rq pump rate) s =
      .next (s.finish
        (s.taken.serve .exchange ⟨s.straps.pump, 2, false⟩ (requestOf rq 7 [pump, rate]) servePumpRate)) := by
  have hdo : exec (.pumpRate rq pump rate) s =
      .next (s.poweredDo fun s => s.present (requestOf rq 7 [pump, rate]) fun q s =>
        s.serve .exchange ⟨s.straps.pump, 2, false⟩ q servePumpRate) := rfl
  rw [hdo, State.poweredDo, if_pos h.1, present_of_serves h]
  rfl

/-- At a PUMP station in RUN the block's answer is what follows. -/
theorem exec_pumpRate_of_run (h : s.Serves (requestOf rq 7 [pump, rate])) (hrole : s.straps.pump = true)
    (hrun : s.inRun = true) {r : Served} (hr : servePumpRate (requestOf rq 7 [pump, rate]) s.taken = r) :
    exec (.pumpRate rq pump rate) s = .next (s.finish (r.state.replied .exchange rq r.code r.data)) := by
  rw [exec_pumpRate_of_serves h, serve_of_run (s := s.taken) hrole (by simp [requestOf]) hrun, hr]
  rfl

/-- A refusal is the answer and nothing more. -/
theorem refusal_leaves {i : Instr} {code : ResultCode} (hs : s.AlarmsSettled)
    (h : exec i s = .next (s.finish (s.taken.replied .exchange rq code []))) :
    ∃ t, exec i s = .next t ∧ Leaves [] s (s.taken.replied .exchange rq code []) t :=
  ⟨_, h, finish_leaves s _ (moves_answer s.taken _ _ _ _).other.pending
    (replied_settled (taken_settled hs) _ _ _ _)⟩

theorem pumpRate_refused {code : ResultCode} (hs : s.AlarmsSettled) (h : s.Serves (requestOf rq 7 [pump, rate]))
    (hrole : s.straps.pump = true) (hrun : s.inRun = true)
    (hr : servePumpRate (requestOf rq 7 [pump, rate]) s.taken = s.taken.refuse code) :
    ∃ t, exec (.pumpRate rq pump rate) s = .next t ∧ Leaves [] s (s.taken.replied .exchange rq code []) t := by
  have hexec := exec_pumpRate_of_run h hrole hrun hr
  exact refusal_leaves hs hexec

theorem pumpRate_accepted {p : PumpId} {c : PumpChannel} (h : s.Serves (requestOf rq 7 [pump, rate]))
    (hrole : s.straps.pump = true) (hrun : s.inRun = true)
    (hr : servePumpRate (requestOf rq 7 [pump, rate]) s.taken = (s.taken.setChan p c).done) :
    ∃ t, exec (.pumpRate rq pump rate) s = .next t ∧
      Settles s (({ s.taken with pumps := s.pumps.set p c }).replied .exchange rq .done []) t :=
  ⟨_, exec_pumpRate_of_run h hrole hrun hr,
    finish_settles s _ (moves_answer (s.taken.setChan p c) _ _ _ _).other.pending⟩

end Command

end Sys2Proof.Machine

namespace Sys2Proof

open Machine

/-- Settles O40: the gate's refusals, then R53's tests one by one, then R54's table. -/
theorem pumpRateMovesTheChannel : Obligations.PumpRateMovesTheChannel := by
  unfold Obligations.PumpRateMovesTheChannel
  intro rq pump rate s hsettled hserves refused above
  refine ⟨fun hrole => ?_, fun hrole hmode => ?_, fun hrole hmode => ?_⟩
  · refine refusal_leaves hsettled ?_
    rw [exec_pumpRate_of_serves hserves, serve_of_noRole hrole]
    rfl
  · have hrun : s.taken.inRun = false := by
      show (s.mode == .run) = false
      rw [hmode]; rfl
    refine refusal_leaves hsettled ?_
    rw [exec_pumpRate_of_serves hserves, serve_of_config hrole (by simp [requestOf]) hrun rfl]
    rfl
  have hrun : s.inRun = true := by
    show (s.mode == .run) = true
    rw [hmode]; rfl
  have refuses : ∀ {code}, servePumpRate (requestOf rq 7 [pump, rate]) s.taken = s.taken.refuse code →
      refused code := fun hr => pumpRate_refused hsettled hserves hrole hrun hr
  refine ⟨?_, ?_⟩
  · rintro (hpump | hrate)
    · exact refuses (servePumpRate_of_badPump hpump)
    · exact refuses (servePumpRate_of_badRate hrate)
  intro p hpump hrate c claimed barred
  have hcode : pump.toNat = pumpCode p := by rw [hpump]; cases p <;> rfl
  have hfits : s.taken.isFitted p = true ↔ s.cfg Item.fitted pump.toNat = 1 := by
    rw [hcode]; exact isFitted_iff (s := s.taken) hrun hrole
  have tests := servePumpRate_of_pump (rq := rq) (rate := rate) (s := s.taken) hcode
  rw [if_neg hrate.not_gt] at tests
  refine ⟨fun hfitted => refuses ?_, fun hfitted => ?_⟩
  · rw [tests, if_pos (by simpa [← hfits] using hfitted)]
  rw [if_neg (by simpa [← hfits] using hfitted)] at tests
  refine ⟨fun hclaimed => refuses ?_, fun hclaimed hbarred => refuses ?_,
    fun hclaimed hbarred habove hheld => refuses ?_, fun hclaimed hbarred hheld => ?_⟩
  · rw [tests]; exact if_pos hclaimed
  · rw [tests]; exact (if_neg hclaimed).trans (if_pos hbarred)
  · rw [tests]; exact (if_neg hclaimed).trans ((if_neg hbarred).trans (if_pos ⟨habove, hheld⟩))
  · have hmoves := setRate_eq (duty := s.cfg Item.startDuty pump.toNat) hheld
    have hserved : servePumpRate (requestOf rq 7 [pump, rate]) s.taken =
        (s.taken.setChan p (c.setRate (s.cfg Item.startDuty pump.toNat) rate.toNat)).done := by
      rw [tests, hcode]
      exact (if_neg hclaimed).trans ((if_neg hbarred).trans (if_neg fun h => hheld h.1 h.2))
    rw [hmoves] at hserved
    exact pumpRate_accepted hserves hrole hrun hserved

end Sys2Proof

/-! RACK_LOAD and RACK_UNLOAD (O41): what a served request at a role's station in RUN comes to, the tests of R103
and R104 each in its place, and the statement assembled from them. -/

namespace Sys2Proof.Machine

/-! ## Bytes read back (R172) -/

theorem leNat_leBytes (count n : Nat) : leNat (leBytes count n) = n % 256 ^ count := by
  induction count generalizing n with
  | zero => simp [leBytes, leNat, Nat.mod_one]
  | succ count ih =>
    have hbyte : (byteOf n).toNat = n % 256 := BitVec.toNat_ofNat n 8
    rw [leBytes, leNat, hbyte, ih, Nat.pow_succ', Nat.mod_mul]

@[simp] theorem leBytes_length (count n : Nat) : (leBytes count n).length = count := by
  induction count generalizing n with
  | zero => rfl
  | succ count ih => simp [leBytes, ih]

theorem arg_zero_requestOf (rq : ReqHead) (code : Nat) (b : Byte) (rest : List Byte) :
    (requestOf rq code (b :: rest)).arg 0 = b.toNat := rfl

/-- A two-byte argument after the first byte is the number it was spelled from. -/
theorem arg2_leBytes (rq : ReqHead) (code : Nat) (b : Byte) (n : BitVec 16) :
    (requestOf rq code (b :: leBytes 2 n.toNat)).arg2 1 = n.toNat := by
  have hread : natAt (b :: leBytes 2 n.toNat) 1 2 = leNat (leBytes 2 n.toNat) := rfl
  calc (requestOf rq code (b :: leBytes 2 n.toNat)).arg2 1
      = leNat (leBytes 2 n.toNat) := hread
    _ = n.toNat % 256 ^ 2 := leNat_leBytes 2 _
    _ = n.toNat := Nat.mod_eq_of_lt n.isLt

/-! ## A request served in RUN at a station with its role (R12) -/

section Gate

variable {i : Instr} {s : State} {rq : ReqHead} {code : Nat} {args : List Byte} {k : QueueId} {g : State → Gate}
  {f : Request → State → Served}

/-- A command that presents a request comes to its serving block and the answer. -/
theorem exec_of_gate_passed
    (hdo : exec i s = .next (s.poweredDo fun s => s.present (requestOf rq code args) fun q s => s.serve k (g s) q f))
    (h : s.Serves (requestOf rq code args)) (hrole : (g s.taken).role = true)
    (hbytes : (g s.taken).bytes ≤ args.length) (hrun : s.inRun = true) {r : Served}
    (hr : f (requestOf rq code args) s.taken = r) :
    exec i s = .next (s.finish (r.state.replied k rq r.code r.data)) := by
  rw [hdo, State.poweredDo, if_pos h.1, present_of_serves h, serve_of_run (s := s.taken) hrole hbytes hrun, hr]
  rfl

/-- A rod record changed and the request answered DONE; the alarm unit follows what the change did. -/
theorem rodChange_settles {v : Retained} {kind : RodEventKind} {rod slot : Option Nat} {place : Option Place}
    (h : exec i s = .next (s.finish ((s.taken.rodChange v kind rod slot place).replied k rq .done []))) :
    ∃ t, exec i s = .next t ∧ Settles s ((s.taken.rodChange v kind rod slot place).replied k rq .done []) t := by
  have hevent : (s.taken.rodChange v kind rod slot place).pending = s.pending :=
    (moves_makeEvent { s.taken with ret := v } kind rod slot place).other.pending
  exact ⟨_, h, finish_settles s _ ((moves_answer _ k _ _ _).other.pending.trans hevent)⟩

end Gate

/-! ## What the tests read -/

theorem rackFree_eq_false_iff (s : State) :
    s.rackFree = false ↔ s.link.listenOnly = true ∨ s.seq.state ≠ .idle ∨ s.seq.queue ≠ [] := by
  simp only [State.rackFree, Bool.and_eq_false_iff, Bool.not_eq_false', beq_eq_false_iff_ne,
    List.isEmpty_eq_false_iff, or_assoc]

theorem slotEmpty_eq_false_iff (s : State) (n : Nat) :
    s.slotEmpty n = false ↔ ∃ r ∈ s.ret.rods, r.slot = some n := by
  simp [State.slotEmpty, rodInSlot]

theorem orRetired_eq (st : RodState) : st.orRetired = fun x => if x = .retired then .retired else st := by
  funext x
  cases x <;> rfl

/-! ## The tests of RACK_LOAD (R103) -/

section RackLoad

variable {rq : ReqHead} {slot : Byte} {rod : BitVec 16} {s : State}

theorem serveRackLoad_of_badRange (hrange : 63 < slot.toNat ∨ rod.toNat < 1 ∨ 4095 < rod.toNat) :
    serveRackLoad (requestOf rq 8 (slot :: leBytes 2 rod.toNat)) s = s.refuse .range := by
  simp only [serveRackLoad, arg_zero_requestOf, arg2_leBytes, if_pos hrange]

theorem serveRackLoad_of_missing
    (hrange : ¬(63 < slot.toNat ∨ rod.toNat < 1 ∨ 4095 < rod.toNat)) (hfind : findRod s.ret.rods rod.toNat = none) :
    serveRackLoad (requestOf rq 8 (slot :: leBytes 2 rod.toNat)) s = s.refuse .notFound := by
  simp only [serveRackLoad, arg_zero_requestOf, arg2_leBytes, if_neg hrange, hfind]

theorem serveRackLoad_of_found {d : Rod}
    (hrange : ¬(63 < slot.toNat ∨ rod.toNat < 1 ∨ 4095 < rod.toNat)) (hfind : findRod s.ret.rods rod.toNat = some d) :
    serveRackLoad (requestOf rq 8 (slot :: leBytes 2 rod.toNat)) s =
      if !s.rackFree || d.state != .offRig || !s.slotEmpty slot.toNat then s.refuse .state
      else
        (s.rodChange (s.ret.placeAt rod.toNat (fun _ => .rack) (some slot.toNat)) .rackLoaded
          (some rod.toNat) (some slot.toNat) none).done := by
  simp only [serveRackLoad, arg_zero_requestOf, arg2_leBytes, if_neg hrange, hfind]

/-- The third test of R103 as its three causes. -/
theorem rackLoad_barred_iff (s : State) (d : Rod) (n : Nat) :
    (!s.rackFree || d.state != .offRig || !s.slotEmpty n) = true ↔
      (s.link.listenOnly = true ∨ s.seq.state ≠ .idle ∨ s.seq.queue ≠ []) ∨ d.state ≠ .offRig ∨
        ∃ r ∈ s.ret.rods, r.slot = some n := by
  rw [← rackFree_eq_false_iff, ← slotEmpty_eq_false_iff]
  simp [or_assoc]

theorem exec_rackLoad_of_run (h : s.Serves (requestOf rq 8 (slot :: leBytes 2 rod.toNat)))
    (hrole : s.straps.rod = true) (hrun : s.inRun = true) {r : Served}
    (hr : serveRackLoad (requestOf rq 8 (slot :: leBytes 2 rod.toNat)) s.taken = r) :
    exec (.rackLoad rq slot rod) s = .next (s.finish (r.state.replied .exchange rq r.code r.data)) :=
  exec_of_gate_passed (g := fun s => ⟨s.straps.rod, 3, false⟩) rfl h hrole (by simp) hrun hr

end RackLoad

/-! ## The tests of RACK_UNLOAD (R104) -/

section RackUnload

variable {rq : ReqHead} {slot : Byte} {s : State}

theorem serveRackUnload_of_badSlot (h : 63 < slot.toNat) :
    serveRackUnload (requestOf rq 9 [slot]) s = s.refuse .range :=
  if_pos h

theorem serveRackUnload_of_empty (hrange : ¬63 < slot.toNat) (hfind : rodInSlot s.ret.rods slot.toNat = none) :
    serveRackUnload (requestOf rq 9 [slot]) s = s.refuse .notFound := by
  simp only [serveRackUnload, arg_zero_requestOf, if_neg hrange, hfind]

theorem serveRackUnload_of_found {d : Rod} (hrange : ¬63 < slot.toNat)
    (hfind : rodInSlot s.ret.rods slot.toNat = some d) :
    serveRackUnload (requestOf rq 9 [slot]) s =
      if !s.rackFree then s.refuse .state
      else
        (s.rodChange (s.ret.placeAt d.id (RodState.orRetired .offRig) none) .rackUnloaded (some d.id)
          (some slot.toNat) none).done := by
  simp only [serveRackUnload, arg_zero_requestOf, if_neg hrange, hfind]

theorem exec_rackUnload_of_run (h : s.Serves (requestOf rq 9 [slot])) (hrole : s.straps.rod = true)
    (hrun : s.inRun = true) {r : Served} (hr : serveRackUnload (requestOf rq 9 [slot]) s.taken = r) :
    exec (.rackUnload rq slot) s = .next (s.finish (r.state.replied .exchange rq r.code r.data)) :=
  exec_of_gate_passed (g := fun s => ⟨s.straps.rod, 1, false⟩) rfl h hrole (by simp) hrun hr

end RackUnload

end Sys2Proof.Machine

namespace Sys2Proof

open Machine

/-- Settles O41: the tests of R103, then those of R104, in order; the rod that passes changes place with its event. -/
theorem rackRequestsMoveTheRod : Obligations.RackRequestsMoveTheRod := by
  unfold Obligations.RackRequestsMoveTheRod
  intro rq slot s hmode hrole hsettled busy placed
  have hrun : s.inRun = true := by
    show (s.mode == .run) = true
    rw [hmode]; rfl
  refine ⟨?_, ?_⟩
  · intro rod hserves id found refused
    have refuses : ∀ {code},
        serveRackLoad (requestOf rq 8 (slot :: leBytes 2 rod.toNat)) s.taken = s.taken.refuse code →
          refused code :=
      fun hr => by
        have hexec := exec_rackLoad_of_run hserves hrole hrun hr
        exact refusal_leaves hsettled hexec
    refine ⟨fun hbad => refuses (serveRackLoad_of_badRange hbad), fun hslot hlow hhigh => ?_⟩
    have hrange : ¬(63 < slot.toNat ∨ rod.toNat < 1 ∨ 4095 < rod.toNat) := by
      simp only [not_or, not_lt]
      exact ⟨hslot, hlow, hhigh⟩
    refine ⟨fun hnone => refuses (serveRackLoad_of_missing hrange hnone), ?_⟩
    intro d hfound barred
    have tests := serveRackLoad_of_found (rq := rq) (s := s.taken) hrange hfound
    have hbarred := rackLoad_barred_iff s.taken d slot.toNat
    refine ⟨fun hb => refuses (tests.trans (if_pos (hbarred.2 hb))), fun hfree => ?_⟩
    have hserved := tests.trans (if_neg (hfree ∘ hbarred.1))
    have hexec := exec_rackLoad_of_run hserves hrole hrun hserved
    have hsettles := rodChange_settles hexec
    exact hsettles
  · intro hserves found refused
    have refuses : ∀ {code}, serveRackUnload (requestOf rq 9 [slot]) s.taken = s.taken.refuse code →
        refused code :=
      fun hr => by
        have hexec := exec_rackUnload_of_run hserves hrole hrun hr
        exact refusal_leaves hsettled hexec
    refine ⟨fun hbad => refuses (serveRackUnload_of_badSlot hbad), fun hslot => ?_⟩
    refine ⟨fun hnone => refuses (serveRackUnload_of_empty hslot.not_gt hnone), fun d hfound => ?_⟩
    have tests := serveRackUnload_of_found (rq := rq) (s := s.taken) hslot.not_gt hfound
    rw [orRetired_eq] at tests
    have hbusy : (!s.taken.rackFree) = true ↔ busy := by
      rw [Bool.not_eq_true']; exact rackFree_eq_false_iff s.taken
    refine ⟨fun hb => refuses (tests.trans (if_pos (hbusy.2 hb))), fun hfree => ?_⟩
    have hserved := tests.trans (if_neg (hfree ∘ hbusy.1))
    have hexec := exec_rackUnload_of_run hserves hrole hrun hserved
    have hsettles := rodChange_settles hexec
    exact hsettles

end Sys2Proof

/-! What every command keeps (O2 to O10): the invariants of one channel, of the meters and of the lag queue, and what
each operation of the station does to them. `Tame s t` says that an operation that makes `t` of `s` moves parts of the
station only and keeps these invariants; operations compose by `Tame.trans`. -/

namespace Sys2Proof.Machine

/-! ## One pump channel (R54 to R60) -/

/-- A duty above 0 is staged in STARTING and RUNNING only. -/
def PumpChannel.Driven (c : PumpChannel) : Prop := 0 < c.staged → c.state = .starting ∨ c.state = .running

/-- The channel is neither STARTING nor RUNNING. -/
def PumpChannel.Resting (c : PumpChannel) : Prop := c.state ≠ .starting ∧ c.state ≠ .running

/-- A move of a channel that starts no pump and stages no duty at a resting one. -/
structure PumpChannel.Steady (c c' : PumpChannel) : Prop where
  driven : c.Driven → c'.Driven
  resting : c.Resting → c'.Resting

theorem PumpChannel.Steady.refl (c : PumpChannel) : c.Steady c := ⟨id, id⟩

theorem PumpChannel.Steady.trans {a b c : PumpChannel} (h : a.Steady b) (k : b.Steady c) : a.Steady c :=
  ⟨k.driven ∘ h.driven, k.resting ∘ h.resting⟩

theorem PumpChannel.Steady.of_eq {c c' : PumpChannel} (hstate : c'.state = c.state) (hstaged : c'.staged = c.staged) :
    c.Steady c' := by
  constructor
  · intro h; unfold PumpChannel.Driven at *; rwa [hstate, hstaged]
  · intro h; unfold PumpChannel.Resting at *; rwa [hstate]

/-- A channel left with no duty staged, in a state that no pump turns in. -/
theorem PumpChannel.Steady.of_rest {c c' : PumpChannel} (st : PumpState) (hstaged : c'.staged = 0)
    (hstate : c'.state = st) (hrest : st ≠ .starting ∧ st ≠ .running) : c.Steady c' :=
  ⟨fun _ h => absurd h (by simp [hstaged]), fun _ => by
    unfold PumpChannel.Resting; rwa [hstate]⟩

theorem steady_toStopped (c : PumpChannel) : c.Steady c.toStopped := .of_rest .stopped rfl rfl (by decide)

theorem steady_toStalled (c : PumpChannel) : c.Steady c.toStalled := .of_rest .stalled rfl rfl (by decide)

theorem steady_toStopping (c : PumpChannel) : c.Steady c.toStopping := by
  unfold PumpChannel.toStopping
  split
  · exact steady_toStopped c
  · exact .of_rest .stopping rfl rfl (by decide)

theorem claimed_resting (c : PumpChannel) : c.claimed.Resting := by
  unfold PumpChannel.claimed
  split <;> constructor <;> simp_all

theorem steady_claimed (c : PumpChannel) : c.Steady c.claimed := by
  refine ⟨fun h => ?_, fun _ => claimed_resting c⟩
  unfold PumpChannel.claimed
  split <;> first | exact h | exact fun hd => absurd hd (lt_irrefl 0)

/-- A HELD channel that resumes drives its start duty in STARTING. -/
theorem freed_driven (duty : Nat) {c : PumpChannel} (h : c.Driven) : (c.freed duty).Driven := by
  unfold PumpChannel.freed
  split
  · split
    · exact fun _ => .inl rfl
    · exact (steady_toStopping c).driven h
  · exact h

theorem steady_jobClosed (c : PumpChannel) : c.Steady c.jobClosed := by
  have ht : c.Steady { c with target := 0 } := .of_eq rfl rfl
  unfold PumpChannel.jobClosed
  dsimp only
  split
  · exact ht.trans (steady_toStopping _)
  · exact ht.trans (steady_toStopping _)
  · exact ht.trans (steady_toStopped _)
  all_goals exact ht

theorem steady_silenced (c : PumpChannel) : c.Steady c.silenced := .of_rest .stopped rfl rfl (by decide)

theorem steady_strokesEnd (c : PumpChannel) : c.Steady c.strokesEnd := by
  have ht : c.Steady { c with strokeStopped := true, spm := 0, stoppedTimer := none } := .of_eq rfl rfl
  unfold PumpChannel.strokesEnd
  dsimp only
  split
  · exact ht.trans (steady_toStalled _)
  · exact ht.trans (steady_toStopped _)
  all_goals exact ht

theorem steady_undriven (c : PumpChannel) : c.Steady c.undriven := ⟨fun _ h => absurd h (lt_irrefl 0), id⟩

theorem steady_startExpired (c : PumpChannel) : c.Steady c.startExpired := by
  unfold PumpChannel.startExpired
  split
  · split
    · exact steady_toStalled c
    · exact .refl c
  · exact .refl c

theorem steady_pressureTest (press : Threshold) (c : PumpChannel) : c.Steady (c.pressureTest press) := .of_eq rfl rfl

/-- A capture moves the duty of a STARTING or RUNNING channel only. -/
theorem steady_captured (press : Threshold) (limit : Nat) (c : PumpChannel) : c.Steady (c.captured press limit) := by
  unfold PumpChannel.captured
  dsimp only
  refine PumpChannel.Steady.trans ?_ (steady_pressureTest press _)
  split
  · rename_i h
    exact ⟨fun _ _ => .inr rfl, fun hr => absurd h hr.1⟩
  · rename_i h
    exact ⟨fun _ _ => .inr h, fun hr => absurd h hr.2⟩
  · exact .of_eq rfl rfl

theorem steady_edge (press : Threshold) (limit now : Nat) (c : PumpChannel) : c.Steady (c.edge press limit now) := by
  unfold PumpChannel.edge
  dsimp only
  split
  · refine PumpChannel.Steady.trans ?_ (steady_captured press limit _)
    exact .of_eq rfl rfl
  · exact .of_eq rfl rfl

/-- An accepted rate of 0 starts nothing, and one above 0 drives a channel in STARTING (R54). -/
theorem setRate_driven (duty rate : Nat) {c : PumpChannel} (h : c.Driven) : (c.setRate duty rate).Driven := by
  have ht : ({ c with target := rate } : PumpChannel).Driven := h
  unfold PumpChannel.setRate
  dsimp only
  split <;> split
  all_goals first
    | exact ht
    | exact fun _ => .inl rfl
    | exact (steady_toStopping _).driven ht
    | exact (steady_toStopped _).driven ht

theorem setRate_zero_resting (duty : Nat) {c : PumpChannel} (h : c.Resting) : (c.setRate duty 0).Resting := by
  have ht : ({ c with target := 0 } : PumpChannel).Resting := h
  unfold PumpChannel.setRate
  dsimp only
  rw [if_neg (lt_irrefl 0)]
  split
  all_goals first
    | exact ht
    | exact (steady_toStopping _).resting ht
    | exact (steady_toStopped _).resting ht

end Sys2Proof.Machine

namespace Sys2Proof.Machine

/-! ## The lag queue (R134) and the annular volume (R71) -/

theorem overlap_mono (s : State) {d d' : Nat} (h : d ≤ d') (i : Nat) : s.overlap d i ≤ s.overlap d' i := by
  unfold State.overlap
  dsimp only
  split <;> omega

/-- The deeper the depth, the greater the volume above it. -/
theorem annVol_mono (s : State) {d d' : Nat} (h : d ≤ d') : s.annVol d ≤ s.annVol d' := by
  unfold State.annVol State.sectionVolume
  refine Nat.div_le_div_right (List.sum_le_sum fun k _ => ?_)
  exact Nat.mul_le_mul_left _ (overlap_mono s h _)

/-- The index of the open interval, which is the last record while it is not closed (R128). -/
def Retained.openIndex (r : Retained) : Option Nat :=
  r.intervals.getLast?.bind fun iv => if iv.closedTime.isNone then some iv.index else none

theorem openIndex_eq (s : State) : s.ret.openIndex = s.openInterval.map (·.index) := by
  unfold Retained.openIndex State.openInterval
  cases s.ret.intervals.getLast? with
  | none => rfl
  | some iv => simp only [Option.bind_some]; split <;> rfl

/-- The lag queue of a retained state has its room and its order, and the string list its room; `State.LagInOrder`
reads no more of the station than this. -/
structure Retained.Lagged (r : Retained) : Prop where
  room : r.lag.length ≤ 32
  order : r.lag.Pairwise fun a b => a.mark ≤ b.mark
  marks : ∀ t ∈ r.lag, t.mark ≤ min top48 (r.pumped + ({ State.reset with ret := r } : State).annVol t.depth)
  depths : ∀ t ∈ r.lag, ∀ i, r.openIndex = some i → t.depth ≤ i * itemGet r.items Item.intervalLength 0
  pumped : r.pumped ≤ top48
  string : r.string.length ≤ 128

theorem lagInOrder_iff (s : State) : s.LagInOrder ↔ s.ret.Lagged := by
  constructor
  · intro h
    refine ⟨h.room, h.order, h.marks, fun t ht i hi => ?_, h.pumped, h.string⟩
    rw [openIndex_eq, Option.map_eq_some_iff] at hi
    obtain ⟨iv, hiv, rfl⟩ := hi
    exact h.depths t ht iv hiv
  · intro h
    refine ⟨h.room, h.order, h.marks, fun t ht iv hiv => ?_, h.pumped, h.string⟩
    exact h.depths t ht iv.index (by rw [openIndex_eq, hiv]; rfl)

/-- The annular volume reads three items of the configuration (R71). -/
theorem annVol_congr {s t : State}
    (h : ∀ c i, c = Item.sectionCount ∨ c = Item.sectionBottom ∨ c = Item.annularCapacity → t.cfg c i = s.cfg c i)
    (d : Nat) : t.annVol d = s.annVol d := by
  have hc := h Item.sectionCount 0 (.inl rfl)
  have hb := fun i => h Item.sectionBottom i (.inr (.inl rfl))
  have ha := fun i => h Item.annularCapacity i (.inr (.inr rfl))
  simp only [State.annVol, State.sectionVolume, State.overlap, State.sectionTop, hc, hb, ha]

/-- A retained state changed in fields that neither the meters nor the lag queue read, with the own claim as it was. -/
structure Retained.Calm (r r' : Retained) : Prop where
  claim : r'.claim = r.claim
  recorded : r'.recorded = r.recorded
  meters : r'.meters = r.meters
  jobTime : r'.jobTime = r.jobTime
  items : r'.items = r.items
  pumped : r'.pumped = r.pumped
  lag : r'.lag = r.lag
  openIndex : r'.openIndex = r.openIndex
  string : r.string.length ≤ 128 → r'.string.length ≤ 128

/-- The fields a calm change leaves, in one value; the interval list whole. -/
def Retained.watched (r : Retained) :=
  (r.claim, r.recorded, r.meters, r.jobTime, r.items, r.pumped, r.lag, r.intervals, r.string)

/-- A change of fields none of which is read. -/
theorem Retained.Calm.of_eq {r r' : Retained} (h : r'.watched = r.watched) : r.Calm r' := by
  simp only [Retained.watched, Prod.mk.injEq] at h
  obtain ⟨claim, recorded, meters, jobTime, items, pumped, lag, intervals, string⟩ := h
  exact ⟨claim, recorded, meters, jobTime, items, pumped, lag, by unfold Retained.openIndex; rw [intervals],
    fun h => string ▸ h⟩

theorem Retained.Calm.refl (r : Retained) : r.Calm r := .of_eq rfl

theorem Retained.Calm.trans {a b c : Retained} (h : a.Calm b) (k : b.Calm c) : a.Calm c :=
  ⟨k.claim.trans h.claim, k.recorded.trans h.recorded, k.meters.trans h.meters, k.jobTime.trans h.jobTime,
   k.items.trans h.items, k.pumped.trans h.pumped, k.lag.trans h.lag, k.openIndex.trans h.openIndex,
   k.string ∘ h.string⟩

theorem Retained.Calm.metered {r r' : Retained} (h : r.Calm r') (hr : r.Metered) : r'.Metered := by
  unfold Retained.Metered at *
  rwa [h.meters, h.recorded, h.jobTime]

/-- The lag queue keeps its order where tags leave it, V rises and no configuration that places tags changes. -/
theorem Retained.Lagged.of_sublist {r r' : Retained} (h : r.Lagged) (hlag : r'.lag.Sublist r.lag)
    (hpumped : r.pumped ≤ r'.pumped) (htop : r'.pumped ≤ top48)
    (hitems : ∀ c i, c = Item.sectionCount ∨ c = Item.sectionBottom ∨ c = Item.annularCapacity ∨ c = Item.intervalLength →
      itemGet r'.items c i = itemGet r.items c i)
    (hopen : r'.openIndex = r.openIndex) (hstring : r'.string.length ≤ 128) : r'.Lagged := by
  refine ⟨hlag.length_le.trans h.room, h.order.sublist hlag, fun t ht => ?_, fun t ht i hi => ?_, htop, hstring⟩
  · have hvol : ({ State.reset with ret := r' } : State).annVol t.depth =
        ({ State.reset with ret := r } : State).annVol t.depth :=
      annVol_congr (s := { State.reset with ret := r }) (t := { State.reset with ret := r' })
        (fun c i hc => hitems c i (by tauto)) t.depth
    rw [hvol]
    exact (h.marks t (hlag.subset ht)).trans (by omega)
  · rw [hitems _ _ (by simp)]
    exact h.depths t (hlag.subset ht) i (hopen ▸ hi)

theorem Retained.Calm.lagged {r r' : Retained} (h : r.Calm r') (hr : r.Lagged) : r'.Lagged :=
  hr.of_sublist (by rw [h.lag]) h.pumped.ge (h.pumped ▸ hr.pumped) (fun c i _ => by rw [h.items]) h.openIndex
    (h.string hr.string)

/-! ## What an operation of the station keeps -/

/-- The station meters the job it was locked for (R27, R148). -/
structure State.Charged (s : State) : Prop where
  metered : s.ret.Metered
  straps : s.mode = .run → s.ret.recorded = some ⟨s.straps.number, s.roles, s.isPit⟩

/-- The lag queue and the string list are in order, and in CONFIG the queue is empty (R85, R145). -/
structure State.Tagged (s : State) : Prop where
  lagged : s.ret.Lagged
  config : s.mode = .config → s.ret.lag = []

/-- An operation of a station that runs: it moves parts of the station only, and keeps the pumps yielding, the meters
summed and the lag queue in order. -/
structure Tame (s t : State) : Prop where
  moves : Moves allParts s t
  yields : s.powered = true → s.PumpsYield → t.PumpsYield
  charged : s.Charged → t.Charged
  tagged : s.powered = true → s.Tagged → t.Tagged

theorem Moves.powered {p : List Part} {s t : State} (h : Moves p s t) : t.powered = s.powered := by
  unfold State.powered; rw [h.other.mode]

theorem Moves.inRun {p : List Part} {s t : State} (h : Moves p s t) : t.inRun = s.inRun := by
  unfold State.inRun; rw [h.other.mode]

theorem Tame.refl (s : State) : Tame s s := ⟨.refl _ s, fun _ h => h, fun h => h, fun _ h => h⟩

theorem Tame.trans {s t u : State} (h : Tame s t) (k : Tame t u) : Tame s u where
  moves := h.moves.next k.moves (List.Subset.refl _)
  yields hp hs := k.yields (h.moves.powered.trans hp) (h.yields hp hs)
  charged hs := k.charged (h.charged hs)
  tagged hp hs := k.tagged (h.moves.powered.trans hp) (h.tagged hp hs)

/-- The last of several operations, taken off first. -/
theorem Tame.last {s t u : State} (k : Tame t u) (h : Tame s t) : Tame s u := h.trans k

theorem Tame.ite {s t u : State} {c : Prop} [Decidable c] (h : c → Tame s t) (k : ¬c → Tame s u) :
    Tame s (if c then t else u) := by
  split
  · exact h ‹_›
  · exact k ‹_›

theorem Tame.foldl {α : Type} (f : State → α → State) (h : ∀ s a, Tame s (f s a)) (l : List α) (s : State) :
    Tame s (l.foldl f s) := by
  induction l generalizing s with
  | nil => exact .refl s
  | cons a l ih => exact (h s a).trans (ih _)

/-! ## Where no pump starts and the claim view stays -/

theorem viewHolds_congr {s t : State} (hclaim : t.ret.claim = s.ret.claim) (hpeers : t.peers = s.peers)
    (hstraps : t.straps = s.straps) : t.viewHolds = s.viewHolds := by
  simp only [State.viewHolds, State.claimView, State.otherClaims, hclaim, hpeers, hstraps]

theorem State.PumpsYield.of_steady {s t : State} (h : s.PumpsYield) (hmode : t.mode = s.mode)
    (hview : t.viewHolds = true → s.viewHolds = true) (hchan : ∀ p, (s.chan p).Steady (t.chan p)) : t.PumpsYield where
  driven p := (hchan p).driven (h.driven p)
  yields hc p := (hchan p).resting (h.yields (hc.imp hview (hmode.symm.trans ·)) p)

theorem State.Charged.of_calm {p : List Part} {s t : State} (h : Moves p s t) (hr : s.ret.Calm t.ret) (hs : s.Charged) :
    t.Charged := by
  refine ⟨hr.metered hs.metered, fun hm => ?_⟩
  rw [hr.recorded, hs.straps (h.other.mode ▸ hm)]
  simp only [State.roles, State.isPit, h.other.straps]

theorem State.Tagged.of_calm {p : List Part} {s t : State} (h : Moves p s t) (hr : s.ret.Calm t.ret) (hs : s.Tagged) :
    t.Tagged := ⟨hr.lagged hs.lagged, fun hm => hr.lag ▸ hs.config (h.other.mode ▸ hm)⟩

/-- An operation that moves the channels steadily, leaves the claim view and changes the retained state calmly. -/
theorem Tame.of_moves {p : List Part} {s t : State} (h : Moves p s t) (hr : s.ret.Calm t.ret)
    (hview : t.viewHolds = s.viewHolds) (hchan : ∀ p, (s.chan p).Steady (t.chan p)) : Tame s t where
  moves := h.all
  yields _ hs := hs.of_steady h.other.mode (fun k => hview ▸ k) hchan
  charged hs := hs.of_calm h hr
  tagged _ hs := hs.of_calm h hr

theorem Moves.chan_steady {p : List Part} {s t : State} (h : Moves p s t) (hp : Part.pumps ∉ p) (i : PumpId) :
    (s.chan i).Steady (t.chan i) := by
  unfold State.chan
  rw [h.other.pumps hp]
  exact .refl _

/-- An operation that leaves retained state, peer table and pumps. -/
theorem Moves.tame {p : List Part} {s t : State} (h : Moves p s t)
    (hp : Part.ret ∉ p ∧ Part.peers ∉ p ∧ Part.pumps ∉ p) : Tame s t :=
  have hr := h.other.ret hp.1
  .of_moves h (hr ▸ .refl _) (viewHolds_congr (congrArg _ hr) (h.other.peers hp.2.1) h.other.straps)
    (h.chan_steady hp.2.2)

/-- An operation that leaves peer table and pumps and changes the retained state calmly. -/
theorem Moves.tameRet {p : List Part} {s t : State} (h : Moves p s t) (hp : Part.peers ∉ p ∧ Part.pumps ∉ p)
    (hr : s.ret.Calm t.ret) : Tame s t :=
  .of_moves h hr (viewHolds_congr hr.claim (h.other.peers hp.1) h.other.straps) (h.chan_steady hp.2)

/-- An operation that leaves retained state and peer table and moves the channels steadily. -/
theorem Moves.tamePumps {p : List Part} {s t : State} (h : Moves p s t) (hp : Part.ret ∉ p ∧ Part.peers ∉ p)
    (hchan : ∀ i, (s.chan i).Steady (t.chan i)) : Tame s t :=
  have hr := h.other.ret hp.1
  .of_moves h (hr ▸ .refl _) (viewHolds_congr (congrArg _ hr) (h.other.peers hp.2) h.other.straps) hchan

/-- Retained state set to one that differs calmly. -/
theorem tame_setRet (s : State) (v : Retained) (ho : s.ret.Onward v) (hv : s.ret.Calm v) : Tame s { s with ret := v } :=
  (moves_ret s v ho).tameRet (by decide) hv

end Sys2Proof.Machine

namespace Sys2Proof.Machine

/-! ## Pumps, billing, strata -/

theorem steady_setChan {s : State} {p : PumpId} {c : PumpChannel} (h : (s.chan p).Steady c) (i : PumpId) :
    (s.chan i).Steady ((s.setChan p c).chan i) := by
  cases p <;> cases i
  · exact h
  · exact .refl _
  · exact .refl _
  · exact h

theorem tame_setChan {s : State} {p : PumpId} {c : PumpChannel} (h : (s.chan p).Steady c) : Tame s (s.setChan p c) :=
  (moves_setChan s p c).tamePumps (by decide) (steady_setChan h)

theorem tame_mapPumps {s : State} {f : PumpId → PumpChannel → PumpChannel} (h : ∀ p (c : PumpChannel), c.Steady (f p c)) :
    Tame s (s.mapPumps f) :=
  (moves_mapPumps s f).tamePumps (by decide) fun i => by cases i <;> exact h _ _

theorem tame_hand (s : State) (q : QueueId) (f : TxFrame) : Tame s (s.hand q f) := (moves_hand s q f).tame (by decide)

theorem tame_broadcast (s : State) (k : FrameKind) (p : Option PumpId) (b : List Byte) : Tame s (s.broadcast k p b) :=
  (moves_broadcast s k p b).tame (by decide)

theorem tame_answer (s : State) (q : QueueId) (r : Request) (c : ResultCode) (d : List Byte) :
    Tame s (s.answer q r c d) := (moves_answer s q r c d).tame (by decide)

theorem tame_handStrokes (s : State) (p : PumpId) : Tame s (s.handStrokes p) := by
  refine Tame.last (tame_setChan ?_) (tame_broadcast s _ _ _)
  exact .of_eq rfl rfl

theorem tame_callStrokes (s : State) (p : PumpId) : Tame s (s.callStrokes p) :=
  .ite (fun _ => tame_setChan (.of_eq rfl rfl)) fun _ => tame_handStrokes s p

theorem tame_periodStrokes (s : State) (p : PumpId) : Tame s (s.periodStrokes p) :=
  .ite (fun _ => tame_handStrokes s p) fun _ => .refl s

theorem tame_checkCeiling (s : State) : Tame s s.checkCeiling := (moves_checkCeiling s).tameRet (by decide) (.of_eq rfl)

theorem tame_appendZone (s : State) (z : ZoneEntry) : Tame s (s.appendZone z) :=
  .ite (fun _ => tame_setRet s _ (.of_eq rfl rfl rfl rfl) (.of_eq rfl)) fun _ =>
    tame_setRet s _ (.of_eq rfl rfl rfl rfl) (.of_eq rfl)

theorem tame_appendMark (s : State) (k : MarkKind) (c : Nat) : Tame s (s.appendMark k c) := tame_appendZone s _

theorem tame_mapZones (s : State) (f : ZoneEntry → ZoneEntry) : Tame s (s.mapZones f) :=
  tame_setRet s _ (.of_eq rfl rfl rfl rfl) (.of_eq rfl)

theorem tame_closeZones (s : State) (k : Option ZoneKind) : Tame s (s.closeZones k) := tame_mapZones s _

theorem tame_zonesFollow (s : State) : Tame s s.zonesFollow := by
  unfold State.zonesFollow
  dsimp only
  split
  · exact .ite (fun _ => tame_closeZones s _) fun _ => (tame_appendZone _ _).last (tame_closeZones s _)
  · exact tame_closeZones s _

/-- A change of interval records that keeps their indices and whether they are closed. -/
def KeepsOpen (f : Interval → Interval) : Prop := ∀ iv, (f iv).index = iv.index ∧ (f iv).closedTime = iv.closedTime

theorem openIndex_map {r r' : Retained} {f : Interval → Interval} (h : r'.intervals = r.intervals.map f)
    (hf : KeepsOpen f) : r'.openIndex = r.openIndex := by
  unfold Retained.openIndex
  rw [h, List.getLast?_map]
  cases r.intervals.getLast? with
  | none => rfl
  | some iv => simp [(hf iv).1, (hf iv).2]

theorem mapInterval_calm (s : State) (i : Nat) {f : Interval → Interval} (hf : KeepsOpen f) :
    s.ret.Calm (s.mapInterval i f).ret :=
  ⟨rfl, rfl, rfl, rfl, rfl, rfl, rfl, openIndex_map rfl fun iv => by
    split
    · exact hf iv
    · exact ⟨rfl, rfl⟩, id⟩

theorem tame_mapInterval (s : State) (i : Nat) {f : Interval → Interval} (hf : KeepsOpen f) :
    Tame s (s.mapInterval i f) := (moves_mapInterval s i f).tameRet (by decide) (mapInterval_calm s i hf)

theorem tame_mapOpen (s : State) {f : Interval → Interval} (hf : KeepsOpen f) : Tame s (s.mapOpen f) := by
  unfold State.mapOpen
  split
  · exact tame_mapInterval s _ hf
  · exact .refl s

/-! ## Intervals closed by a rise of H (R131 to R134) -/

/-- The lag queue is in order and none of its tags lies below depth `d`. -/
structure Retained.Shallow (r : Retained) (d : Nat) : Prop where
  room : r.lag.length ≤ 32
  order : r.lag.Pairwise fun a b => a.mark ≤ b.mark
  marks : ∀ t ∈ r.lag, t.mark ≤ min top48 (r.pumped + ({ State.reset with ret := r } : State).annVol t.depth)
  depths : ∀ t ∈ r.lag, t.depth ≤ d
  pumped : r.pumped ≤ top48
  string : r.string.length ≤ 128

theorem Retained.Shallow.lagged {r : Retained} {d : Nat} (h : r.Shallow d)
    (hi : ∀ i, r.openIndex = some i → d ≤ i * itemGet r.items Item.intervalLength 0) : r.Lagged :=
  ⟨h.room, h.order, h.marks, fun t ht i k => (h.depths t ht).trans (hi i k), h.pumped, h.string⟩

/-- What the closing of intervals leaves of the retained state. -/
structure ClosesOnly (s t : State) : Prop where
  claim : t.ret.claim = s.ret.claim
  recorded : t.ret.recorded = s.ret.recorded
  meters : t.ret.meters = s.ret.meters
  jobTime : t.ret.jobTime = s.ret.jobTime
  items : t.ret.items = s.ret.items
  hole : t.ret.hole = s.ret.hole

theorem ClosesOnly.refl (s : State) : ClosesOnly s s := ⟨rfl, rfl, rfl, rfl, rfl, rfl⟩

theorem ClosesOnly.trans {s t u : State} (h : ClosesOnly s t) (k : ClosesOnly t u) : ClosesOnly s u :=
  ⟨k.claim.trans h.claim, k.recorded.trans h.recorded, k.meters.trans h.meters, k.jobTime.trans h.jobTime,
   k.items.trans h.items, k.hole.trans h.hole⟩

theorem closeOne_ret (s : State) (iv : Interval) : (s.closeOne iv).ret = (s.closeRecord iv).ret :=
  (moves_report _ _ _).other.ret (by decide)

theorem closeOne_closesOnly (s : State) (iv : Interval) : ClosesOnly s (s.closeOne iv) := by
  have h := closeOne_ret s iv
  constructor <;> rw [h] <;> rfl

theorem rates_closedTime (l : Nat) (iv : Interval) : (iv.rates l).closedTime = iv.closedTime := by
  unfold Interval.rates; split <;> rfl

/-- A closed interval's tag takes its place behind the shallower ones. -/
theorem closeOne_shallow {s : State} {iv : Interval} {i : Nat} (hiv : iv.index = i)
    (h : s.ret.Shallow (i * itemGet s.ret.items Item.intervalLength 0)) :
    (s.closeOne iv).ret.Shallow ((i + 1) * itemGet s.ret.items Item.intervalLength 0) := by
  rw [closeOne_ret]
  have deeper : i * itemGet s.ret.items Item.intervalLength 0 ≤ (i + 1) * itemGet s.ret.items Item.intervalLength 0 :=
    Nat.mul_le_mul_right _ (Nat.le_succ i)
  by_cases hroom : s.ret.lag.length < Config.lagRoom
  · have hlag : (s.closeRecord iv).ret.lag = s.ret.lag ++
        [⟨iv.index, s.volumeMark ((iv.index + 1) * s.cfg Item.intervalLength 0),
          (iv.index + 1) * s.cfg Item.intervalLength 0, s.ret.jobTime⟩] := by
      simp [State.closeRecord, hroom]
    have hmark : ∀ t ∈ s.ret.lag, t.mark ≤ s.volumeMark ((iv.index + 1) * s.cfg Item.intervalLength 0) := fun t ht => by
      have hvol := annVol_mono s (((h.depths t ht).trans deeper).trans (by rw [hiv]; exact le_rfl) :
        t.depth ≤ (iv.index + 1) * s.cfg Item.intervalLength 0)
      refine (h.marks t ht).trans ?_
      show min top48 (s.ret.pumped + s.annVol t.depth) ≤ min top48 _
      omega
    refine ⟨?_, ?_, ?_, ?_, h.pumped, h.string⟩
    · rw [hlag, List.length_append]; exact hroom
    · rw [hlag, List.pairwise_append]
      refine ⟨h.order, List.pairwise_singleton _ _, fun a ha b hb => ?_⟩
      rw [List.mem_singleton.1 hb]
      exact hmark a ha
    · intro t ht
      rw [hlag, List.mem_append, List.mem_singleton] at ht
      obtain ht | rfl := ht
      · exact h.marks t ht
      · exact le_rfl
    · intro t ht
      rw [hlag, List.mem_append, List.mem_singleton] at ht
      obtain ht | rfl := ht
      · exact (h.depths t ht).trans deeper
      · rw [hiv]; exact le_rfl
  · have hlag : (s.closeRecord iv).ret.lag = s.ret.lag := by simp [State.closeRecord, hroom]
    exact ⟨hlag ▸ h.room, hlag ▸ h.order, by rw [hlag]; exact h.marks,
      fun t ht => (h.depths t (hlag ▸ ht)).trans deeper, h.pumped, h.string⟩

/-- The record a rise of H makes of interval `k`, with `n` intervals to close below it: the deepest takes the counts of the
open interval, and the others are COARSE with none (R131). -/
def Interval.passed (op : Interval) (n k time : Nat) : Interval :=
  if n = 0 then { op with index := k, closedTime := some time }
  else
    { op with
        index := k
        closedTime := some time
        seconds := 0
        turns := 0
        loss := 0
        gain := 0
        flags := { op.flags with coarse := true } }

theorem closeRun_succ (op : Interval) (n k : Nat) (s : State) :
    s.closeRun op (n + 1) k = (s.closeOne (op.passed n k s.ret.jobTime)).closeRun op n (k + 1) := rfl

theorem passed_index (op : Interval) (n k time : Nat) : (op.passed n k time).index = k := by
  unfold Interval.passed; split <;> rfl

theorem passed_closedTime (op : Interval) (n k time : Nat) : (op.passed n k time).closedTime = some time := by
  unfold Interval.passed; split <;> rfl

theorem closeRun_closesOnly (op : Interval) (n k : Nat) (s : State) : ClosesOnly s (s.closeRun op n k) := by
  induction n generalizing s k with
  | zero => exact .refl s
  | succ n ih => exact (closeOne_closesOnly s _).trans (ih _ _)

/-- A run of closings from interval `k` on leaves no tag below its last bottom. -/
theorem closeRun_shallow (op : Interval) (n k : Nat) (s : State)
    (h : s.ret.Shallow (k * itemGet s.ret.items Item.intervalLength 0)) :
    (s.closeRun op n k).ret.Shallow ((k + n) * itemGet s.ret.items Item.intervalLength 0) := by
  induction n generalizing s k with
  | zero => exact h
  | succ n ih =>
    rw [closeRun_succ]
    have hone := closeOne_shallow (passed_index op n k s.ret.jobTime) h
    have hitems := (closeOne_closesOnly s (op.passed n k s.ret.jobTime)).items
    have hrun := ih (k + 1) _ (hitems.symm ▸ hone)
    rw [hitems] at hrun
    rwa [Nat.add_right_comm] at hrun

/-- After a run the last record is a closed one. -/
theorem closeRun_openIndex (op : Interval) (n k : Nat) (s : State) : (s.closeRun op (n + 1) k).ret.openIndex = none := by
  have hone : ∀ (s : State) (iv : Interval), iv.closedTime.isSome = true → (s.closeOne iv).ret.openIndex = none :=
    fun s iv h => by
      obtain ⟨t, ht⟩ := Option.isSome_iff_exists.1 h
      rw [closeOne_ret]
      simp [Retained.openIndex, State.closeRecord, rates_closedTime, ht]
  induction n generalizing s k with
  | zero =>
    rw [closeRun_succ]
    exact hone s _ (by rw [passed_closedTime]; rfl)
  | succ n ih => exact ih (k + 1) _

/-- The station with the open record taken off the log. -/
def State.dropOpen (s : State) : State := { s with ret := { s.ret with intervals := s.ret.intervals.dropLast } }

/-- The station with a new open record at the end of the log, for the interval H lies in (R133). -/
def State.openNext (s : State) : State :=
  { s with ret := { s.ret with
      intervals := s.ret.intervals ++ [s.newInterval (s.ret.hole / s.cfg Item.intervalLength 0)] } }

/-- The index up to which H has reached the bottoms of intervals above the depth limit (R131). -/
def State.reached (s : State) : Nat :=
  min (s.ret.hole / s.cfg Item.intervalLength 0) (s.cfg Item.depthLimit 0 / s.cfg Item.intervalLength 0)

theorem holeRose_of_short {s : State} (h : ∀ op, s.openInterval = some op → s.reached ≤ op.index) : s.holeRose = s := by
  unfold State.holeRose
  dsimp only
  split
  · rfl
  · rename_i op hop
    exact if_neg (h op hop).not_gt

theorem newInterval_congr {s t : State} (hbal : t.ret.balState = s.ret.balState) (hdepth : t.depth = s.depth) (i : Nat) :
    t.newInterval i = s.newInterval i := by
  simp only [State.newInterval, hbal, hdepth]

/-- A rise that reaches the open interval's bottom closes the intervals reached and, below the depth limit, opens the
next (R131, R133). -/
theorem holeRose_of_reached {s : State} {op : Interval} (hop : s.openInterval = some op) (h : op.index < s.reached) :
    s.holeRose =
      if s.ret.hole < s.cfg Item.depthLimit 0 then
        (s.dropOpen.closeRun op (s.reached - op.index) op.index).openNext
      else s.dropOpen.closeRun op (s.reached - op.index) op.index := by
  have honly := closeRun_closesOnly op (s.reached - op.index) op.index s.dropOpen
  have hcfg : (s.dropOpen.closeRun op (s.reached - op.index) op.index).cfg Item.intervalLength 0 =
      s.cfg Item.intervalLength 0 := by simp only [State.cfg, honly.items]; rfl
  have hhole : (s.dropOpen.closeRun op (s.reached - op.index) op.index).ret.hole = s.ret.hole := honly.hole
  have hunfold : s.holeRose =
      if op.index < s.reached then
        (if (s.dropOpen.closeRun op (s.reached - op.index) op.index).ret.hole < s.cfg Item.depthLimit 0 then
          { s.dropOpen.closeRun op (s.reached - op.index) op.index with
            ret := { (s.dropOpen.closeRun op (s.reached - op.index) op.index).ret with
              intervals := (s.dropOpen.closeRun op (s.reached - op.index) op.index).ret.intervals ++
                [(s.dropOpen.closeRun op (s.reached - op.index) op.index).newInterval
                  ((s.dropOpen.closeRun op (s.reached - op.index) op.index).ret.hole / s.cfg Item.intervalLength 0)] } }
        else s.dropOpen.closeRun op (s.reached - op.index) op.index)
      else s := by
    unfold State.holeRose
    rw [hop]
    rfl
  rw [hunfold, if_pos h, hhole]
  unfold State.openNext
  rw [hhole, hcfg]

theorem holeRose_closesOnly (s : State) : ClosesOnly s s.holeRose := by
  by_cases hreach : ∃ op, s.openInterval = some op ∧ op.index < s.reached
  · obtain ⟨op, hop, hlt⟩ := hreach
    have honly := closeRun_closesOnly op (s.reached - op.index) op.index s.dropOpen
    rw [holeRose_of_reached hop hlt]
    split <;> exact ⟨honly.claim, honly.recorded, honly.meters, honly.jobTime, honly.items, honly.hole⟩
  · rw [holeRose_of_short fun op hop => not_lt.1 fun hlt => hreach ⟨op, hop, hlt⟩]
    exact .refl s

/-- A rise of H closes intervals from the open one on and opens one that lies no higher than any tag (R131, R133). -/
theorem holeRose_lagged {s : State} (h : s.ret.Lagged) : s.holeRose.ret.Lagged := by
  by_cases hreach : ∃ op, s.openInterval = some op ∧ op.index < s.reached
  swap
  · rwa [holeRose_of_short fun op hop => not_lt.1 fun hlt => hreach ⟨op, hop, hlt⟩]
  obtain ⟨op, hop, hlt⟩ := hreach
  obtain ⟨n, hn⟩ : ∃ n, s.reached - op.index = n + 1 := ⟨_, (Nat.succ_pred (by omega)).symm⟩
  have hopen : s.ret.openIndex = some op.index := by rw [openIndex_eq, hop]; rfl
  have hdrop : s.dropOpen.ret.Shallow (op.index * itemGet s.dropOpen.ret.items Item.intervalLength 0) :=
    ⟨h.room, h.order, h.marks, fun t ht => h.depths t ht _ hopen, h.pumped, h.string⟩
  have hrun := closeRun_shallow op (n + 1) op.index s.dropOpen hdrop
  have honly := closeRun_closesOnly op (n + 1) op.index s.dropOpen
  have hnone := closeRun_openIndex op n op.index s.dropOpen
  rw [holeRose_of_reached hop hlt, hn]
  generalize s.dropOpen.closeRun op (n + 1) op.index = t at hrun honly hnone
  have hitems : t.ret.items = s.ret.items := honly.items
  have hhole : t.ret.hole = s.ret.hole := honly.hole
  split
  · refine Retained.Shallow.lagged
      ⟨hrun.room, hrun.order, hrun.marks, hrun.depths, hrun.pumped, hrun.string⟩ fun i hi => ?_
    have hidx : t.ret.hole / t.cfg Item.intervalLength 0 = i := by
      simpa [Retained.openIndex, State.openNext, State.newInterval] using hi
    have hreached : s.reached ≤ i := by
      rw [← hidx, hhole]
      unfold State.cfg
      rw [hitems]
      exact Nat.min_le_left _ _
    have hnext : t.openNext.ret.items = s.ret.items := hitems
    rw [hnext]
    exact Nat.mul_le_mul_right _ (by omega)
  · exact hrun.lagged fun i hi => absurd (hnone.symm.trans hi) (by simp)

end Sys2Proof.Machine

namespace Sys2Proof.Machine

/-! ## The close of a job (R143, R159 to R161) -/

theorem tame_jobClosed (s : State) : Tame s s.jobClosed :=
  .of_moves (moves_jobClosed s) (.of_eq rfl) rfl fun i => by cases i <;> exact steady_jobClosed _

theorem tame_freeze (s : State) : Tame s s.freeze := (moves_freeze s).tameRet (by decide) (.of_eq rfl)

theorem tame_finishClose (s : State) (k : CloseKind) : Tame s (s.finishClose k) :=
  (tame_jobClosed _).last <| (tame_appendMark _ _ _).last <| (tame_freeze _).last (tame_checkCeiling s)

theorem tame_completionTest (s : State) : Tame s s.completionTest :=
  .ite (fun _ => tame_finishClose s _) fun _ => .refl s

theorem tame_sampleUp (s : State) (i : Nat) (b : Bool) : Tame s (s.sampleUp i b) :=
  tame_mapInterval s i fun _ => ⟨rfl, rfl⟩

/-- Tags leave the lag queue, oldest first, and nothing else that is read changes. -/
theorem tame_dropTags {s : State} {lag : List LagTag} (h : lag.Sublist s.ret.lag) :
    Tame s { s with ret := { s.ret with lag := lag } } where
  moves := (moves_ret s { s.ret with lag := lag } (.of_eq rfl rfl rfl rfl)).all
  yields _ hs := hs.of_steady rfl id fun _ => .refl _
  charged hs := ⟨hs.metered, hs.straps⟩
  tagged _ hs := ⟨hs.lagged.of_sublist h le_rfl hs.lagged.pumped (fun _ _ _ => rfl) rfl hs.lagged.string,
    fun hm => List.eq_nil_of_sublist_nil (hs.config hm ▸ h)⟩

theorem tame_loseTags (s : State) : Tame s s.loseTags :=
  (tame_dropTags (List.nil_sublist _)).last (Tame.foldl _ (fun s (t : LagTag) => tame_sampleUp s t.index true) _ s)

theorem tame_abruptClose (s : State) (k : CloseKind) : Tame s (s.abruptClose k) :=
  (tame_finishClose _ _).last <| (tame_closeZones _ _).last <| (tame_loseTags _).last <|
    tame_setRet s _ (.of_eq rfl rfl rfl rfl) (.of_eq rfl)

theorem tame_plainClose (s : State) (k : CloseKind) : Tame s (s.plainClose k) :=
  (tame_jobClosed _).last (tame_setRet s _ (.of_eq rfl rfl rfl rfl) (.of_eq rfl))

theorem tame_peerCloseTest (s : State) : Tame s s.peerCloseTest :=
  .ite (fun _ => tame_plainClose s _) fun _ => .refl s

/-! ## Credits and released tags (R65, R135) -/

/-- The tags of a list that leaves the front of the queue go one by one. -/
theorem tame_releaseDue (l : List LagTag) (s : State) (h : l.Sublist s.ret.lag) : Tame s (s.releaseDue l) := by
  induction l generalizing s with
  | nil => exact tame_dropTags h
  | cons t l ih =>
    unfold State.releaseDue
    refine .ite (fun _ => (tame_sampleUp s _ _).trans (ih _ ?_)) fun _ => tame_dropTags h
    exact (List.sublist_cons_self t l).trans h

theorem tame_tagRelease (s : State) : Tame s s.tagRelease :=
  .ite (fun _ => (tame_completionTest _).last (tame_releaseDue _ s (List.Sublist.refl _))) fun _ => .refl s

theorem le_satAdd {top a : Nat} (h : a ≤ top) (n : Nat) : a ≤ satAdd top a n := by unfold satAdd; omega

theorem satAdd_le (top a n : Nat) : satAdd top a n ≤ top := Nat.min_le_left _ _

/-- V rises, saturating at the top of its range. -/
theorem tame_pump (s : State) (n : Nat) :
    Tame s { s with ret := { s.ret with pumped := satAdd top48 s.ret.pumped n } } where
  moves :=
    have honward : min top48 s.ret.pumped ≤ satAdd top48 s.ret.pumped n := by unfold satAdd; omega
    (moves_ret s { s.ret with pumped := satAdd top48 s.ret.pumped n } ⟨le_rfl, honward, le_rfl, le_rfl⟩).all
  yields _ hs := hs.of_steady rfl id fun _ => .refl _
  charged hs := ⟨hs.metered, hs.straps⟩
  tagged _ hs := ⟨hs.lagged.of_sublist (List.Sublist.refl _) (le_satAdd hs.lagged.pumped n) (satAdd_le _ _ _)
    (fun _ _ _ => rfl) rfl hs.lagged.string, hs.config⟩

theorem tame_credit (s : State) (v : Nat) : Tame s (s.credit v) :=
  .ite (fun _ => .refl s) fun _ => (tame_tagRelease _).last (tame_pump s v)

theorem tame_strokeGap (s : State) : Tame s s.strokeGap :=
  .ite (fun _ => tame_mapOpen s fun _ => ⟨rfl, rfl⟩) fun _ => .refl s

/-! ## The heard balance record (R70) -/

theorem tame_setHeard (s : State) (n : Heard) : Tame s (s.setHeard n) := (moves_setHeard s n).tameRet (by decide) (.of_eq rfl)

theorem tame_strataHeard (s : State) (o : Heard) : Tame s (s.strataHeard o) := by
  unfold State.strataHeard
  dsimp only
  refine (tame_mapOpen _ (by exact fun _ => ⟨rfl, rfl⟩)).last <| (tame_mapZones _ _).last ?_
  exact .ite (fun _ => tame_mapOpen s fun _ => ⟨rfl, rfl⟩) fun _ =>
    (tame_zonesFollow _).last (tame_mapOpen s fun _ => ⟨rfl, rfl⟩)

theorem tame_heardUpdate (s : State) (n : Heard) : Tame s (s.heardUpdate n) := by
  unfold State.heardUpdate
  dsimp only
  refine .ite (fun _ => .refl s) fun _ => .ite (fun _ => ?_) fun _ => tame_setHeard s n
  exact (tame_completionTest _).last <| Tame.last (tame_setRet _ _ (.of_eq rfl rfl rfl rfl) (.of_eq rfl)) <|
    (tame_strataHeard _ _).last (tame_setHeard s n)

theorem tame_heardRefresh (s : State) : Tame s s.heardRefresh := .ite (fun _ => .refl s) fun _ => tame_heardUpdate s _

/-! ## Head, depth, wear -/

theorem tame_holeRose {s : State} (hrun : s.inRun = true) : Tame s s.holeRose := by
  have honly := holeRose_closesOnly s
  have hmoves := (moves_holeRose s).other
  have hview := viewHolds_congr honly.claim (hmoves.peers (by decide)) hmoves.straps
  refine ⟨(moves_holeRose s).all, fun _ hs => hs.of_steady hmoves.mode (fun k => hview ▸ k)
    ((moves_holeRose s).chan_steady (by decide)), fun hs => ⟨?_, fun hm => ?_⟩,
    fun _ hs => ⟨holeRose_lagged hs.lagged, fun hm => ?_⟩⟩
  · unfold Retained.Metered
    rw [honly.meters, honly.recorded, honly.jobTime]
    exact hs.metered
  · rw [honly.recorded, hs.straps (hmoves.mode ▸ hm)]
    simp only [State.roles, State.isPit, hmoves.straps]
  · simp [State.inRun, hmoves.mode.symm.trans hm] at hrun

theorem tame_takeDepth (s : State) (d : Option Nat) : Tame s (s.takeDepth d) := (moves_takeDepth s d).tameRet (by decide) (.of_eq rfl)

theorem inRun_of_strataOn {s : State} (h : s.strataOn = true) : s.inRun = true := by
  simp only [State.strataOn, Bool.and_eq_true] at h
  exact h.1.1

theorem tame_recomputeDepth (s : State) : Tame s s.recomputeDepth := by
  unfold State.recomputeDepth
  dsimp only
  refine .ite (fun _ => ?_) fun _ => .refl s
  have h := tame_takeDepth s s.depthNow
  have hrose : Tame s (if s.ret.hole < (s.takeDepth s.depthNow).ret.hole ∧ (s.takeDepth s.depthNow).strataOn = true then
      (s.takeDepth s.depthNow).holeRose else s.takeDepth s.depthNow) :=
    .ite (fun hc => (tame_holeRose (inRun_of_strataOn hc.2)).last h) fun _ => h
  exact .ite (fun _ => (tame_mapOpen _ (by exact fun _ => ⟨rfl, rfl⟩)).last hrose) fun _ => hrose

theorem tame_depthFollows (s before : State) : Tame s (s.depthFollows before) :=
  .ite (fun _ => .refl s) fun _ => tame_recomputeDepth s

theorem tame_creditTurns (s : State) (n : Nat) : Tame s (s.creditTurns n) := by
  unfold State.creditTurns
  dsimp only
  have h : Tame s (if s.straps.rod then
      { s with
          ret := { s.ret with
            rods := s.ret.rods.map fun r => if s.ret.string.contains r.id then s.wearRod n r else r } }
    else s) := .ite (fun _ => tame_setRet s _ (.of_eq rfl rfl rfl rfl) (.of_eq rfl)) fun _ => .refl s
  exact .ite (fun _ => (tame_mapOpen _ (by exact fun _ => ⟨rfl, rfl⟩)).last h) fun _ => h

theorem tame_setDepth (s : State) (v : DepthUnit) : Tame s { s with depth := v } := (moves_depth s v).tame (by decide)

theorem tame_setSeq (s : State) (v : Sequencer) : Tame s { s with seq := v } := (moves_seq s v).tame (by decide)

theorem tame_setRod (s : State) (v : RodUnit) : Tame s { s with rod := v } := (moves_rod s v).tame (by decide)

theorem tame_setClaims (s : State) (v : ClaimUnit) : Tame s { s with claims := v } := (moves_claims s v).tame (by decide)

theorem tame_wearCredit (s : State) : Tame s s.wearCredit := by
  unfold State.wearCredit
  split
  · exact .refl s
  · have h := fun w => tame_setDepth s { s.depth with wear := w }
    dsimp only
    split
    · exact h _
    · exact .ite (fun _ => (tame_creditTurns _ _).last (h _)) fun _ => h _

theorem tame_headRefresh (s before : State) : Tame s (s.headRefresh before) :=
  .ite (fun _ => (tame_depthFollows _ _).last ((moves_chooseHeadAgain s).tame (by decide))) fun _ => .refl s

/-! ## The sequencer's stops and the entry to LISTEN_ONLY -/

theorem stepOn_calm (r : Retained) : r.Calm r.stepOn := .of_eq rfl

theorem tame_seqStop (s : State) (st : SeqState) : Tame s (s.seqStop st) := by
  refine (moves_seqStop s st).tameRet (by decide) ?_
  show s.ret.Calm (if s.stepDone then s.ret.stepOn else s.ret)
  split
  · exact stepOn_calm _
  · exact .refl _

theorem tame_seqHold (s : State) (c : StopCause) : Tame s (s.seqHold c) := tame_seqStop s _

theorem tame_seqFault (s : State) (c : StopCause) : Tame s (s.seqFault c) := tame_seqStop s _

theorem tame_conflictCheck (s : State) : Tame s s.conflictCheck := .ite (fun _ => tame_seqHold s _) fun _ => .refl s

theorem tame_seqSilenced (s : State) : Tame s s.seqSilenced :=
  .ite (fun _ => tame_setSeq s _) fun _ => (tame_seqHold _ _).last (tame_setSeq s _)

theorem tame_listenOnlyNow (s : State) : Tame s s.listenOnlyNow := by
  unfold State.listenOnlyNow
  refine .ite (fun _ => .refl s) fun _ => ?_
  have h : Tame s { s with link := s.link.silence } := (moves_link s s.link.silence fun _ => rfl).tame (by decide)
  refine .ite (fun _ => ?_) fun _ => h
  have k := (tame_mapPumps fun _ c => steady_silenced c).last
    ((tame_setClaims _ { s.claims with settle := none }).last h)
  exact .ite (fun _ => (tame_seqSilenced _).last k) fun _ => k

end Sys2Proof.Machine

namespace Sys2Proof.Machine

/-! ## Moves of claims (R31 to R41, R57) -/

theorem mode_config_of_not_inRun {s : State} (hp : s.powered = true) (hr : s.inRun = false) : s.mode = .config := by
  simpa [State.powered, State.inRun, Bool.or_eq_true, hr, beq_eq_false_iff_ne.1 hr] using hp

theorem chan_mapPumps (s : State) (f : PumpId → PumpChannel → PumpChannel) (p : PumpId) :
    (s.mapPumps f).chan p = f p (s.chan p) := by cases p <;> rfl

/-- Pumps that yielded to the view before a claim came or went yield to it once the change is told (R41, R57). -/
theorem viewChanged_yields {s t : State} (hpumps : t.pumps = s.pumps) (hmode : t.mode = s.mode) (hp : s.powered = true)
    (hs : s.PumpsYield) : (t.viewChanged s.viewHolds).PumpsYield := by
  have hchan : ∀ p, t.chan p = s.chan p := fun p => by unfold State.chan; rw [hpumps]
  have hpow : t.powered = true := by unfold State.powered at *; rwa [hmode]
  have hdriven : ∀ p, (t.chan p).Driven := fun p => hchan p ▸ hs.driven p
  have hrests : s.viewHolds = true ∨ t.mode = .config → ∀ p, (t.chan p).Resting := fun h p =>
    hchan p ▸ hs.yields (h.imp_right (hmode ▸ ·)) p
  have hpermit : ∀ u : State, u.powered = true → u.PumpsYield → u.reevalPermit.PumpsYield := fun u hu hy =>
    ((moves_reevalPermit u).tame (by decide)).yields hu hy
  unfold State.viewChanged
  cases hrun : t.inRun with
  | false => exact ⟨hdriven, fun _ => hrests (.inr (mode_config_of_not_inRun hpow hrun))⟩
  | true =>
    have hnot : t.mode ≠ .config := fun h => by simp [State.inRun, h] at hrun
    simp only [Bool.not_true, Bool.false_eq_true, if_false]
    cases hwas : s.viewHolds <;> cases hnow : t.viewHolds
    · exact ⟨hdriven, fun h => absurd h (by simp [hnow, hnot])⟩
    · refine hpermit _ hpow ⟨fun p => ?_, fun _ p => ?_⟩
      · rw [State.pumpsClaimed, chan_mapPumps]
        exact (steady_claimed _).driven (hdriven p)
      · rw [State.pumpsClaimed, chan_mapPumps]
        exact claimed_resting _
    · refine hpermit _ hpow ⟨fun p => ?_, fun h => ?_⟩
      · rw [State.pumpsFreed, chan_mapPumps]
        exact freed_driven _ (hdriven p)
      · exact absurd h (not_or_intro (by simpa using (show t.pumpsFreed.viewHolds = false from hnow)) hnot)
    · exact ⟨hdriven, fun _ => hrests (.inl hwas)⟩

/-- What a change of the claim view comes to, when it is told of the view before. -/
theorem tame_viewChanged {p : List Part} {s t : State} (h : Moves p s t) (hpumps : t.pumps = s.pumps)
    (hclaim : { s.ret with claim := t.ret.claim } = t.ret) : Tame s (t.viewChanged s.viewHolds) := by
  have hafter := (moves_viewChanged s.viewHolds t).other
  have hret := hafter.ret (by decide)
  have hmode := hafter.mode.trans h.other.mode
  refine ⟨h.all.next (moves_viewChanged _ t).all (List.Subset.refl _), fun hp hs =>
    viewChanged_yields hpumps h.other.mode hp hs, fun hs => ⟨?_, fun hm => ?_⟩, fun _ hs => ⟨?_, fun hm => ?_⟩⟩
  · rw [hret, ← hclaim]; exact hs.metered
  · rw [hret, ← hclaim]
    refine (hs.straps (hmode ▸ hm)).trans ?_
    simp only [State.roles, State.isPit, hafter.straps, h.other.straps]
  · rw [hret, ← hclaim]
    exact ⟨hs.lagged.room, hs.lagged.order, hs.lagged.marks, hs.lagged.depths, hs.lagged.pumped, hs.lagged.string⟩
  · rw [hret, ← hclaim]; exact hs.config (hmode ▸ hm)

theorem tame_moveClaim (s : State) (p : ClaimPhase) : Tame s (s.moveClaim p) := by
  have hset := moves_ret s { s.ret with claim := ⟨.connection, p⟩ } (.of_eq rfl rfl rfl rfl)
  have hown := (moves_announceClaim _).trans (moves_spinOwnerCheck
    ({ s with ret := { s.ret with claim := ⟨.connection, p⟩ } } : State).announceClaim)
  refine tame_viewChanged (hset.trans hown) (hown.other.pumps (by decide)) ?_
  rw [hown.other.ret (by decide)]

theorem tame_startSettle (s : State) : Tame s s.startSettle := tame_setClaims s _

theorem tame_takeTest (s : State) : Tame s s.takeTest := by
  unfold State.takeTest
  dsimp only
  refine .ite (fun _ => ?_) fun _ => .refl s
  have h := (tame_startSettle _).last (tame_moveClaim s .pending)
  exact .ite (fun _ => (tame_setSeq _ _).last h) fun _ => h

theorem tame_withdrawClaim (s : State) : Tame s s.withdrawClaim := by
  unfold State.withdrawClaim
  dsimp only
  have h := (tame_moveClaim _ .none).last (tame_setClaims s { s.claims with settle := none })
  exact .ite (fun _ => (tame_setSeq _ _).last h) fun _ => h

theorem tame_releaseClaim (s : State) : Tame s s.releaseClaim := by
  unfold State.releaseClaim
  dsimp only
  exact .ite (fun _ => tame_setClaims s _) fun _ => (tame_moveClaim _ _).last (tame_setClaims s _)

theorem tame_examineClaim (s : State) (k : Nat) (p : ClaimPhase) : Tame s (s.examineClaim k p) := by
  unfold State.examineClaim
  split
  · exact .refl s
  · exact .ite (fun _ => .refl s) fun _ => .ite (fun _ => tame_withdrawClaim s) fun _ => tame_startSettle s
  · exact tame_conflictCheck s

theorem viewHolds_eq (s : State) :
    s.viewHolds = (s.ret.claim.phase != .none || s.peers.any fun p => p.claim.phase != .none) := by
  rw [Bool.eq_iff_iff]
  by_cases h : s.ret.claim.phase = .none
  · simp [State.viewHolds, State.claimView, State.otherClaims, h]
  · simp [State.viewHolds, State.claimView, h]

/-- A change of the peer table that leaves whether it holds a claim. -/
theorem tame_setPeers (s : State) {v : List PeerEntry}
    (h : (v.any fun p => p.claim.phase != .none) = s.peers.any fun p => p.claim.phase != .none) :
    Tame s { s with peers := v } := by
  refine .of_moves (moves_peers s v) (.refl _) ?_ fun _ => .refl _
  rw [viewHolds_eq, viewHolds_eq]
  exact congrArg _ h

/-- A change of an entry that keeps the claim it holds. -/
theorem tame_mapPeer (s : State) (k : Nat) {f : PeerEntry → PeerEntry}
    (hf : ∀ p, (f p).claim = p.claim) : Tame s (s.mapPeer k f) := by
  refine tame_setPeers s ?_
  rw [List.any_map]
  congr 1
  funext p
  simp only [Function.comp]
  split
  · rw [hf]
  · rfl

theorem any_insertPeer (p : PeerEntry) (f : PeerEntry → Bool) (l : List PeerEntry) :
    (insertPeer p l).any f = (f p || l.any f) := by
  induction l with
  | nil => simp [insertPeer]
  | cons q l ih =>
    unfold insertPeer
    split
    · simp
    · simp [ih, Bool.or_left_comm]

theorem tame_setPeerClaim (s : State) (k : Nat) (c : Claim) : Tame s (s.setPeerClaim k c) := by
  unfold State.setPeerClaim
  dsimp only
  have hset := moves_mapPeer s k fun p => { p with claim := c }
  have hrun := hset.inRun
  refine .ite (fun _ => ?_) fun h => ?_
  · have howner := hset.trans (moves_spinOwnerCheck (s.mapPeer k fun p => { p with claim := c }))
    have hview := tame_viewChanged howner (howner.other.pumps (by decide)) (by rw [howner.other.ret (by decide)])
    exact .ite (fun _ => .ite (fun _ => hview) fun _ => (tame_takeTest _).last hview) fun _ =>
      .ite (fun _ => hview) fun _ => (tame_examineClaim _ _ _).last hview
  · refine ⟨hset.all, fun hp hs => ⟨hs.driven, fun _ => hs.yields (.inr ?_)⟩, fun hs => ⟨hs.metered, hs.straps⟩,
      fun _ hs => ⟨hs.lagged, hs.config⟩⟩
    exact mode_config_of_not_inRun hp (by simpa [hrun] using h)

theorem tame_settleExpired (s : State) : Tame s s.settleExpired.1 := by
  unfold State.settleExpired
  dsimp only
  split
  · split
    · exact (tame_moveClaim _ _).last (tame_setClaims s _)
    · exact tame_startSettle s
  · exact tame_setClaims s _

/-! ## Rod records and the rod view (R91, R96, R100) -/

theorem placeAt_calm (r : Retained) (id : Nat) (f : RodState → RodState) (k : Option Nat) : r.Calm (r.placeAt id f k) :=
  ⟨rfl, rfl, rfl, rfl, rfl, rfl, rfl, rfl, (List.length_filter_le _ _).trans⟩

theorem retire_calm (r : Retained) (id : Nat) : r.Calm (r.retire id) := .of_eq rfl

/-- A push needs room in the string list (R93). -/
theorem push_calm {r : Retained} (h : r.string.length < Config.stringRoom) (id : Nat) : r.Calm (r.push id) := by
  refine ⟨rfl, rfl, rfl, rfl, rfl, rfl, rfl, rfl, fun _ => ?_⟩
  have hfilter := List.length_filter_le (· != id) r.string
  simp only [Retained.push, Retained.placeAt, List.length_append, List.length_singleton]
  simp only [Config.stringRoom] at h
  omega

theorem placing_calm {r r' : Retained} {d : Rod} {p : Place} {k : Nat} (h : r.placing d p k = some r') : r.Calm r' := by
  unfold Retained.placing at h
  cases p with
  | offRig => cases h; exact placeAt_calm _ _ _ _
  | slot =>
    dsimp only at h
    split at h
    · cases h
    · cases h; exact placeAt_calm _ _ _ _
  | loader =>
    dsimp only at h
    split at h
    · cases h
    · cases h; exact placeAt_calm _ _ _ _
  | stringTop =>
    dsimp only at h
    split at h
    · cases h
    · split at h
      · split at h
        · cases h; exact .refl _
        · cases h
      · split at h
        · cases h; exact push_calm ‹_› _
        · cases h

theorem change_calm {m : RodEventMsg} {r r' : Retained} (h : m.change r = some r') : r.Calm r' := by
  unfold RodEventMsg.change at h
  repeat' split at h
  all_goals first
    | contradiction
    | exact placing_calm h
    | (cases h; first
      | exact placeAt_calm _ _ _ _ | exact retire_calm _ _ | exact .refl _
      | (rename_i hc; exact push_calm (by simpa using (Bool.and_eq_true_iff.1 hc).2) _))

theorem setHold_calm (r : Retained) (h : HoldRec) : r.Calm { r with hold := h } := .of_eq rfl

theorem apply_calm {m : RodEventMsg} {r r' : Retained} (h : m.apply r = some r') : r.Calm r' := by
  unfold RodEventMsg.apply at h
  obtain ⟨a, ha, hb⟩ := Option.bind_eq_some_iff.1 h
  split at hb
  · cases hb
    exact (change_calm ha).trans (setHold_calm _ _)
  · exact absurd hb (by simp)

theorem tame_countRetired (s : State) (id : Nat) : Tame s (s.countRetired id) := by
  unfold State.countRetired
  refine .ite (fun _ => ?_) fun _ => .refl s
  split
  · exact tame_setRet s _ (.of_eq rfl rfl rfl rfl) (.of_eq rfl)
  · exact .refl s

theorem tame_makeEvent (s : State) (k : RodEventKind) (r l : Option Nat) (p : Option Place) :
    Tame s (s.makeEvent k r l p) :=
  (tame_broadcast _ _ _ _).last (tame_setRet s _ (.of_eq rfl rfl rfl rfl) (.of_eq rfl))

theorem tame_rodChange {s : State} {v : Retained} (ho : s.ret.Onward v) (hv : s.ret.Calm v) (k : RodEventKind)
    (r l : Option Nat) (p : Option Place) : Tame s (s.rodChange v k r l p) :=
  (tame_makeEvent _ _ _ _ _).last (tame_setRet s v ho hv)

theorem tame_viewUnsure (s : State) : Tame s s.viewUnsure := (tame_depthFollows _ _).last (tame_setRod s _)

theorem tame_takeEvent (s : State) (m : RodEventMsg) : Tame s (s.takeEvent m) := by
  unfold State.takeEvent
  refine .ite (fun _ => tame_viewUnsure s) fun _ => ?_
  split
  · exact tame_viewUnsure s
  · rename_i r hr
    have ho := apply_onward hr
    have h := (tame_depthFollows _ s).last (tame_setRet s { r with eventNo := m.number }
      ⟨ho.hole, ho.pumped, ho.jobTime, ho.job⟩ ((apply_calm hr).trans (.of_eq rfl)))
    exact .ite (fun _ => h) fun _ => (tame_viewUnsure _).last h

theorem tame_resyncAgain (s : State) : Tame s s.resyncAgain := (moves_resyncAgain s).tame (by decide)

theorem tame_requestPage (s : State) : Tame s s.requestPage := (moves_requestPage s).tame (by decide)

theorem tame_viewUnsureNow (s : State) : Tame s s.viewUnsureNow := (tame_requestPage _).last (tame_viewUnsure s)

theorem tame_workHeld (l : List RodEventMsg) (s : State) : Tame s (s.workHeld l) := by
  induction l generalizing s with
  | nil => exact .refl s
  | cons m l ih =>
    unfold State.workHeld
    exact .ite (fun _ => .refl s) fun _ => .ite (fun _ => ih s) fun _ => (ih _).last (tame_takeEvent s m)

theorem replaceString_calm {r : Retained} {ids : List Nat} (h : ids.length ≤ Config.stringRoom) (hold : HoldRec)
    (n : Nat) : r.Calm { r.replaceString ids with hold := hold, eventNo := n } :=
  ⟨rfl, rfl, rfl, rfl, rfl, rfl, rfl, rfl, fun _ => h⟩

theorem tame_resyncComplete {s : State} {ids : List Nat} (h : ids.length ≤ Config.stringRoom) (hold : HoldRec) (n : Nat) :
    Tame s (s.resyncComplete ids hold n) := by
  unfold State.resyncComplete
  dsimp only
  have hset : Tame s { s with
      ret := { s.ret.replaceString ids with hold := hold, eventNo := n }
      rod := { s.rod with sure := true, lagCount := 0, held := [], resync := Resync.begin } } :=
    (tame_setRod _ _).last (tame_setRet s { s.ret.replaceString ids with hold := hold, eventNo := n }
      (.of_eq rfl rfl rfl rfl) (replaceString_calm h hold n))
  have k := (tame_workHeld s.rod.held _).last <| ((moves_alarmsFollow _).tame (by decide)).last <| (tame_depthFollows _ s).last hset
  exact .ite (fun _ => k) fun _ => (tame_requestPage _).last k

theorem length_of_resyncChecks {s : State} {ids : List Nat} {hold : HoldRec} (h : s.resyncChecks ids hold = true) :
    ids.length ≤ Config.stringRoom := by
  simp only [State.resyncChecks, Bool.and_eq_true, decide_eq_true_eq] at h
  exact h.1.2

theorem tame_takePage (s : State) (p : PageData) : Tame s (s.takePage p) := by
  have h : Tame s (State.takePage.go s p) := by
    unfold State.takePage.go
    dsimp only
    have h := fun v => tame_setRod s v
    exact .ite (fun _ => .ite (fun hc => (tame_resyncComplete (length_of_resyncChecks hc) _ _).last (h _))
      fun _ => (tame_resyncAgain _).last (h _)) fun _ => (tame_requestPage _).last (h _)
  unfold State.takePage
  split
  · exact .ite (fun _ => h) fun _ => tame_resyncAgain s
  · exact h

theorem tame_pageEnded (s : State) (d : Nat) (b : Bool) (a : Option (Nat × List Byte)) : Tame s (s.pageEnded d b a) := by
  unfold State.pageEnded
  dsimp only
  have h := tame_setRod s { s.rod with resync := { s.rod.resync with request := .none } }
  refine .ite (fun _ => h) fun _ => ?_
  split
  · exact h
  · refine .ite (fun _ => ?_) fun _ => .ite (fun _ => (tame_resyncAgain _).last h) fun _ => h
    split
    · exact (tame_takePage _ _).last h
    · exact h

theorem tame_rodSourceAgain (s : State) : Tame s s.rodSourceAgain := by
  unfold State.rodSourceAgain
  dsimp only
  refine .ite (fun _ => ?_) fun _ => .refl s
  have h := tame_setRod s { s.rod with source := s.chooseRod, lagCount := 0 }
  exact .ite (fun _ => (tame_viewUnsureNow _).last h) fun _ => (tame_resyncAgain _).last h

theorem tame_rodStatus (s : State) (k : Nat) (m : StatusMsg) : Tame s (s.rodStatus k m) := by
  unfold State.rodStatus
  dsimp only
  have h := fun v => tame_setRod s v
  refine .ite (fun _ => .ite (fun _ => ?_) fun _ => ?_) fun _ => .refl s
  · exact .ite (fun _ => h _) fun _ => (tame_viewUnsureNow _).last (h _)
  · exact .ite (fun _ => (tame_viewUnsureNow _).last (h _)) fun _ => h _

theorem tame_rodEventFrom (s : State) (k : Nat) (m : RodEventMsg) : Tame s (s.rodEventFrom k m) := by
  unfold State.rodEventFrom
  dsimp only
  refine .ite (fun _ => ?_) fun _ => .refl s
  have h : ∀ t, Tame s t → Tame s
      (if t.rod.sure then (if (t.takeEvent m).rod.sure then t.takeEvent m else (t.takeEvent m).requestPage)
      else if t.rod.held.length < Config.heldRoom then
        { t with rod := { t.rod with held := t.rod.held ++ [m] } } else t) := by
    intro t ht
    have h := (tame_takeEvent _ m).last ht
    exact .ite (fun _ => .ite (fun _ => h) fun _ => (tame_requestPage _).last h) fun _ =>
      .ite (fun _ => (tame_setRod _ _).last ht) fun _ => ht
  split
  · exact h _ (tame_countRetired s _)
  · exact h _ (.refl s)

theorem tame_viewSettles (s : State) : Tame s s.viewSettles :=
  .ite (fun _ => (tame_depthFollows _ _).last (tame_setRod s _)) fun _ => .refl s

end Sys2Proof.Machine

namespace Sys2Proof.Machine

/-! ## The sequencer's steps (R108 to R116) -/

/-- A calm change of the retained state with a change of the sequencer. -/
theorem tame_retSeq (s : State) {r : Retained} (q : Sequencer) (hr : s.ret.Calm r)
    (ho : s.ret.Onward r) : Tame s { s with ret := r, seq := q } :=
  (tame_setSeq { s with ret := r } q).last (tame_setRet s r ho hr)

theorem tame_mapUnit (s : State) (f : UnitRec → UnitRec) : Tame s (s.mapUnit f) :=
  (moves_mapUnit s f).tameRet (by decide) (.of_eq rfl)

theorem tame_startTimer (s : State) (n : Nat) : Tame s (s.startTimer n) := tame_setSeq s _

theorem tame_enterSelect (s : State) : Tame s s.enterSelect := by
  unfold State.enterSelect
  refine .ite (fun _ => tame_seqFault s _) fun _ => ?_
  split
  · exact tame_seqFault s _
  · exact (tame_startTimer _ _).last (tame_mapUnit s _)

theorem tame_enterSpin (s : State) (k : SpinKind) : Tame s (s.enterSpin k) := by
  unfold State.enterSpin
  split
  · exact tame_seqFault s _
  · rename_i d hd
    have h := tame_startTimer s 20000
    dsimp only
    refine .ite (fun _ => ?_) fun _ => .ite (fun _ => ((moves_issueSpin _ _ _).tame (by decide)).last h)
      fun _ => (tame_setSeq _ _).last h
    have k' := (((moves_spinService (s.startTimer 20000) d k.code).tame (by decide))).last h
    split
    · rename_i e
      rw [e] at k'
      exact (tame_setSeq _ _).last k'
    · rename_i e
      rw [e] at k'
      exact (tame_seqFault _ _).last k'

theorem tame_enterStore (s : State) : Tame s s.enterStore := by
  unfold State.enterStore
  split
  · exact tame_seqFault s _
  · exact (tame_setSeq _ _).last <| (tame_startTimer _ _).last (tame_mapUnit s _)

theorem tame_stepFresh (s : State) (n : Nat) : Tame s (s.stepFresh n) := (tame_setSeq _ _).last (tame_mapUnit s _)

theorem tame_driveClamp (s : State) (u : UnitRec) (b : Bool) : Tame s (s.driveClamp u b) :=
  (moves_driveClamp s u b).tameRet (by decide) (.of_eq rfl)

theorem tame_driveGrip (s : State) (b : Bool) : Tame s (s.driveGrip b) := (moves_driveGrip s b).tameRet (by decide) (.of_eq rfl)

theorem tame_loaderBack (s : State) : Tame s s.loaderBack := (tame_setSeq _ _).last (tame_driveGrip s _)

theorem tame_enterStep (s : State) (n : Nat) : Tame s (s.enterStep n) := by
  unfold State.enterStep
  dsimp only
  have h := tame_stepFresh s n
  split
  · exact h
  · split
    · exact h
    · exact (tame_startTimer _ _).last <| ((moves_alignOutputs _).tameRet (by decide) (.of_eq rfl)).last h
    · exact .ite (fun _ => (tame_enterSelect _).last h) fun _ => (tame_startTimer _ _).last h
    · exact (tame_startTimer _ _).last ((tame_driveClamp _ _ _).last h)
    · have k := fun u => (tame_driveClamp _ u false).last h
      exact (tame_startTimer _ _).last (.ite (fun _ => (tame_loaderBack _).last (k _)) fun _ => k _)
    · exact (tame_startTimer _ _).last ((tame_setSeq _ _).last h)
    · exact (tame_enterSpin _ _).last h
    · exact (tame_startTimer _ _).last ((tame_driveGrip _ _).last h)
    · exact (tame_enterStore _).last h

/-! ## Units (R107, R120) -/

theorem tame_seqIdle (s : State) : Tame s s.seqIdle := (moves_seqIdle s).tameRet (by decide) (.of_eq rfl)

theorem tame_setLastOp (s : State) (k : OpKind) (r : OpResult) (e : Option OpEntry) : Tame s (s.setLastOp k r e) :=
  tame_setSeq s _

theorem tame_beginUnit (n : Nat) (s : State) : Tame s (State.beginUnit n s) := by
  have idle : ∀ s : State, Tame s s.seqIdle.releaseClaim := fun s => (tame_releaseClaim _).last (tame_seqIdle s)
  induction n generalizing s with
  | zero => exact idle s
  | succ n ih =>
    unfold State.beginUnit
    split
    · exact idle s
    · refine .ite (fun _ => (ih _).last <| (tame_setLastOp _ _ _ _).last (tame_setSeq s _)) fun _ => ?_
      dsimp only
      have h : ∀ v, Tame s { s.seqIdle with ret := { s.seqIdle.ret with unit := v } } := fun v =>
        (tame_setRet s.seqIdle { s.seqIdle.ret with unit := v } (.of_eq rfl rfl rfl rfl) (.of_eq rfl)).last (tame_seqIdle s)
      refine .ite (fun _ => (tame_enterStep _ _).last (h _)) fun _ => (tame_takeTest _).last ?_
      exact (tame_setClaims _ _).last <| (tame_setSeq _ _).last (h (some ⟨_, 1, none, none, false⟩))

theorem tame_unitEnd (s : State) (u : UnitRec) : Tame s (s.unitEnd u) := by
  unfold State.unitEnd
  split
  · exact (tame_beginUnit _ _).last (tame_setLastOp s _ _ _)
  · exact (tame_beginUnit _ _).last <| .ite (fun _ => (tame_setLastOp _ _ _ _).last (tame_setSeq s _)) fun _ =>
      tame_setSeq s _

theorem tame_unitOver (s : State) : Tame s s.unitOver :=
  (tame_beginUnit _ _).last <| (tame_releaseClaim _).last (tame_seqIdle s)

theorem tame_unitAborted (s : State) (u : UnitRec) (e : Option OpEntry) : Tame s (s.unitAborted u e) :=
  (tame_unitOver _).last (tame_setLastOp s _ _ _)

theorem tame_stepEnds (s : State) : Tame s s.stepEnds := by
  unfold State.stepEnds
  split
  · exact tame_seqIdle s
  · refine .ite (fun _ => .ite (fun _ => tame_unitAborted s _ _) fun _ => ?_) fun _ =>
      .ite (fun _ => tame_unitEnd s _) fun _ => tame_enterStep s _
    exact (tame_seqHold _ _).last (tame_retSeq s _ (stepOn_calm _) (stepOn_onward _))

/-! ## The ends of phases -/

theorem tame_ending (s : State) : Tame s s.ending := tame_setSeq s _

theorem tame_changeHold (s : State) (r : HoldRec) : Tame s (s.changeHold r) :=
  (tame_depthFollows _ _).last <|
    tame_rodChange (s := s) (v := { s.ret with hold := r }) (.of_eq rfl rfl rfl rfl) (setHold_calm _ _) _ _ _ _

theorem tame_fetchDone (s : State) (u : UnitRec) : Tame s (s.fetchDone u) := by
  unfold State.fetchDone
  dsimp only
  split
  · exact tame_retSeq s _ (placeAt_calm _ _ _ _) (placeAt_onward _ _ _ _)
  · exact tame_setSeq s _

theorem tame_storeDone (s : State) (u : UnitRec) : Tame s (s.storeDone u) := by
  unfold State.storeDone
  dsimp only
  have h : Tame s { s with
      ret := { s.ret with gripOut := false }
      seq := { s.seq with store := false, timer := none } } := tame_retSeq s _ (.of_eq rfl) (.of_eq rfl rfl rfl rfl)
  split
  · refine .ite (fun _ => (tame_countRetired _ _).last <|
      (tame_rodChange (retire_onward _ _) (retire_calm _ _) _ _ _ _).last ?_) fun _ => ?_
    all_goals exact (tame_rodChange (placeAt_onward _ _ _ _) (placeAt_calm _ _ _ _) _ _ _ _).last h
  · exact h

theorem tame_phaseDone (s : State) : Tame s s.phaseDone := by
  unfold State.phaseDone
  split
  · exact .refl s
  · split
    · exact tame_stepEnds s
    · exact (tame_ending _).last (tame_changeHold s _)
    · exact (tame_ending _).last <| (tame_changeHold _ _).last (tame_setSeq s _)
    · exact tame_retSeq s _ (.of_eq rfl) (.of_eq rfl rfl rfl rfl)
    · exact (tame_stepEnds _).last (tame_fetchDone s _)
    · exact tame_retSeq s _ (.of_eq rfl) (.of_eq rfl rfl rfl rfl)
    · exact (tame_ending _).last (tame_storeDone s _)
    · exact (tame_stepEnds _).last (tame_setSeq s _)

theorem tame_seqRunFor (n : Nat) (s : State) : Tame s (State.seqRunFor n s) := by
  induction n generalizing s with
  | zero => exact .refl s
  | succ n ih =>
    unfold State.seqRunFor
    exact .ite (fun _ => (ih _).last (tame_phaseDone s)) fun _ => .refl s

theorem tame_seqRun (s : State) : Tame s s.seqRun := tame_seqRunFor _ s

/-! ## Spins at the ROD station (R116, R119) -/

theorem pop_calm (r : Retained) (id : Nat) : r.Calm (r.pop id) := placeAt_calm r id _ _

theorem tame_spinChanges (s : State) (u : UnitRec) (k : SpinKind) : Tame s (s.spinChanges u k) := by
  unfold State.spinChanges
  split
  · exact tame_changeHold s _
  · exact tame_changeHold s _
  · split
    · rename_i d hd
      have hroom : s.ret.string.length < Config.stringRoom := by
        simpa using (Option.filter_eq_some_iff.1 hd).2
      exact (tame_depthFollows _ _).last <| (tame_makeEvent _ _ _ _ _).last <|
        tame_rodChange (s := s) (v := { s.ret.push d.id with hold := ⟨.clamped, .latched, true⟩ })
          (.of_eq rfl rfl rfl rfl) ((push_calm hroom _).trans (setHold_calm _ _)) _ _ _ _
    · exact tame_changeHold s _
  · split
    · rename_i id hid
      exact (tame_depthFollows _ _).last <| (tame_makeEvent _ _ _ _ _).last <|
        tame_rodChange (s := s) (v := { s.ret.pop id with hold := ⟨.clamped, .free, false⟩ })
          (.of_eq rfl rfl rfl rfl) ((pop_calm _ _).trans (setHold_calm _ _)) _ _ _ _
    · exact tame_changeHold s _

theorem tame_stepOn (s : State) : Tame s { s with ret := s.ret.stepOn } :=
  tame_setRet s _ (stepOn_onward _) (stepOn_calm _)

theorem tame_spinDone (s : State) (u : UnitRec) (k : SpinKind) : Tame s (s.spinDone u k) := by
  unfold State.spinDone
  dsimp only
  have h := (tame_spinChanges _ u k).last (tame_setSeq s { s.seq with spin := .none })
  exact .ite (fun _ => (tame_seqRun _).last ((tame_setSeq _ _).last h)) fun _ => (tame_stepOn _).last h

theorem tame_spinReport (s : State) (k : Nat) (st : SpinState) (n : Nat) : Tame s (s.spinReport k st n) := by
  unfold State.spinReport
  split
  · refine .ite (fun _ => ?_) fun _ => .refl s
    split
    · split
      · exact tame_spinDone s _ _
      · exact .ite (fun _ => tame_seqFault s _) fun _ => .refl s
      · exact .ite (fun _ => tame_seqFault s _) fun _ => .refl s
      · exact .refl s
      · exact .refl s
    · exact .refl s
  · exact .refl s

theorem tame_ownSpinReport (s : State) : Tame s s.ownSpinReport := tame_spinReport s _ _ _

theorem tame_spinEnded (s : State) (d : Nat) (a : Option (Nat × List Byte)) : Tame s (s.spinEnded d a) := by
  unfold State.spinEnded
  dsimp only
  split
  · exact tame_setSeq s _
  · exact .ite (fun _ => (tame_seqFault _ _).last (tame_setSeq s _)) fun _ => tame_setSeq s _

end Sys2Proof.Machine

namespace Sys2Proof.Machine

/-! ## Received frames (R11 to R15) -/

theorem tame_peerShift (s : State) : Tame s s.peerShift :=
  .ite (fun _ => (tame_seqRun _).last <| (tame_heardRefresh _).last <| (tame_headRefresh _ _).last
    (tame_conflictCheck s)) fun _ => .refl s

theorem tame_refreshPeer (s : State) (k q : Nat) : Tame s (s.refreshPeer k q) := by
  unfold State.refreshPeer
  dsimp only
  split
  · exact tame_setPeers s (by rw [any_insertPeer]; rfl)
  · have h := tame_mapPeer s k (f := PeerEntry.refresh q (3 * s.statusPeriod)) fun _ => rfl
    refine .ite (fun _ => ?_) fun _ => h
    have k := (tame_peerShift _).last ((tame_mapPeer _ k (f := PeerEntry.returned) fun _ => rfl).last h)
    exact .ite (fun _ => (tame_resyncAgain _).last k) fun _ => k

theorem tame_peerStale (s : State) (k : Nat) : Tame s (s.peerStale k) := by
  unfold State.peerStale
  split
  · exact .refl s
  · exact .ite (fun _ => .refl s) fun _ => (tame_peerShift _).last (tame_mapPeer s _ fun _ => rfl)

theorem tame_recordFault (s : State) (k : FaultKind) (a : Option Nat) (f : Option FrameKind) (q : Option Nat) :
    Tame s (s.recordFault k a f q) := (moves_recordFault s k a f q).tame (by decide)

theorem tame_digestCheck (s : State) (k q : Nat) (m : StatusMsg) : Tame s (s.digestCheck k q m) := by
  unfold State.digestCheck
  dsimp only
  have h := tame_mapPeer s k (f := fun p => { p with differed := s.digestDiffers m }) fun _ => rfl
  exact .ite (fun _ => (tame_recordFault _ _ _ _ _).last h) fun _ => h

theorem tame_statusFrom (s : State) (k q : Nat) (m : StatusMsg) : Tame s (s.statusFrom k q m) := by
  unfold State.statusFrom
  dsimp only
  have h := (tame_setPeerClaim _ k m.claim).last <| (tame_digestCheck _ k q m).last <|
    tame_mapPeer s k (f := fun p => { p with status := some m }) fun _ => rfl
  have j := (tame_seqRun _).last <| (tame_rodStatus _ k m).last <| (tame_rodSourceAgain _).last <|
    (tame_headRefresh _ s).last <| (tame_heardRefresh _).last h
  exact .ite (fun _ => .ite (fun _ => (tame_peerCloseTest _).last j) fun _ => j) fun _ => h

theorem tame_setStrata (s : State) (v : StrataUnit) : Tame s { s with strata := v } := (moves_strata s v).tame (by decide)

theorem tame_volumeHeard (s : State) (k : Nat) (p : PumpId) (v : Nat) : Tame s (s.volumeHeard k p v) := by
  unfold State.volumeHeard
  dsimp only
  have h := fun v => tame_setStrata s v
  exact .ite (fun _ => .refl s) fun _ => .ite (fun _ => (tame_appendMark _ _ _).last (h _)) fun _ => h _

theorem tame_peerCredit (s : State) (k : Nat) (m : StrokesMsg) : Tame s (s.peerCredit k m) := by
  unfold State.peerCredit
  split
  · exact .ite (fun _ => tame_credit s _) fun _ => tame_strokeGap s
  · exact tame_strokeGap s

theorem setStrokes_claim (i : PumpId) (c : PeerStrokes) (p : PeerEntry) : (p.setStrokes i c).claim = p.claim := by
  cases i <;> rfl

theorem tame_strokesFrom (s : State) (k : Nat) (m : StrokesMsg) : Tame s (s.strokesFrom k m) := by
  unfold State.strokesFrom
  dsimp only
  have h : Tame s (if s.inRun = true then s.peerCredit k m else s) :=
    .ite (fun _ => tame_peerCredit s k m) fun _ => .refl s
  have j := (tame_mapPeer _ k (setStrokes_claim m.pump ⟨some m.count, s.inRun⟩)).last h
  exact .ite (fun _ => (tame_volumeHeard _ _ _ _).last j) fun _ => j

theorem tame_headFrom (s : State) (k : Nat) (m : HeadMsg) : Tame s (s.headFrom k m) := by
  unfold State.headFrom
  dsimp only
  have h := tame_mapPeer s k (f := fun p => { p with head := some m, headFresh := true }) fun _ => rfl
  refine .ite (fun _ => ?_) fun _ => h
  have j := (tame_headRefresh _ s).last h
  exact (tame_spinReport _ _ _ _).last <| (tame_seqRun _).last <|
    .ite (fun _ => (tame_wearCredit _).last j) fun _ => j

theorem tame_requestEnded (s : State) (e : OutEntry) (a : Option (Nat × List Byte)) : Tame s (s.requestEnded e a) := by
  unfold State.requestEnded
  refine .ite (fun _ => .ite (fun _ => tame_spinEnded s _ _) fun _ => .refl s) fun _ => ?_
  split
  · exact .ite (fun _ => tame_pageEnded s _ _ _) fun _ => .refl s
  · exact .refl s

theorem tame_setLink (s : State) (v : Link) (h : s.link.listenOnly = true → v.listenOnly = true) :
    Tame s { s with link := v } := (moves_link s v h).tame (by decide)

theorem tame_answerFrom (s : State) (k t c : Nat) (d : List Byte) : Tame s (s.answerFrom k t c d) := by
  unfold State.answerFrom
  split
  · exact tame_setLink s _ id
  · exact (tame_requestEnded _ _ _).last (tame_setLink s _ id)

theorem tame_answerTimedOut (s : State) (t : Nat) : Tame s (s.answerTimedOut t) := by
  unfold State.answerTimedOut
  split
  · exact .refl s
  · exact (tame_recordFault _ _ _ _ _).last <| (tame_requestEnded _ _ _).last (tame_setLink s _ id)

theorem tame_arrive (s : State) (r : Request) : Tame s (s.arrive r) := (moves_arrive s r).tame (by decide)

theorem tame_handOn (s : State) (f : RxFrame) : Tame s (s.handOn f) := by
  unfold State.handOn
  split
  · exact tame_statusFrom s _ _ _
  · exact tame_strokesFrom s _ _
  · exact tame_headFrom s _ _
  · exact tame_rodEventFrom s _ _
  · exact tame_setPeerClaim s _ _
  · exact .refl s
  · exact tame_arrive s _
  · exact tame_answerFrom s _ _ _ _

theorem tame_goodFrame (s : State) (f : RxFrame) : Tame s (s.goodFrame f) := by
  unfold State.goodFrame
  dsimp only
  refine .ite (fun _ => (tame_listenOnlyNow _).last (tame_recordFault s _ _ _ _)) fun _ => ?_
  exact .ite (fun _ => (tame_handOn _ _).last (tame_refreshPeer s _ _)) fun _ => tame_refreshPeer s _ _

theorem tame_frameReceived (s : State) (b : List Byte) : Tame s (s.frameReceived b) := by
  unfold State.frameReceived
  dsimp only
  refine .ite (fun _ => .refl s) fun _ => .ite (fun _ => tame_setLink s { s.link with rx := .trailing } id) fun _ => ?_
  have h : Tame s (if s.link.lineBusy = true then s else s.onLink fun e => Link.goBusy e) :=
    .ite (fun _ => .refl s) fun _ => (moves_onLink s _ fun _ _ h => by simpa using h).tame (by decide)
  have j := fun v hv => (tame_setLink _ v hv).last h
  split
  · exact j _ id
  · exact (tame_goodFrame _ _).last (j _ id)

/-! ## The line and sending -/

theorem tame_collide (s : State) (h : InHand) : Tame s (s.collide h) := by
  unfold State.collide
  dsimp only
  have k := (moves_onLink s (fun e => Link.collide e h) fun _ _ h => by simpa using h).tame (by decide)
  exact .ite (fun _ => (tame_listenOnlyNow _).last ((tame_recordFault _ _ _ _ _).last k)) fun _ => k

theorem tame_statusPeriodEnd (s : State) : Tame s s.statusPeriodEnd := by
  unfold State.statusPeriodEnd
  dsimp only
  have h := ((moves_handStatus _).tame (by decide)).last (tame_setLink s { s.link with statusTimer := some s.statusPeriod } id)
  refine .ite (fun _ => ((moves_resyncPeriod _).tame (by decide)).last ?_) fun _ => h
  have k := (tame_periodStrokes _ .b).last ((tame_periodStrokes _ .a).last h)
  exact .ite (fun _ => ((moves_handHead _).tame (by decide)).last k) fun _ => k

end Sys2Proof.Machine

namespace Sys2Proof.Machine

/-! ## Requests (R4, R12, R22) -/

theorem tame_popIntake (s : State) : Tame s { s with link := s.link.popIntake } := tame_setLink s _ (by simp)

theorem tame_present (s : State) (r : Request) (f : Request → State → State)
    (h : ∀ q t, t.mode = s.mode → Tame t (f q t)) : Tame s (s.present r f) := by
  have a := tame_arrive s r
  unfold State.present
  split
  · exact .ite (fun _ => Tame.last (h _ { s with link := s.link.popIntake } rfl) (tame_popIntake s)) fun _ => a
  · dsimp only
    split
    · exact (h _ { s.arrive r with link := (s.arrive r).link.popIntake } (moves_arrive s r).other.mode).last <|
        (tame_popIntake _).last a
    · exact a

/-- A block is run in RUN, or in CONFIG where the gate lets it. -/
theorem tame_serve (s : State) (k : QueueId) (g : Gate) (q : Request) (f : Request → State → Served)
    (h : s.inRun = true ∨ g.inConfig = true → Tame s (f q s).state) : Tame s (s.serve k g q f) := by
  unfold State.serve
  refine .ite (fun _ => tame_answer s _ _ _ _) fun _ => .ite (fun _ => tame_answer s _ _ _ _) fun _ =>
    .ite (fun _ => tame_answer s _ _ _ _) fun hc => (tame_answer _ _ _ _ _).last (h ?_)
  cases hr : s.inRun <;> simp_all

/-- A request served by a block that runs in RUN only. -/
theorem tame_request (s : State) (r : Request) (k : QueueId) (g : State → Gate) (f : Request → State → Served)
    (h : ∀ q t, t.inRun = true ∨ (g t).inConfig = true → Tame t (f q t).state) :
    Tame s (s.present r fun q s => s.serve k (g s) q f) :=
  tame_present s r _ fun q t _ => tame_serve t k (g t) q f (h q t)

/-- A request that changes nothing but the link unit. -/
theorem tame_readOnly (s : State) (r : Request) (k : QueueId) (g : State → Gate) (f : Request → State → Served)
    (h : ∀ q s, (f q s).state = s) : Tame s (s.present r fun q s => s.serve k (g s) q f) :=
  tame_request s r k g f fun q t _ => by rw [h q t]; exact .refl t

/-! ## Requests of any role -/

theorem itemGet_setItem (s : State) (c i v c' i' : Nat) :
    itemGet (s.setItem c i v).ret.items c' i' = if c' = c ∧ i' = i then v else itemGet s.ret.items c' i' :=
  itemGet_set _ _ _ _ _ _

/-- In RUN an item of the service key, in CONFIG any item: the lag queue reads none of them. -/
theorem tame_setItem {s : State} {c : Nat} (h : s.inRun = true → serviceItem c = true) (i v : Nat) :
    Tame s (s.setItem c i v) where
  moves := (moves_setItem s c i v).all
  yields _ hs := hs.of_steady rfl id fun _ => .refl _
  charged hs := ⟨hs.metered, hs.straps⟩
  tagged hp hs := by
    refine ⟨?_, hs.config⟩
    cases hr : s.inRun with
    | true =>
      have hc := h hr
      refine hs.lagged.of_sublist (List.Sublist.refl _) le_rfl hs.lagged.pumped (fun c' i' hc' => ?_) rfl
        hs.lagged.string
      rw [itemGet_setItem, if_neg]
      rintro ⟨rfl, -⟩
      obtain rfl | rfl | rfl | rfl := hc' <;> exact absurd hc (by decide)
    | false =>
      have hlag : (s.setItem c i v).ret.lag = [] := hs.config (mode_config_of_not_inRun hp hr)
      exact ⟨hs.lagged.room, hs.lagged.order, by rw [hlag]; simp, by rw [hlag]; simp, hs.lagged.pumped,
        hs.lagged.string⟩

theorem tame_serviceChange (s : State) (p : PumpId) : Tame s (s.serviceChange p) := by
  unfold State.serviceChange
  dsimp only
  have h : Tame s (s.setChan p { s.chan p with effVolume := s.effectiveVolume p }) := tame_setChan (.of_eq rfl rfl)
  exact .ite (fun _ => .refl s) fun _ => .ite (fun _ => (tame_appendMark _ _ _).last h) fun _ => h

theorem tame_serveConfigSet (q : Request) (s : State) : Tame s (serveConfigSet q s).state := by
  unfold serveConfigSet
  dsimp only
  split
  · exact .refl s
  · rename_i hlock
    split
    · exact .refl s
    · exact .refl s
    · have h : Tame s (s.setItem (q.arg 0) (q.arg 1) (q.arg4 2)) :=
        tame_setItem (fun hr => by simp [hr] at hlock; exact hlock.2) _ _
      refine .ite (fun _ => ?_) fun _ => h
      split
      · exact (tame_serviceChange _ _).last h
      · exact h

theorem tame_report (s : State) (c : AlarmCond) (b : Bool) : Tame s (s.report c b) := (moves_report s c b).tame (by decide)

theorem tame_serveClaimClear (q : Request) (s : State) : Tame s (serveClaimClear q s).state := by
  unfold serveClaimClear
  dsimp only
  repeat' split
  all_goals first
    | exact .refl s
    | exact tame_setPeerClaim s _ _

/-! ## PUMP, ROD, HEAD -/

/-- A rate above 0 is accepted only while no claim is in view, and in RUN (R53). -/
theorem tame_setRate {s : State} (p : PumpId) (duty rate : Nat) (hrun : s.inRun = true)
    (h : 0 < rate → s.viewHolds = false) : Tame s (s.setChan p ((s.chan p).setRate duty rate)) where
  moves := (moves_setChan s p _).all
  charged hs := ⟨hs.metered, hs.straps⟩
  tagged _ hs := ⟨hs.lagged, hs.config⟩
  yields _ hs := by
    have hnot : s.mode ≠ .config := fun hm => by simp [State.inRun, hm] at hrun
    refine ⟨fun i => ?_, fun hc i => ?_⟩
    · by_cases hi : i = p
      · subst hi
        cases i <;> exact setRate_driven duty rate (hs.driven _)
      · have : (s.setChan p ((s.chan p).setRate duty rate)).chan i = s.chan i := by
          cases i <;> cases p <;> first | rfl | exact absurd rfl hi
        rw [this]; exact hs.driven i
    · have hview : s.viewHolds = true := hc.resolve_right hnot
      have hzero : rate = 0 := by
        rcases Nat.eq_zero_or_pos rate with h0 | h0
        · exact h0
        · exact absurd hview (by simp [h h0])
      subst hzero
      have hrest := hs.yields (.inl hview)
      cases i <;> cases p
      · exact setRate_zero_resting duty (hrest .a)
      · exact hrest .a
      · exact hrest .b
      · exact setRate_zero_resting duty (hrest .b)

theorem tame_servePumpRate (q : Request) {s : State} (hrun : s.inRun = true) : Tame s (servePumpRate q s).state := by
  unfold servePumpRate
  dsimp only
  split
  · exact .refl s
  · split
    · exact .refl s
    · split
      · exact .refl s
      · split
        · exact .refl s
        · rename_i hclaimed
          have hview : 0 < q.arg 1 → s.viewHolds = false := fun h0 => by
            by_contra hv
            exact hclaimed ⟨h0, .inl (by simpa using hv)⟩
          split
          · exact .refl s
          · split
            · exact .refl s
            · exact tame_setRate _ _ _ hrun hview

theorem tame_serveRackLoad (q : Request) (s : State) : Tame s (serveRackLoad q s).state := by
  unfold serveRackLoad
  dsimp only
  repeat' split
  all_goals first
    | exact .refl s
    | exact tame_rodChange (placeAt_onward _ _ _ _) (placeAt_calm _ _ _ _) _ _ _ _

theorem tame_serveRackUnload (q : Request) (s : State) : Tame s (serveRackUnload q s).state := by
  unfold serveRackUnload
  dsimp only
  repeat' split
  all_goals first
    | exact .refl s
    | exact tame_rodChange (placeAt_onward _ _ _ _) (placeAt_calm _ _ _ _) _ _ _ _

theorem tame_serveRodOp (q : Request) (s : State) : Tame s (serveRodOp q s).state := by
  unfold serveRodOp
  dsimp only
  split
  · exact .refl s
  · split
    · exact .refl s
    · split
      · exact .refl s
      · split
        · exact .refl s
        · have h := fun v => tame_setSeq s v
          exact .ite (fun _ => (tame_seqRun _).last ((tame_beginUnit _ _).last (h _))) fun _ => h _

theorem tame_rodAbort (s : State) : Tame s s.rodAbort := by
  unfold State.rodAbort
  dsimp only
  have h := fun v => tame_setSeq s v
  split
  · exact h _
  · exact .ite (fun _ => (tame_unitAborted _ _ _).last (h _)) fun _ => h _

theorem tame_resume (s : State) (u : UnitRec) : Tame s (s.resume u) :=
  (tame_seqRun _).last <| (tame_enterStep _ _).last <| (tame_report _ _ _).last (tame_setSeq s _)

theorem tame_serveRodResume (q : Request) (s : State) : Tame s (serveRodResume q s).state := by
  unfold serveRodResume
  repeat' split
  all_goals first
    | exact .refl s
    | exact tame_unitOver s
    | exact tame_resume s _

theorem confirmed_calm {r r' : Retained} {a : ConfirmArgs} {d : Option Rod} (h : r.confirmed a d = some r') :
    r.Calm r' := by
  unfold Retained.confirmed at h
  dsimp only at h
  obtain ⟨b, hb, hc⟩ := Option.bind_eq_some_iff.1 h
  have k : r.Calm b := by
    split at hb
    · cases hb; exact .refl _
    · exact placing_calm hb
  split at hc
  · contradiction
  · cases hc
    exact k.trans (setHold_calm _ _)

theorem tame_confirm {s : State} {r : Retained} (a : ConfirmArgs) (ho : s.ret.Onward r) (hr : s.ret.Calm r) :
    Tame s (s.confirm r a) := by
  unfold State.confirm
  dsimp only
  have h := (tame_depthFollows _ s).last (tame_rodChange ho hr .confirmed a.rod
    (if a.rod.isSome && a.place == .slot then some a.slot else none) (if a.rod.isSome then some a.place else none))
  refine (tame_releaseClaim _).last <| (tame_seqIdle _).last ?_
  have k := fun v => (tame_setSeq _ v).last h
  split
  · exact (tame_setLastOp _ _ _ _).last (k _)
  · exact k _

theorem tame_serveRodConfirm (q : Request) (s : State) : Tame s (serveRodConfirm q s).state := by
  unfold serveRodConfirm
  dsimp only
  split
  · exact .refl s
  · split
    · exact .refl s
    · split
      · exact .refl s
      · split
        · exact .refl s
        · exact tame_confirm _ (confirmed_onward ‹_›) (confirmed_calm ‹_›)

/-! ## RECORD and the job -/

theorem tame_adjust (s : State) (iv : Interval) (o c d : Nat) : Tame s (s.adjust iv o c d) := by
  unfold State.adjust
  dsimp only
  exact Tame.last (tame_setRet _ _ (.of_eq rfl rfl rfl rfl) (.of_eq rfl)) (tame_mapInterval s iv.index fun _ => ⟨rfl, rfl⟩)

theorem tame_describe (s : State) (iv : Interval) (l c : Nat) (k : DescSource) (d : Nat) :
    Tame s (s.describe iv l c k d) :=
  .ite (fun _ => tame_mapInterval s _ fun _ => ⟨rfl, rfl⟩) fun _ => (tame_adjust _ _ _ _ _).last
    (tame_mapInterval s _ fun _ => ⟨rfl, rfl⟩)

theorem tame_serveDescribe (q : Request) (s : State) : Tame s (serveDescribe q s).state := by
  unfold serveDescribe
  dsimp only
  repeat' split
  all_goals first
    | exact .refl s
    | exact tame_describe s _ _ _ _ _

theorem tame_setDown (s : State) (b : Bool) : Tame s (s.setDown b) := (moves_setDown s b).tameRet (by decide) (.of_eq rfl)

theorem tame_serveDownBegin (q : Request) (s : State) : Tame s (serveDownBegin q s).state := by
  unfold serveDownBegin
  split
  · exact .refl s
  · exact (tame_appendMark _ _ _).last (tame_setDown s _)

theorem tame_serveDownEnd (q : Request) (s : State) : Tame s (serveDownEnd q s).state := by
  unfold serveDownEnd
  split
  · exact .refl s
  · exact (tame_appendMark _ _ _).last (tame_setDown s _)

theorem tame_serveAdditive (q : Request) (s : State) : Tame s (serveAdditive q s).state := by
  unfold serveAdditive
  dsimp only
  split
  · exact .refl s
  · split
    · exact .refl s
    · exact tame_setRet s { s.ret with units := countAdd top32 s.ret.units (q.arg 0) (q.arg2 1) }
        (.of_eq rfl rfl rfl rfl) (.of_eq rfl)

theorem tame_beginClose {s : State} (k : Option CloseKind) (h : s.ret.job.code ≤ 2) : Tame s (s.beginClose k) :=
  (moves_beginClose s k h).tameRet (by decide) (.of_eq rfl)

theorem tame_closeJob {s : State} (b : Bool) (h : s.ret.job.code ≤ 2) : Tame s (s.closeJob b) := by
  have k := fun v => tame_beginClose v h
  unfold State.closeJob
  exact .ite (fun _ => .ite (fun _ => tame_abruptClose s _) fun _ => (tame_completionTest _).last (k _)) fun _ =>
    .ite (fun _ => tame_plainClose s _) fun _ => (tame_peerCloseTest _).last (k _)

theorem tame_serveJobClose (q : Request) (s : State) : Tame s (serveJobClose q s).state := by
  unfold serveJobClose
  split
  · exact .refl s
  · split
    · exact .refl s
    · rename_i h
      split
      · exact .refl s
      · refine tame_closeJob _ ?_
        cases hj : s.ret.job <;> first | exact absurd hj h | decide

end Sys2Proof.Machine

namespace Sys2Proof.Machine

/-! ## Field lines -/

theorem tame_settleRun (s : State) : Tame s
    (if s.settleExpired.2 && s.settleExpired.1.seq.state == .claiming then (s.settleExpired.1.enterStep 2).seqRun
     else s.settleExpired.1) :=
  .ite (fun _ => (tame_seqRun _).last <| (tame_enterStep _ _).last (tame_settleExpired s)) fun _ => tame_settleExpired s

theorem tame_thresholdTold (s : State) (c : ThresholdId) : Tame s (s.thresholdTold c) := by
  cases c
  · exact tame_mapPumps fun _ _ => steady_pressureTest _ _
  · exact .refl s
  · exact tame_heardUpdate s _

theorem tame_sampleTaken (s : State) (c : ThresholdId) (n : Nat) : Tame s (s.sampleTaken c n) := by
  unfold State.sampleTaken
  dsimp only
  have h := fun v => (moves_thresholds s v).tame (by decide)
  exact .ite (fun _ => .ite (fun _ => h _) fun _ => (tame_thresholdTold _ _).last (h _)) fun _ => .refl s

theorem tame_countStroke (s : State) (p : PumpId) : Tame s (s.countStroke p) := by
  cases p <;> exact (moves_countStroke s _).tameRet (by decide) (.of_eq rfl)

theorem tame_strokeAccepted (s : State) (p : PumpId) (n : Nat) : Tame s (s.strokeAccepted p n) :=
  (tame_callStrokes _ _).last <| (tame_setChan (steady_edge _ _ _ _)).last <|
    (tame_credit _ _).last (tame_countStroke s p)

theorem tame_stamp (s : State) (n : Nat) : Tame s (s.stamp n) := (moves_stamp s n).tame (by decide)

theorem tame_strokesHoldoffEnd (s : State) (p : PumpId) : Tame s (s.strokesHoldoffEnd p) := by
  unfold State.strokesHoldoffEnd
  dsimp only
  have h : Tame s (s.setChan p { s.chan p with holdoff := none, callKept := false }) := tame_setChan (.of_eq rfl rfl)
  exact .ite (fun _ => (tame_handStrokes _ _).last h) fun _ => h

theorem tame_setCirc (s : State) (v : CircUnit) : Tame s { s with circ := v } := (moves_circ s v).tame (by decide)

theorem tame_takeEvaluation (s : State) (e : Evaluation) : Tame s (s.takeEvaluation e) := by
  unfold State.takeEvaluation
  refine (tame_heardUpdate _ _).last ?_
  exact Tame.last (tame_setCirc { s with ret := { s.ret with reference := e.reference } } _)
    (tame_setRet s { s.ret with reference := e.reference } (.of_eq rfl rfl rfl rfl) (.of_eq rfl))

theorem tame_headMoved (s before : State) (b : Bool) : Tame s (s.headMoved before b) :=
  (tame_seqRun _).last <| (tame_depthFollows _ _).last <|
    .ite (fun _ => (moves_headCall s).tame (by decide)) fun _ => .refl s

theorem tame_homed (s : State) : Tame s s.homed := (tame_headMoved _ _ _).last (tame_setDepth s _)

theorem tame_turnDone (s : State) (n : Nat) : Tame s (s.turnDone n) := by
  refine (tame_wearCredit _).last ((tame_depthFollows _ _).last ?_)
  exact Tame.last (tame_setDepth { s with ret := { s.ret with
    turns := next32 s.ret.turns
    spinTurns := if s.spin.state = SpinState.running then next32 s.ret.spinTurns else s.ret.spinTurns } } _)
    (tame_setRet s { s.ret with
      turns := next32 s.ret.turns
      spinTurns := if s.spin.state = SpinState.running then next32 s.ret.spinTurns else s.ret.spinTurns }
      (.of_eq rfl rfl rfl rfl) (.of_eq rfl))

theorem tame_rotationPulse (s : State) (n : Nat) : Tame s (s.rotationPulse n) := by
  unfold State.rotationPulse
  dsimp only
  have h := fun v => tame_setDepth s v
  exact .ite (fun _ => (tame_turnDone _ _).last (h _)) fun _ => h _

theorem tame_headHoldoffEnd (s : State) : Tame s s.headHoldoffEnd := (moves_headHoldoffEnd s).tame (by decide)

theorem tame_stepTimeout (s : State) : Tame s s.stepTimeout := by
  unfold State.stepTimeout
  split
  · exact .ite (fun _ => tame_seqFault s _) fun _ => .refl s
  · exact .refl s

theorem tame_spinOver (s : State) (st : SpinState) : Tame s (s.spinOver st) :=
  .ite (fun _ => (tame_ownSpinReport _).last ((moves_spinEnd s _).tame (by decide))) fun _ => .refl s

/-! ## The job second (R147, R148) -/

theorem activityClass_lt (s : State) : s.activityClass < 8 := by
  unfold State.activityClass
  repeat' split
  all_goals decide

/-- One more in a list of counts, none of which is at the top, is one more in their sum. -/
theorem sum_countAdd {top : Nat} {l : List Nat} {i : Nat} (hi : i < l.length) (h : l.sum < top) :
    (countAdd top l i 1).sum = l.sum + 1 := by
  have hle : l[i] ≤ l.sum := List.single_le_sum (by simp) _ (List.getElem_mem hi)
  have hval : satAdd top (countAt l i) 1 = l[i] + 1 := by
    simp only [countAt, satAdd, List.getD_eq_getElem?_getD, List.getElem?_eq_getElem hi, Option.getD_some]
    omega
  have hsplit : (l.set i (l[i] + 1)).sum + l[i] = l.sum + (l[i] + 1) := by
    clear hle hval h
    induction l generalizing i with
    | nil => simp at hi
    | cons a l ih =>
      cases i with
      | zero => simp; omega
      | succ i =>
        have := ih (i := i) (by simpa using hi)
        simp only [List.set_cons_succ, List.sum_cons, List.getElem_cons_succ]
        omega
  unfold countAdd
  rw [hval]
  omega

/-- A second is charged to one class where the job time advances with it (R147, R148). -/
theorem tame_chargeSecond {s : State} (hrun : s.inRun = true) (htop : s.ret.jobTime < top32) :
    Tame s ({ s with ret := { s.ret with jobTime := s.ret.jobTime + 1 } } : State).meterSecond := by
  have hmoves : Moves [.ret] s ({ s with ret := { s.ret with jobTime := s.ret.jobTime + 1 } } : State).meterSecond :=
    (moves_meterSecond _).last (List.Subset.refl _) <|
      moves_ret s { s.ret with jobTime := s.ret.jobTime + 1 } ⟨le_rfl, Nat.min_le_right _ _, Nat.le_succ _, le_rfl⟩
  refine ⟨hmoves.all, fun _ hs => ?_, fun hs => ?_, fun _ hs => ?_⟩
  · unfold State.meterSecond
    split <;> exact hs.of_steady rfl id fun _ => .refl _
  · have hrec := hs.straps (by simpa [State.inRun] using hrun)
    have hmet := hs.metered
    unfold Retained.Metered at hmet
    rw [hrec] at hmet
    obtain ⟨hlen, hsum⟩ := hmet
    unfold State.meterSecond
    dsimp only
    split
    · rename_i hr
      have hroles : s.roles.record = true := hr
      rw [Option.any_some, hroles, if_pos rfl] at hsum
      refine ⟨?_, hs.straps⟩
      unfold Retained.Metered
      dsimp only
      rw [hrec, Option.any_some, hroles, if_pos rfl]
      refine ⟨by unfold countAdd; rw [List.length_set, hlen], ?_⟩
      rw [sum_countAdd (hlen ▸ activityClass_lt _) (by omega), hsum]
    · rename_i hr
      have hroles : ¬s.roles.record = true := hr
      rw [Option.any_some, if_neg hroles] at hsum
      refine ⟨?_, hs.straps⟩
      unfold Retained.Metered
      dsimp only
      rw [hrec, Option.any_some, if_neg hroles]
      exact ⟨hlen, hsum⟩
  · unfold State.meterSecond
    split <;> exact ⟨⟨hs.lagged.room, hs.lagged.order, hs.lagged.marks, hs.lagged.depths, hs.lagged.pumped,
      hs.lagged.string⟩, hs.config⟩

theorem tame_strataSecond (s : State) : Tame s s.strataSecond :=
  .ite (fun _ => tame_mapOpen s fun _ => ⟨rfl, rfl⟩) fun _ => .refl s

theorem tame_closingSecond (s : State) : Tame s s.closingSecond := by
  unfold State.closingSecond
  dsimp only
  refine .ite (fun _ => ?_) fun _ => .refl s
  have h : Tame s { s with ret := { s.ret with closingSeconds := s.ret.closingSeconds + 1 } } :=
    tame_setRet s _ (.of_eq rfl rfl rfl rfl) (.of_eq rfl)
  exact .ite (fun _ => .ite (fun _ => (tame_abruptClose _ _).last h) fun _ =>
    (tame_plainClose _ _).last h) fun _ => h

theorem tame_jobSecond {s : State} (hrun : s.inRun = true) : Tame s s.jobSecond := by
  unfold State.jobSecond
  dsimp only
  refine .ite (fun _ => .refl s) fun htop => ?_
  have h := (tame_closingSecond _).last <| (tame_strataSecond _).last <| tame_chargeSecond hrun (not_le.1 htop)
  exact .ite (fun _ => (tame_checkCeiling _).last h) fun _ => h

end Sys2Proof.Machine

namespace Sys2Proof.Machine

open Host

/-! ## Every command -/

/-- A command whose effect on a running station keeps the invariants. -/
def IsTame (s : State) (o : Outcome State Fault Refusal) : Prop := ∃ g, Effects s g o ∧ ∀ s, Tame s (g s)

theorem isTame_powered {s : State} {f : State → State} (h : ∀ s, Tame s (f s)) : IsTame s (.next (s.poweredDo f)) :=
  ⟨f, effects_powered s f, h⟩

theorem tame_inRun {f : State → State} (h : ∀ s, s.inRun = true → Tame s (f s)) (s : State) :
    Tame s (if s.inRun then f s else s) := .ite (h s) fun _ => .refl s

theorem isTame_run {s : State} {f : State → State} (h : ∀ s, s.inRun = true → Tame s (f s)) :
    IsTame s (.next (s.inRunDo f)) := ⟨_, effects_run s f, tame_inRun h⟩

theorem isTame_pins {s : State} {p : Pins} {f : State → State} (h : ∀ s, Tame s (f s)) :
    IsTame s (.next (({ s with pins := p }).inRunDo f)) := ⟨_, effects_pins s p f, tame_inRun fun s _ => h s⟩

theorem tame_when {s t : State} {c : Bool} (h : Tame s t) : Tame s (if c then t else s) :=
  .ite (fun _ => h) fun _ => .refl s

theorem tame_onLink (s : State) (f : LinkEnv → Link → Link)
    (h : ∀ e l, l.listenOnly = true → (f e l).listenOnly = true) : Tame s (s.onLink f) := (moves_onLink s f h).tame (by decide)

/-- A request served in RUN only. -/
theorem tame_requestRun (s : State) (r : Request) (k : QueueId) (b : State → Bool) (n : Nat)
    (f : Request → State → Served) (h : ∀ q t, t.inRun = true → Tame t (f q t).state) :
    Tame s (s.present r fun q s => s.serve k ⟨b s, n, false⟩ q f) :=
  tame_request s r k (fun s => ⟨b s, n, false⟩) f fun q t ht => h q t (ht.resolve_right (by simp))

/-- Every command but those of the supply, CONFIG_LOCK and JOB_CLEAR keeps the invariants of a running station. -/
theorem exec_isTame (c : Instr) (s : State) (h : c.isSupply = false) (hb : c ≠ .backupSupplyExhausted)
    (hl : ∀ rq, c ≠ .configLock rq) (hj : ∀ rq, c ≠ .jobClear rq) : IsTame s (exec c s) := by
  cases c with
  | powerStart => cases h
  | pinStart => cases h
  | resetAssert => cases h
  | supplyLoss => cases h
  | backupSupplyExhausted => exact absurd rfl hb
  | configLock rq => exact absurd rfl (hl rq)
  | jobClear rq => exact absurd rfl (hj rq)
  | lineQuiet => exact isTame_powered fun s => tame_when (tame_setLink s _ (by simp))
  | frameReceived b => exact isTame_powered fun s => tame_frameReceived s b
  | accessDelayExpiry =>
    refine isTame_powered fun s => ?_
    split
    · exact tame_when (tame_setLink s _ (by simp))
    · exact .refl s
  | deferral => exact isTame_powered fun s => tame_when (tame_onLink s _ fun _ _ h => by simpa using h)
  | collision =>
    refine isTame_powered fun s => ?_
    split
    · exact tame_when (tame_collide s _)
    · exact .refl s
  | frameSent => exact isTame_powered fun s => tame_when (tame_onLink s _ fun _ _ h => by simpa using h)
  | rodEventJoin =>
    refine isTame_powered fun s => ?_
    have h := tame_onLink s Link.joinFirst fun _ _ h => by simpa using h
    exact .ite (fun _ => (tame_seqRun _).last h) fun _ => h
  | lineStuck => exact isTame_powered fun s => tame_when (tame_onLink s _ fun _ _ h => by simpa using h)
  | statusPeriodExpiry => exact isTame_powered fun s => tame_when (tame_statusPeriodEnd s)
  | unknownRequest rq code =>
    exact isTame_powered fun s => .ite (fun _ => tame_arrive s _) fun _ =>
      tame_present s _ _ fun q s _ => tame_answer s _ _ _ _
  | requestEntry i => exact isTame_run fun s _ => (moves_requestEntry s i).tame (by decide)
  | answerTimeout t => exact isTame_powered fun s => tame_answerTimedOut s _
  | peerStale k => exact isTame_powered fun s => tame_peerStale s k
  | identify => exact isTame_powered fun s => tame_readOnly s _ _ _ _ fun _ _ => rfl
  | configSet rq key i k v =>
    exact isTame_powered fun s => (tame_request _ _ _ _ _ fun q t _ => tame_serveConfigSet q t).last
      ((moves_pins s _).tame (by decide))
  | statusRead => exact isTame_powered fun s => tame_readOnly s _ _ _ _ moves_serveStatusRead
  | faultClear =>
    exact isTame_powered fun s => tame_request s _ _ _ _ fun q t _ => (moves_serveFaultClear q t).tame (by decide)
  | claimClear => exact isTame_powered fun s => tame_request s _ _ _ _ fun q t _ => tame_serveClaimClear q t
  | pumpRate =>
    exact isTame_powered fun s => tame_requestRun s _ _ (fun s => s.straps.pump) _ _ fun q t => tame_servePumpRate q
  | rackLoad => exact isTame_powered fun s => tame_request s _ _ _ _ fun q t _ => tame_serveRackLoad q t
  | rackUnload => exact isTame_powered fun s => tame_request s _ _ _ _ fun q t _ => tame_serveRackUnload q t
  | stringRead => exact isTame_powered fun s => tame_readOnly s _ _ _ _ moves_serveStringRead
  | rodOp => exact isTame_powered fun s => tame_request s _ _ _ _ fun q t _ => tame_serveRodOp q t
  | rodAbort => exact isTame_powered fun s => tame_request s _ _ _ _ fun _ t _ => tame_rodAbort t
  | rodResume => exact isTame_powered fun s => tame_request s _ _ _ _ fun q t _ => tame_serveRodResume q t
  | rodConfirm => exact isTame_powered fun s => tame_request s _ _ _ _ fun q t _ => tame_serveRodConfirm q t
  | spin => exact isTame_powered fun s => tame_request s _ _ _ _ fun q t _ => (moves_serveSpin q t).tame (by decide)
  | describe => exact isTame_powered fun s => tame_request s _ _ _ _ fun q t _ => tame_serveDescribe q t
  | recordRead => exact isTame_powered fun s => tame_readOnly s _ _ _ _ moves_serveRecordRead
  | downBegin => exact isTame_powered fun s => tame_request s _ _ _ _ fun q t _ => tame_serveDownBegin q t
  | downEnd => exact isTame_powered fun s => tame_request s _ _ _ _ fun q t _ => tame_serveDownEnd q t
  | additive => exact isTame_powered fun s => tame_request s _ _ _ _ fun q t _ => tame_serveAdditive q t
  | statementRead => exact isTame_powered fun s => tame_readOnly s _ _ _ _ moves_serveStatementRead
  | jobClose => exact isTame_powered fun s => tame_request s _ _ _ _ fun q t _ => tame_serveJobClose q t
  | alarmAck => exact isTame_powered fun s => tame_request s _ _ _ _ fun q t _ => (moves_serveAlarmAck q t).tame (by decide)
  | settleExpiry => exact isTame_run fun s _ => tame_when (tame_settleRun s)
  | listenWindowEnd =>
    exact isTame_run fun s _ => tame_when <| (tame_viewSettles _).last <| ((moves_reevalPermit _).tame (by decide)).last <|
      (tame_takeTest _).last (tame_setClaims s _)
  | thresholdSample k => exact isTame_run fun s _ => tame_sampleTaken s k _
  | strokeEdge p e n =>
    refine isTame_run fun s _ => ?_
    have h := tame_stamp s n
    exact .ite (fun _ => (tame_strokeAccepted _ _ _).last h) fun _ => h
  | strokeStoppedExpiry p =>
    exact isTame_run fun s _ => tame_when <| (tame_seqRun _).last (tame_setChan (steady_strokesEnd _))
  | startTimerExpiry p => exact isTame_run fun s _ => tame_setChan (steady_startExpired _)
  | pwmPeriod p => exact isTame_run fun s _ => tame_when (tame_setChan (.of_eq rfl rfl))
  | strokesHoldoffExpiry p => exact isTame_run fun s _ => tame_when (tame_strokesHoldoffEnd s p)
  | waterPulse => exact isTame_run fun s _ => tame_when (tame_heardUpdate s _)
  | balanceEvaluation =>
    exact isTame_run fun s _ => tame_when <| (tame_takeEvaluation _ _).last (tame_setCirc s _)
  | encoderCount up =>
    exact isTame_run fun s _ => tame_when <| (tame_headMoved _ _ _).last (tame_setDepth s _)
  | topLimit level => exact isTame_pins fun s => tame_when (tame_homed s)
  | rotationPulse n =>
    refine isTame_run fun s _ => ?_
    have h := tame_stamp s n
    exact .ite (fun _ => (tame_rotationPulse _ _).last h) fun _ => h
  | rotationIdleTimeout =>
    exact isTame_run fun s _ => tame_when <| (tame_depthFollows _ _).last (tame_setDepth s _)
  | headHoldoffExpiry => exact isTame_run fun s _ => tame_when (tame_headHoldoffEnd s)
  | clampClosed => exact isTame_pins tame_seqRun
  | clampOpen => exact isTame_pins tame_seqRun
  | slotCode => exact isTame_pins tame_seqRun
  | rodPresented => exact isTame_pins tame_seqRun
  | gripped => exact isTame_pins tame_seqRun
  | slotOccupied => exact isTame_pins tame_seqRun
  | stepTimerExpiry => exact isTame_run fun s _ => tame_stepTimeout s
  | spinDoneInput level => exact isTame_pins fun s => .ite (fun _ => tame_spinOver s _) fun _ => .refl s
  | spinTimerExpiry => exact isTame_run fun s _ => tame_when (tame_spinOver s _)
  | jobSecond => exact isTame_run fun s hrun => tame_when (tame_jobSecond hrun)
  | lineBusy =>
    exact isTame_powered fun s => .ite (fun _ => tame_onLink s _ fun _ _ h => by simpa using h)
      fun _ => .ite (fun _ => .refl s) fun _ => tame_setLink s _ (by simp)
  | stopBitMissing => exact isTame_powered fun s => tame_when (tame_setLink s _ (by simp))

end Sys2Proof.Machine

namespace Sys2Proof.Machine

open Host

/-! ## The effect of a command on a station that runs -/

/-- What the effect of a command keeps of a station that runs, whatever it does to its mode. -/
structure Kept (s w : State) : Prop where
  pending : w.pending = s.pending
  straps : w.straps = s.straps
  yields : s.PumpsYield → w.PumpsYield
  charged : s.Charged → w.Charged
  tagged : s.Tagged → w.Tagged

theorem Kept.trans {s t u : State} (h : Kept s t) (k : Kept t u) : Kept s u :=
  ⟨k.pending.trans h.pending, k.straps.trans h.straps, k.yields ∘ h.yields, k.charged ∘ h.charged, k.tagged ∘ h.tagged⟩

theorem Tame.kept {s w : State} (h : Tame s w) (hp : s.powered = true) : Kept s w :=
  ⟨h.moves.other.pending, h.moves.other.straps, h.yields hp, h.charged, h.tagged hp⟩

/-! ## Stations with both pumps at rest and no tag in the lag queue -/

/-- Both pumps rest, with no duty staged. -/
def State.PumpsRest (s : State) : Prop := ∀ p, (s.chan p).Resting ∧ (s.chan p).staged = 0

theorem State.PumpsRest.yields {s : State} (h : s.PumpsRest) : s.PumpsYield :=
  ⟨fun p hd => absurd hd (by simp [(h p).2]), fun _ p => (h p).1⟩

theorem pumpsRest_of_stopped {s : State} (ha : s.pumps.a.state = .stopped ∧ s.pumps.a.staged = 0)
    (hb : s.pumps.b.state = .stopped ∧ s.pumps.b.staged = 0) : s.PumpsRest := by
  intro p
  cases p
  · exact ⟨⟨fun h => (by cases ha.1.symm.trans h), fun h => (by cases ha.1.symm.trans h)⟩, ha.2⟩
  · exact ⟨⟨fun h => (by cases hb.1.symm.trans h), fun h => (by cases hb.1.symm.trans h)⟩, hb.2⟩

theorem Retained.lagged_of_empty {r : Retained} (hlag : r.lag = []) (hpumped : r.pumped ≤ top48)
    (hstring : r.string.length ≤ 128) : r.Lagged :=
  ⟨by simp [hlag], by simp [hlag], by simp [hlag], by simp [hlag], hpumped, hstring⟩

theorem enterRun_pumpsRest (s : State) (h : Nat) : (s.enterRun h).PumpsRest :=
  pumpsRest_of_stopped ⟨rfl, rfl⟩ ⟨rfl, rfl⟩

theorem cold_lagged : Retained.cold.Lagged := Retained.lagged_of_empty rfl (by decide) (by decide)

theorem cold_metered : Retained.cold.Metered := by unfold Retained.Metered; decide

/-! ## CONFIG_LOCK (R26, R27) -/

/-- The station a lock makes, before the blocks that follow take what they hear. -/
def State.lockEntered (s : State) : State :=
  ({ s with ret := lockedRetained s.ret.items ⟨s.straps.number, s.roles, s.isPit⟩ } : State).enterRun s.depth.h

theorem lockEntered_charged (s : State) : s.lockEntered.Charged := by
  refine ⟨?_, fun _ => rfl⟩
  have hsum : Retained.cold.meters.sum = 0 := by decide
  refine ⟨cold_metered.1, hsum.trans ?_⟩
  exact (ite_self 0).symm

theorem lockEntered_tagged (s : State) : s.lockEntered.Tagged :=
  ⟨Retained.lagged_of_empty rfl cold_lagged.pumped cold_lagged.string, fun _ => rfl⟩

theorem tame_formDepth (s : State) : Tame s s.formDepth := tame_setDepth s _

theorem tame_homedCall (s : State) : Tame s s.homedCall := .ite (fun _ => (moves_headCall s).tame (by decide)) fun _ => .refl s

/-- The records of a log begun anew while no tag is queued (R133). -/
theorem tame_openLog {s : State} (h : s.ret.lag = []) (l : List Interval) :
    Tame s { s with ret := { s.ret with intervals := l } } where
  moves := (moves_ret s { s.ret with intervals := l } (.of_eq rfl rfl rfl rfl)).all
  yields _ hs := hs.of_steady rfl id fun _ => .refl _
  charged hs := ⟨hs.metered, hs.straps⟩
  tagged _ hs := ⟨Retained.lagged_of_empty h hs.lagged.pumped hs.lagged.string, hs.config⟩

theorem homedCall_ret (s : State) : s.homedCall.ret = s.ret := by
  unfold State.homedCall
  split
  · exact (moves_headCall s).other.ret (by decide)
  · rfl

/-- The station once its blocks have taken what they hear (R43, R85, R88, R105). -/
def State.lockCalled (s : State) : State :=
  let t := if s.lockEntered.isPit then s.lockEntered else s.lockEntered.setHeard s.lockEntered.heardFromPeers
  ({ t with rod := { RodUnit.start with sure := true, source := t.chooseRod } } : State).formDepth.homedCall

theorem lock_eq (s : State) :
    s.lock =
      if s.lockCalled.straps.record then
        { s.lockCalled with ret := { s.lockCalled.ret with
            intervals := [s.lockCalled.newInterval
              (s.lockCalled.cfg Item.collarDepth 0 / s.lockCalled.cfg Item.intervalLength 0)] } }
      else s.lockCalled := rfl

theorem tame_lockCalled (s : State) : Tame s.lockEntered s.lockCalled := by
  unfold State.lockCalled
  exact (tame_homedCall _).last <| (tame_formDepth _).last <| (tame_setRod _ _).last <|
    .ite (fun _ => .refl _) fun _ => tame_setHeard _ _

theorem lockCalled_lag (s : State) : s.lockCalled.ret.lag = [] := by
  unfold State.lockCalled
  dsimp only
  rw [homedCall_ret]
  split <;> rfl

/-- What a lock does once the station has entered RUN. -/
theorem tame_lockEntered (s : State) : Tame s.lockEntered s.lock := by
  rw [lock_eq]
  exact .ite (fun _ => (tame_openLog (lockCalled_lag s) _).last (tame_lockCalled s)) fun _ => tame_lockCalled s

theorem kept_lock (s : State) : Kept s s.lock := by
  have h := tame_lockEntered s
  exact ⟨h.moves.other.pending, h.moves.other.straps, fun _ => h.yields rfl (enterRun_pumpsRest _ _).yields,
    fun _ => h.charged (lockEntered_charged s), fun _ => h.tagged rfl (lockEntered_tagged s)⟩

/-! ## JOB_CLEAR (R164) -/

theorem kept_clearJob (s : State) : Kept s s.clearJob where
  pending := rfl
  straps := rfl
  yields _ := (pumpsRest_of_stopped ⟨rfl, rfl⟩ ⟨rfl, rfl⟩ : s.clearJob.PumpsRest).yields
  charged _ := ⟨cold_metered, fun h => by cases h⟩
  tagged _ := ⟨Retained.lagged_of_empty rfl cold_lagged.pumped cold_lagged.string, fun _ => rfl⟩

/-! ## Requests that are served by a block that changes the mode -/

theorem kept_present (s : State) (hp : s.powered = true) (r : Request) (f : Request → State → State)
    (h : ∀ q t, t.powered = true → Kept t (f q t)) : Kept s (s.present r f) := by
  have a := tame_arrive s r
  have ha : (s.arrive r).powered = true := a.moves.powered.trans hp
  unfold State.present
  split
  · split
    · exact ((tame_popIntake s).kept hp).trans (h _ _ hp)
    · exact a.kept hp
  · dsimp only
    split
    · exact (a.kept hp).trans (((tame_popIntake _).kept ha).trans (h _ _ ha))
    · exact a.kept hp

theorem kept_serveConfigLock (q : Request) {s : State} (hp : s.powered = true) :
    Kept s (serveConfigLock q s).state := by
  unfold serveConfigLock
  split
  · exact (Tame.refl s).kept hp
  · split
    · exact (Tame.refl s).kept hp
    · exact kept_lock s

theorem serveConfigLock_powered (q : Request) {s : State} (hp : s.powered = true) :
    (serveConfigLock q s).state.powered = true := by
  unfold serveConfigLock
  split
  · exact hp
  · split
    · exact hp
    · exact (tame_lockEntered s).moves.powered

theorem kept_lockServed (q : Request) {s : State} (hp : s.powered = true) :
    Kept s (s.serve .exchange ⟨true, 0, true⟩ q serveConfigLock) := by
  have a := fun c d => (tame_answer s .exchange q c d).kept hp
  unfold State.serve
  split
  · exact a _ _
  · split
    · exact a _ _
    · split
      · exact a _ _
      · exact (kept_serveConfigLock q hp).trans ((tame_answer _ _ _ _ _).kept (serveConfigLock_powered q hp))

theorem kept_jobClear (q : Request) {s : State} (hp : s.powered = true) : Kept s (s.jobClear q) := by
  have a := fun c d => (tame_answer s .exchange q c d).kept hp
  unfold State.jobClear
  split
  · exact a _ _
  · exact (a _ _).trans (kept_clearJob _)

/-! ## Starts (R19 to R21) -/

/-- What CHECK comes to (R19, R21). -/
inductive Checked (s : State) (straps : Straps) (src : StartSource) : State → Prop where
  | fault : Checked s straps src (s.blank straps src).startFault
  | cold : straps.goodNumber → Checked s straps src (s.blank straps src).coldStart
  | warm (r : Retained) : straps.goodNumber → s.retainedImage = some r → r.recorded = some straps.recorded →
      Checked s straps src ((s.blank straps src).warmStart r)

theorem goodNumber_of_not {straps : Straps} (h : ¬(straps.number = 0 ∨ 31 ≤ straps.number)) : straps.goodNumber := by
  unfold Straps.goodNumber; omega

theorem check_checked (s : State) (straps : Straps) (src : StartSource) :
    Checked s straps src (s.check straps src) := by
  unfold State.check
  dsimp only
  split
  · exact .fault
  · rename_i hnumber
    have hgood := goodNumber_of_not hnumber
    split
    · exact .cold hgood
    · rename_i r hr
      split
      · exact .cold hgood
      · split
        · rename_i hmatch
          exact .warm r hgood hr (beq_iff_eq.1 hmatch)
        · exact .fault

/-! ## What a command makes of a station -/

/-- The station with other images, which no block but CHECK reads. -/
def State.withImages (s : State) (i j : Image) : State := { s with first := i, second := j }

/-- A stopped station but for its images (R19, R20, R51). -/
def State.stopped (s : State) (m : Mode) : State :=
  { s with mode := m, outs := .off, pumps := ⟨s.pumps.a.undriven, s.pumps.b.undriven⟩, lastWrite := none }

/-- An image after a stop: one that was being written may be torn (log 11). -/
def State.tornImage (s : State) (torn : Bool) (id : ImageId) (i : Image) : Image :=
  if torn && s.lastWrite == some id then i.failed else i

theorem halt_eq (s : State) (m : Mode) (torn : Bool) :
    s.halt m torn = (s.stopped m).withImages (s.tornImage torn .first s.first) (s.tornImage torn .second s.second) := rfl

theorem failed_content (i : Image) : i.failed.content = i.content := by simp only [Image.failed]

theorem tornImage_content (s : State) (torn : Bool) (id : ImageId) (i : Image) :
    (s.tornImage torn id i).content = i.content := by 
  unfold State.tornImage
  split
  · exact failed_content i
  · rfl

/-- How a command ends: what it makes of a station that runs, a start, a stop, or nothing but the level of a pin. -/
inductive Ends (s : State) : State → Prop where
  | idle (p : Pins) : s.powered = false → Ends s { s with pins := p }
  | same : Ends s s
  | worked (p : Pins) (w : State) : s.powered = true → Kept s w → Ends s (State.finish { s with pins := p } w)
  | started (straps : Straps) (src : StartSource) {t : State} : Checked s straps src t → Ends s t
  | halted (m : Mode) (i j : Image) : m = .off ∨ m = .resetHeld → i.content = s.first.content →
      j.content = s.second.content → Ends s ((s.stopped m).withImages i j)
  | exhausted (i j : Image) : s.mode = .off → i.content = s.first.content → j.content = s.second.content →
      Ends s (s.withImages i j)

theorem ends_halt (s : State) {m : Mode} (torn : Bool) (hm : m = .off ∨ m = .resetHeld) : Ends s (s.halt m torn) :=
  halt_eq s m torn ▸ .halted m _ _ hm (tornImage_content _ _ _ _) (tornImage_content _ _ _ _)

theorem kept_pins (s : State) (p : Pins) (hp : s.powered = true) : Kept s { s with pins := p } :=
  ((moves_pins s p).tame (by decide)).kept hp

theorem ends_powered (s : State) {f : State → State} (h : ∀ s, s.powered = true → Kept s (f s)) :
    Ends s (s.poweredDo f) := by
  unfold State.poweredDo
  split
  · rename_i hp
    exact .worked s.pins _ hp (h s hp)
  · exact .same

theorem IsTame.ends {s : State} {o : Outcome State Fault Refusal} (h : IsTame s o) : ∃ t, o = .next t ∧ Ends s t := by
  obtain ⟨g, ⟨p, rfl⟩, hg⟩ := h
  refine ⟨_, rfl, ?_⟩
  unfold State.poweredDo
  split
  · rename_i hp
    exact .worked p _ hp ((kept_pins s p hp).trans ((hg _).kept hp))
  · rename_i hp
    exact .idle p (Bool.eq_false_iff.2 hp)

/-- Every command answers a next state, which it comes to in one of these ways. -/
theorem exec_ends (c : Instr) (s : State) : ∃ t, exec c s = .next t ∧ Ends s t := by
  cases hc : c with
  | powerStart straps => exact ⟨_, rfl, .started straps .power (check_checked s straps .power)⟩
  | pinStart straps =>
    refine ⟨_, rfl, ?_⟩
    split
    · exact .same
    · exact .started straps .pin (check_checked s straps .pin)
  | resetAssert torn =>
    refine ⟨_, rfl, ?_⟩
    split
    · exact .same
    · exact ends_halt s torn (.inr rfl)
  | supplyLoss torn => exact ⟨_, rfl, ends_halt s torn (.inl rfl)⟩
  | backupSupplyExhausted =>
    refine ⟨_, rfl, ?_⟩
    split
    · exact .exhausted _ _ ‹_› (failed_content s.first) (failed_content s.second)
    · exact .same
  | configLock rq =>
    exact ⟨_, rfl, ends_powered s fun s hp => kept_present s hp _ _ fun q t ht => kept_lockServed q ht⟩
  | jobClear rq => exact ⟨_, rfl, ends_powered s fun s hp => kept_present s hp _ _ fun q t ht => kept_jobClear q ht⟩
  | _ => exact (exec_isTame _ s rfl (by simp) (by simp) (by simp)).ends

end Sys2Proof.Machine

namespace Sys2Proof.Machine

open Host

/-! ## WARM starts (R21, R43, R125) -/

/-- The station a WARM start brings to RUN, before its own claim is settled (R21). -/
def State.warmFresh (s : State) (r : Retained) : State :=
  let t := ({ s with startKind := .warm, ret := { r with balState := .suspended, reference := none } } : State).enterRun 0
  { t with link := { t.link with statusTimer := some t.statusPeriod } }

/-- The same with the sequencer and the own claim as a WARM start leaves them (R43, R125). -/
def State.warmEntered (s : State) (r : Retained) : State := (s.warmFresh r).warmClaim

theorem warmStart_eq (s : State) (r : Retained) :
    s.warmStart r = State.finish { s with startKind := .warm, ret := r }
      (s.warmEntered r).formDepth.homedCall.warmStrata.warmBilling := rfl

/-- The own claim and the unit are all that changes in the retained state (R43, R125). -/
theorem warmClaim_ret (s : State) : ∃ c u, s.warmClaim.ret = { s.ret with claim := c, unit := u } := by
  unfold State.warmClaim
  have h := fun t => (moves_announceClaim t).other.ret (by decide)
  split
  · exact ⟨s.ret.claim, s.ret.unit, h _⟩
  · exact ⟨.absent, s.ret.unit, h _⟩
  · exact ⟨.absent, none, rfl⟩
  · exact ⟨.absent, s.ret.unit, rfl⟩

theorem warmClaim_leaves (s : State) : LeavesOther [.ret, .link, .seq, .claims] s s.warmClaim := by
  unfold State.warmClaim
  have h := fun t => (moves_announceClaim t).other
  split
  · exact (LeavesOther.trans (p := [.seq, .claims]) (by constructor <;> first | rfl | (intro _; rfl) | simp) (h _)).mono
      (by decide)
  · exact (LeavesOther.trans (p := [.ret]) (by constructor <;> first | rfl | (intro _; rfl) | simp) (h _)).mono
      (by decide)
  · constructor <;> first | rfl | (intro _; rfl) | simp
  · constructor <;> first | rfl | (intro _; rfl) | simp

theorem warmEntered_pumpsRest (s : State) (r : Retained) : (s.warmEntered r).PumpsRest := by
  have h := (warmClaim_leaves (s.warmFresh r)).pumps (by decide)
  exact pumpsRest_of_stopped ⟨congrArg (·.a.state) h, congrArg (·.a.staged) h⟩
    ⟨congrArg (·.b.state) h, congrArg (·.b.staged) h⟩

theorem warmEntered_mode (s : State) (r : Retained) : (s.warmEntered r).mode = .run := (warmClaim_leaves _).mode

theorem warmEntered_powered (s : State) (r : Retained) : (s.warmEntered r).powered = true := by
  unfold State.powered; rw [warmEntered_mode]; rfl

theorem warmEntered_straps (s : State) (r : Retained) : (s.warmEntered r).straps = s.straps := (warmClaim_leaves _).straps

theorem warmEntered_charged {s : State} {r : Retained} (hr : r.Metered) (hrec : r.recorded = some s.straps.recorded) :
    (s.warmEntered r).Charged := by
  obtain ⟨c, u, h⟩ := warmClaim_ret (s.warmFresh r)
  refine ⟨?_, fun _ => ?_⟩
  · exact h ▸ hr
  · have hstraps := warmEntered_straps s r
    simp only [State.roles, State.isPit, hstraps]
    exact (congrArg Retained.recorded h).trans hrec

theorem warmEntered_tagged {r : Retained} (s : State) (hr : r.Lagged) : (s.warmEntered r).Tagged := by
  obtain ⟨c, u, h⟩ := warmClaim_ret (s.warmFresh r)
  refine ⟨?_, fun hm => by simp [warmEntered_mode] at hm⟩
  exact h ▸ ⟨hr.room, hr.order, hr.marks, hr.depths, hr.pumped, hr.string⟩

theorem tame_warmStrata (s : State) : Tame s s.warmStrata :=
  .ite (fun _ => (tame_mapOpen _ (by exact fun _ => ⟨rfl, rfl⟩)).last <| (tame_appendMark _ _ _).last (tame_closeZones s _)) fun _ => .refl s

theorem tame_warmBilling (s : State) : Tame s s.warmBilling := by
  unfold State.warmBilling
  refine .ite (fun _ => ?_) fun _ => tame_peerCloseTest s
  split
  · exact (moves_billing s _).tame (by decide)
  · exact .refl s
  · exact (tame_completionTest _).last (tame_checkCeiling s)

/-- What a WARM start does once the station has entered RUN. -/
theorem tame_warmTail (s : State) : Tame s s.formDepth.homedCall.warmStrata.warmBilling :=
  (tame_warmBilling _).last <| (tame_warmStrata _).last <| (tame_homedCall _).last (tame_formDepth s)

/-! ## The end of a step -/

theorem mem_records_finish {s w : State} {r : Retained} (h : r ∈ (State.finish s w).records) :
    r = w.ret ∨ r = s.first.content ∨ r = s.second.content := by
  have hi := finish_images s w
  unfold ImagesFollow at hi
  unfold State.records at h
  rw [finish_ret] at hi h
  simp only [List.mem_cons, List.not_mem_nil, or_false] at h
  split at hi
  · rw [hi.1, hi.2] at h; exact h
  · split at hi
    · rw [hi.1, hi.2] at h
      simp only [Image.written] at h
      tauto
    · rw [hi.1, hi.2] at h
      simp only [Image.written] at h
      tauto

theorem mem_records_content {s : State} {r : Retained} (h : r = s.first.content ∨ r = s.second.content) : r ∈ s.records := by
  unfold State.records
  simp only [List.mem_cons, List.not_mem_nil, or_false]
  exact .inr h

theorem finish_yields {s w : State} (h : w.PumpsYield) : (State.finish s w).PumpsYield := by
  have ha := (moves_alarmsFollow w).other
  have hret := finish_ret s w
  have hpumps : (State.finish s w).pumps = w.pumps := ha.pumps (by decide)
  refine h.of_steady (finish_mode s w) (fun k => ?_) fun p => ?_
  · rwa [viewHolds_congr (congrArg _ hret) (ha.peers (by decide)) (finish_straps s w)] at k
  · unfold State.chan; rw [hpumps]; exact .refl _

theorem retained_content {s : State} {r : Retained} (h : s.retainedImage = some r) :
    r = s.first.content ∨ r = s.second.content := by
  unfold State.retainedImage at h
  split at h
  · exact .inl (Option.some.inj h).symm
  · exact .inr (Option.some.inj h).symm
  · cases h

theorem charged_iff (s : State) : s.Metered ↔ s.Charged ∧ s.first.content.Metered ∧ s.second.content.Metered := by
  constructor
  · intro h
    exact ⟨⟨h.records _ (by simp [State.records]), h.straps⟩, h.records _ (by simp [State.records]),
      h.records _ (by simp [State.records])⟩
  · rintro ⟨hs, hf, hn⟩
    refine ⟨fun r hr => ?_, hs.straps⟩
    simp only [State.records, List.mem_cons, List.not_mem_nil, or_false] at hr
    obtain rfl | rfl | rfl := hr
    · exact hs.metered
    · exact hf
    · exact hn

theorem lagsInOrder_iff (s : State) :
    s.LagsInOrder ↔ s.Tagged ∧ s.first.content.Lagged ∧ s.second.content.Lagged := by
  have hiff : ∀ r, ({ s with ret := r } : State).LagInOrder ↔ r.Lagged := fun r => lagInOrder_iff _
  constructor
  · intro h
    exact ⟨⟨(hiff _).1 (h.records _ (by simp [State.records])), h.config⟩,
      (hiff _).1 (h.records _ (by simp [State.records])), (hiff _).1 (h.records _ (by simp [State.records]))⟩
  · rintro ⟨hs, hf, hn⟩
    refine ⟨fun r hr => (hiff r).2 ?_, hs.config⟩
    simp only [State.records, List.mem_cons, List.not_mem_nil, or_false] at hr
    obtain rfl | rfl | rfl := hr
    · exact hs.lagged
    · exact hf
    · exact hn

theorem finish_metered {s w : State} (hw : w.Charged) (hf : s.first.content.Metered) (hn : s.second.content.Metered) :
    (State.finish s w).Metered := by
  refine ⟨fun r hr => ?_, fun hm => ?_⟩
  · obtain rfl | rfl | rfl := mem_records_finish hr
    · exact hw.metered
    · exact hf
    · exact hn
  · rw [finish_mode] at hm
    simp only [State.roles, State.isPit, finish_straps, finish_ret]
    exact hw.straps hm

theorem finish_lagsInOrder {s w : State} (hw : w.Tagged) (hf : s.first.content.Lagged) (hn : s.second.content.Lagged) :
    (State.finish s w).LagsInOrder := by
  refine ⟨fun r hr => (lagInOrder_iff _).2 ?_, fun hm => ?_⟩
  · obtain rfl | rfl | rfl := mem_records_finish hr
    · exact hw.lagged
    · exact hf
    · exact hn
  · rw [finish_mode] at hm
    rw [finish_ret]
    exact hw.config hm

/-! ## Other images in place of a station's own -/

theorem withImages_outputs {s : State} (h : s.OutputsAgree) (i j : Image) : (s.withImages i j).OutputsAgree := h

theorem withImages_yields {s : State} (h : s.PumpsYield) (i j : Image) : (s.withImages i j).PumpsYield :=
  h.of_steady rfl id fun _ => .refl _

theorem withImages_charged {s : State} (h : s.Charged) (i j : Image) : (s.withImages i j).Charged := ⟨h.metered, h.straps⟩

theorem withImages_tagged {s : State} (h : s.Tagged) (i j : Image) : (s.withImages i j).Tagged := ⟨h.lagged, h.config⟩

theorem withImages_metered {s : State} (h : s.Charged) {i j : Image} (hi : i.content.Metered) (hj : j.content.Metered) :
    (s.withImages i j).Metered := (charged_iff _).2 ⟨withImages_charged h i j, hi, hj⟩

theorem withImages_lagsInOrder {s : State} (h : s.Tagged) {i j : Image} (hi : i.content.Lagged) (hj : j.content.Lagged) :
    (s.withImages i j).LagsInOrder := (lagsInOrder_iff _).2 ⟨withImages_tagged h i j, hi, hj⟩

theorem stopped_yields {s : State} (h : s.PumpsYield) {m : Mode} (hm : m ≠ .config) : (s.stopped m).PumpsYield := by
  refine ⟨fun p hd => absurd hd (by cases p <;> exact lt_irrefl 0), fun hc p => ?_⟩
  have hview : s.viewHolds = true := hc.resolve_right hm
  cases p
  · exact h.yields (.inl hview) .a
  · exact h.yields (.inl hview) .b

/-! ## What each end keeps -/

theorem checked_pending {s t : State} {straps : Straps} {src : StartSource} (h : Checked s straps src t) :
    t.pending = s.pending := by cases h <;> rfl

theorem Ends.pending {s t : State} (h : Ends s t) : t.pending = s.pending := by
  cases h with
  | started straps src h => exact checked_pending h
  | _ => rfl

theorem not_inRun_of_unpowered {s : State} (h : s.powered = false) : s.inRun = false := by
  unfold State.powered at h
  simpa [State.inRun] using (Bool.or_eq_false_iff.1 h).2

theorem alarmsSettled_of_not_run {s : State} (h : s.inRun = false) : s.AlarmsSettled :=
  fun k => absurd k (by simp [h])

theorem Ends.alarmsSettled {s t : State} (h : Ends s t) (hs : s.AlarmsSettled) : t.AlarmsSettled := by
  cases h with
  | idle p hp => exact alarmsSettled_of_not_run (not_inRun_of_unpowered hp)
  | same => exact hs
  | worked p w hp hw => exact finish_settled _ w
  | started straps src hstart =>
    cases hstart with
    | fault => exact alarmsSettled_of_not_run rfl
    | cold => exact alarmsSettled_of_not_run rfl
    | warm r => rw [warmStart_eq]; exact finish_settled _ _
  | halted m i j hm hi hj => obtain rfl | rfl := hm <;> exact alarmsSettled_of_not_run rfl
  | exhausted i j hm hi hj => exact alarmsSettled_of_not_run (by simp [State.inRun, State.withImages, hm])

theorem outputsAgree_of_off {s : State} (h : s.inRun = false) (ho : s.outs = .off) : s.OutputsAgree := by
  unfold State.OutputsAgree State.outputsNow
  rw [ho]
  exact (if_neg (Bool.eq_false_iff.1 h)).symm

theorem Ends.outputsAgree {s t : State} (h : Ends s t) (hs : s.OutputsAgree) : t.OutputsAgree := by
  cases h with
  | idle p hp => exact hs
  | same => exact hs
  | worked p w hp hw => exact finish_outputs _ w
  | started straps src hstart =>
    cases hstart with
    | fault => exact outputsAgree_of_off rfl rfl
    | cold => exact outputsAgree_of_off rfl rfl
    | warm r => rw [warmStart_eq]; exact finish_outputs _ _
  | halted m i j hm hi hj => obtain rfl | rfl := hm <;> exact outputsAgree_of_off rfl rfl
  | exhausted i j hm hi hj => exact withImages_outputs hs _ _

theorem outs_off_of_agree {s : State} (h : s.OutputsAgree) (hm : s.mode ≠ .run) : s.outs = Outputs.off := by
  unfold State.OutputsAgree State.outputsNow at h
  rw [h]
  exact if_neg (by simpa [State.inRun] using hm)

theorem Ends.numberGood {s t : State} (h : Ends s t) (hs : s.NumberGood) : t.NumberGood := by
  have stopped : ∀ {u : State}, u.powered = false → u.NumberGood := fun hu k => absurd k (by simp [hu])
  cases h with
  | idle p hp => exact stopped hp
  | same => exact hs
  | worked p w hp hw =>
    intro _
    rw [finish_straps, hw.straps]
    exact hs hp
  | started straps src hstart =>
    cases hstart with
    | fault => exact stopped rfl
    | cold hgood => exact fun _ => hgood
    | warm r hgood =>
      intro _
      rw [warmStart_eq, finish_straps, (tame_warmTail _).moves.other.straps, warmEntered_straps]
      exact hgood
  | halted m i j hm hi hj => obtain rfl | rfl := hm <;> exact stopped rfl
  | exhausted i j hm hi hj => exact stopped (by unfold State.powered State.withImages; simp [hm])

theorem cold_retained (s : State) : s.coldStart.retainedImage = some s.coldStart.ret := by
  have h : newestGood s.coldStart.first s.coldStart.second = some .second := by
    unfold newestGood
    rw [show s.coldStart.first = .written .cold 0 from rfl, show s.coldStart.second = .written .cold 1 from rfl,
      good_written, good_written, Bool.and_self, if_pos rfl]
    exact if_pos (by decide)
  unfold State.retainedImage
  rw [h]
  rfl

theorem Ends.imagesAgree {s t : State} (h : Ends s t) (hs : s.ImagesAgree) : t.ImagesAgree := by
  have stopped : ∀ {u : State}, u.powered = false → u.ImagesAgree := fun hu k => absurd k (by simp [hu])
  cases h with
  | idle p hp => exact stopped hp
  | same => exact hs
  | worked p w hp hw => exact fun _ => finish_retained _ w (hs hp)
  | started straps src hstart =>
    cases hstart with
    | fault => exact stopped rfl
    | cold => exact fun _ => cold_retained _
    | warm r _ hr => rw [warmStart_eq]; exact fun _ => finish_retained _ _ hr
  | halted m i j hm hi hj => obtain rfl | rfl := hm <;> exact stopped rfl
  | exhausted i j hm hi hj => exact stopped (by unfold State.powered State.withImages; simp [hm])

theorem Ends.pumpsYield {s t : State} (h : Ends s t) (hs : s.PumpsYield) : t.PumpsYield := by
  cases h with
  | idle p hp => exact hs.of_steady rfl id fun _ => .refl _
  | same => exact hs
  | worked p w hp hw => exact finish_yields (hw.yields hs)
  | started straps src hstart =>
    have hrest : (s.blank straps src).PumpsRest := pumpsRest_of_stopped ⟨rfl, rfl⟩ ⟨rfl, rfl⟩
    cases hstart with
    | fault => exact (show (s.blank straps src).startFault.PumpsRest from hrest).yields
    | cold => exact (show (s.blank straps src).coldStart.PumpsRest from hrest).yields
    | warm r =>
      rw [warmStart_eq]
      exact finish_yields ((tame_warmTail _).yields (warmEntered_powered _ r) (warmEntered_pumpsRest _ r).yields)
  | halted m i j hm hi hj =>
    exact withImages_yields (stopped_yields hs (by obtain rfl | rfl := hm <;> exact nofun)) _ _
  | exhausted i j hm hi hj => exact withImages_yields hs _ _

theorem Ends.metered {s t : State} (h : Ends s t) (hs : s.Metered) : t.Metered := by
  obtain ⟨hcharged, hf, hn⟩ := (charged_iff s).1 hs
  cases h with
  | idle p hp => exact (charged_iff _).2 ⟨⟨hcharged.metered, hcharged.straps⟩, hf, hn⟩
  | same => exact hs
  | worked p w hp hw => exact finish_metered (hw.charged hcharged) hf hn
  | started straps src hstart =>
    cases hstart with
    | fault => exact (charged_iff _).2 ⟨⟨hcharged.metered, fun k => by cases k⟩, hf, hn⟩
    | cold => exact (charged_iff _).2 ⟨⟨cold_metered, fun k => by cases k⟩, cold_metered, cold_metered⟩
    | warm r _ hr hrec =>
      have hmet : r.Metered := by obtain rfl | rfl := retained_content hr <;> assumption
      rw [warmStart_eq]
      exact finish_metered ((tame_warmTail _).charged (warmEntered_charged hmet hrec)) hf hn
  | halted m i j hm hi hj =>
    refine withImages_metered (s := s.stopped m) ⟨hcharged.metered, fun k => ?_⟩ ?_ ?_
    · obtain rfl | rfl := hm <;> cases k
    · rwa [hi]
    · rwa [hj]
  | exhausted i j hm hi hj => exact withImages_metered hcharged (hi ▸ hf) (hj ▸ hn)

theorem Ends.lagsInOrder {s t : State} (h : Ends s t) (hs : s.LagsInOrder) : t.LagsInOrder := by
  obtain ⟨htagged, hf, hn⟩ := (lagsInOrder_iff s).1 hs
  cases h with
  | idle p hp => exact (lagsInOrder_iff _).2 ⟨⟨htagged.lagged, htagged.config⟩, hf, hn⟩
  | same => exact hs
  | worked p w hp hw => exact finish_lagsInOrder (hw.tagged htagged) hf hn
  | started straps src hstart =>
    cases hstart with
    | fault => exact (lagsInOrder_iff _).2 ⟨⟨htagged.lagged, fun k => by cases k⟩, hf, hn⟩
    | cold => exact (lagsInOrder_iff _).2 ⟨⟨cold_lagged, fun _ => rfl⟩, cold_lagged, cold_lagged⟩
    | warm r _ hr =>
      have hlag : r.Lagged := by obtain rfl | rfl := retained_content hr <;> assumption
      rw [warmStart_eq]
      exact finish_lagsInOrder ((tame_warmTail _).tagged (warmEntered_powered _ r) (warmEntered_tagged _ hlag)) hf hn
  | halted m i j hm hi hj =>
    refine withImages_lagsInOrder (s := s.stopped m) ⟨htagged.lagged, fun k => ?_⟩ ?_ ?_
    · obtain rfl | rfl := hm <;> cases k
    · rwa [hi]
    · rwa [hj]
  | exhausted i j hm hi hj => exact withImages_lagsInOrder htagged (hi ▸ hf) (hj ▸ hn)

/-! ## A step -/

/-- A step keeps what holds of every queue and what each end of a command keeps. -/
theorem step_keeps {P : State → Prop} (hqueue : ∀ (s : State) l, P s → P { s with pending := l })
    (hends : ∀ s t, Ends s t → P s → P t) {s t : State} (h : step s = .next t) (hs : P s) : P t := by
  unfold step at h
  split at h
  · cases h; exact hs
  · rename_i c rest _
    obtain ⟨u, hu, k⟩ := exec_ends c { s with pending := rest }
    rw [hu] at h
    cases h
    exact hends _ _ k (hqueue s rest hs)

end Sys2Proof.Machine

namespace Sys2Proof

open Machine Host

/-- Settles O1. -/
theorem stepRunsFrontCommand : Obligations.StepRunsFrontCommand := by
  unfold Obligations.StepRunsFrontCommand
  intro s
  constructor
  · intro h; unfold step; rw [h]
  · intro c rest h; unfold step; rw [h]

/-- Settles O2: every command ends in one of the ways of `exec_ends`, none of which touches the queue. -/
theorem everyCommandCompletes : Obligations.EveryCommandCompletes := by
  unfold Obligations.EveryCommandCompletes
  intro c s
  obtain ⟨t, ht, h⟩ := exec_ends c s
  exact ⟨t, ht, h.pending⟩

/-- Settles O3: the end of every effect lets the flags follow. -/
theorem stepKeepsAlarmsSettled : Obligations.StepKeepsAlarmsSettled := by
  unfold Obligations.StepKeepsAlarmsSettled
  exact fun s t hs h => step_keeps (P := State.AlarmsSettled) (fun _ _ k => k) (fun _ _ => Ends.alarmsSettled) h hs

/-- Settles O4. -/
theorem stepKeepsOutputsAndNumber : Obligations.StepKeepsOutputsAndNumber := by
  unfold Obligations.StepKeepsOutputsAndNumber
  refine fun s t h => ⟨fun hs => ?_, fun hs => ?_⟩
  · have ht := step_keeps (P := State.OutputsAgree) (fun _ _ k => k) (fun _ _ => Ends.outputsAgree) h hs
    exact ⟨ht, outs_off_of_agree ht⟩
  · exact step_keeps (P := State.NumberGood) (fun _ _ k => k) (fun _ _ => Ends.numberGood) h hs

/-- Settles O5: a changed retained state is written with the next number. -/
theorem stepKeepsImagesAgree : Obligations.StepKeepsImagesAgree := by
  unfold Obligations.StepKeepsImagesAgree
  exact fun s t hs h => step_keeps (P := State.ImagesAgree) (fun _ _ k => k) (fun _ _ => Ends.imagesAgree) h hs

/-- Settles O6, from what each operation does to the two channels and to the claim view. -/
theorem stepKeepsPumpsYielding : Obligations.StepKeepsPumpsYielding := by
  unfold Obligations.StepKeepsPumpsYielding
  intro s t hs h
  have ht := step_keeps (P := State.PumpsYield) (fun _ _ k => ⟨k.driven, k.yields⟩) (fun _ _ => Ends.pumpsYield) h hs
  refine ⟨ht, fun hview p => ?_⟩
  obtain ⟨hstart, hrun⟩ := ht.yields (.inl hview) p
  exact ⟨hstart, hrun, Nat.eq_zero_of_not_pos fun hd => (ht.driven p hd).elim hstart hrun⟩

/-- Settles O7: a second is charged to one class where the job time advances with it. -/
theorem stepKeepsMetersSummed : Obligations.StepKeepsMetersSummed := by
  unfold Obligations.StepKeepsMetersSummed
  intro s t hs h
  have ht := step_keeps (P := State.Metered) (fun _ _ k => ⟨k.records, k.straps⟩) (fun _ _ => Ends.metered) h hs
  refine ⟨ht, fun hm hrec => ?_⟩
  have hmet := (ht.records t.ret (by simp [State.records])).2
  rw [ht.straps hm] at hmet
  exact hmet.trans (if_pos hrec)

/-- Settles O8: tags leave at the front, and a rise of H adds them at the back in order of depth. -/
theorem stepKeepsTheLagQueueInOrder : Obligations.StepKeepsTheLagQueueInOrder := by
  unfold Obligations.StepKeepsTheLagQueueInOrder
  intro s t hs h
  have ht := step_keeps (P := State.LagsInOrder) (fun s l k => ?_) (fun _ _ => Ends.lagsInOrder) h hs
  · obtain ⟨htagged, -, -⟩ := (lagsInOrder_iff t).1 ht
    exact ⟨ht, htagged.lagged.room, htagged.lagged.order, htagged.lagged.string⟩
  · obtain ⟨htagged, hf, hn⟩ := (lagsInOrder_iff s).1 k
    exact (lagsInOrder_iff _).2 ⟨⟨htagged.lagged, htagged.config⟩, hf, hn⟩

/-- Settles O9. -/
theorem resetIsSound : Obligations.ResetIsSound := by
  unfold Obligations.ResetIsSound
  refine ⟨⟨alarmsSettled_of_not_run rfl, rfl, nofun, nofun⟩, ?_, ?_, ?_, rfl, rfl, rfl⟩
  · exact (pumpsRest_of_stopped ⟨rfl, rfl⟩ ⟨rfl, rfl⟩ : State.reset.PumpsRest).yields
  · exact (charged_iff _).2 ⟨⟨cold_metered, nofun⟩, cold_metered, cold_metered⟩
  · exact (lagsInOrder_iff _).2 ⟨⟨cold_lagged, nofun⟩, cold_lagged, cold_lagged⟩

/-- What a command of a station in RUN may do to what the statement compares. -/
theorem runGoesOnward_of_moves {s w t : State} {p : Pins} (hmoves : Moves allParts { s with pins := p } w)
    (ht : t = State.finish { s with pins := p } w) (hrun : s.mode = .run) :
    t.mode = .run ∧ t.straps = s.straps ∧ t.startKind = s.startKind ∧ t.startSource = s.startSource ∧
      (s.link.listenOnly = true → t.link.listenOnly = true) ∧ s.ret.hole ≤ t.ret.hole ∧
      (s.ret.pumped ≤ top48 → s.ret.pumped ≤ t.ret.pumped) ∧ s.ret.jobTime ≤ t.ret.jobTime ∧
      s.ret.job.code ≤ t.ret.job.code := by
  subst ht
  have hfinish := other_finish { s with pins := p } w hmoves.other
  have honward := hmoves.onward
  rw [finish_ret]
  refine ⟨hfinish.mode.trans hrun, hfinish.straps, hfinish.startKind, hfinish.startSource, fun hl => ?_,
    honward.hole, fun htop => ?_, honward.jobTime, honward.job⟩
  · rw [finish_link]
    exact (moves_alarmsFollow w).silent (hmoves.silent hl)
  · have := honward.pumped
    exact (min_eq_right htop).symm.le.trans this

/-- Settles O10. -/
theorem runGoesOnward : Obligations.RunGoesOnward := by
  unfold Obligations.RunGoesOnward
  intro c s t hrun hsupply hclear ht
  have hpow : ∀ p : Pins, ({ s with pins := p } : State).powered = true := fun p => by
    unfold State.powered; simp [hrun]
  by_cases hb : c = .backupSupplyExhausted
  · subst hb
    have hsame : t = s := by
      have : exec .backupSupplyExhausted s = .next s := congrArg Outcome.next (if_neg (by simp [hrun]))
      rw [this] at ht
      cases ht
      rfl
    subst hsame
    exact ⟨hrun, rfl, rfl, rfl, id, le_rfl, fun _ => le_rfl, le_rfl, le_rfl⟩
  by_cases hl : ∃ rq, c = .configLock rq
  · obtain ⟨rq, rfl⟩ := hl
    have hw := lock_in_run s rq (by simp [State.inRun, hrun])
    refine runGoesOnward_of_moves (p := s.pins) hw ?_ hrun
    have hexec : exec (.configLock rq) s = .next (State.finish s (s.present (requestOf rq configLockCode [])
        fun q s => s.serve .exchange ⟨true, 0, true⟩ q serveConfigLock)) :=
      congrArg Outcome.next (if_pos (hpow s.pins))
    rw [hexec] at ht
    cases ht
    rfl
  obtain ⟨g, ⟨p, hg⟩, htame⟩ := exec_isTame c s hsupply hb (fun rq h => hl ⟨rq, h⟩) hclear
  rw [hg] at ht
  refine runGoesOnward_of_moves (p := p) (htame _).moves ?_ hrun
  unfold State.poweredDo at ht
  rw [if_pos (hpow p)] at ht
  cases ht
  rfl

end Sys2Proof

/-! The link unit's own commands (O14, O15, O17, O18): what the line, the sender and the arbiter come to, as equations
of the link unit, and the statements assembled from them. -/

namespace Sys2Proof.Machine

open Host

/-! ## A command of a station that runs -/

section Commands

variable {c : Instr} {s w : State} {f : State → State}

/-- The effect of a command settles with the alarm unit's following (R166). -/
theorem exec_settles (hexec : exec c s = .next (s.poweredDo f)) (hp : s.powered = true) (hw : f s = w)
    (hpending : w.pending = s.pending) : ∃ t, exec c s = .next t ∧ Settles s w t := by
  subst hw
  refine ⟨_, hexec, ?_⟩
  rw [State.poweredDo, if_pos hp]
  exact finish_settles s _ hpending

/-- Where the effect leaves every flag as its condition stands, it is all there is. -/
theorem exec_leaves (hexec : exec c s = .next (s.poweredDo f)) (hp : s.powered = true) (hw : f s = w)
    (hpending : w.pending = s.pending) (hsettled : w.AlarmsSettled) :
    ∃ t, exec c s = .next t ∧ Leaves [] s w t := by
  subst hw
  refine ⟨_, hexec, ?_⟩
  rw [State.poweredDo, if_pos hp]
  exact finish_leaves s _ hpending hsettled

theorem leavesOther_link (s : State) (l : Link) : LeavesOther [.link] s { s with link := l } := by
  constructor <;> first | rfl | exact fun _ => rfl | exact fun h => absurd (by decide) h

/-- A command of the link unit that leaves the fault record. -/
theorem exec_link {l : Link} (hexec : exec c s = .next (s.poweredDo f)) (hp : s.powered = true)
    (hs : s.AlarmsSettled) (hw : f s = { s with link := l }) (hfault : l.fault = s.link.fault) :
    ∃ t, exec c s = .next t ∧ Leaves [] s { s with link := l } t :=
  exec_leaves hexec hp hw rfl (settled_of_link (leavesOther_link s l) hfault hs)

end Commands

/-! ## The line (R1, R2, R5) -/

theorem goQuiet_eq (e : LinkEnv) (trailing : Bool) (l : Link) :
    l.goQuiet e trailing = { l with
      lineBusy := false
      stuck := false
      rx := .idle
      rxErrors :=
        if l.rx = .gathering ∨ l.rx = .trailing ∨ (l.rx = .complete ∧ trailing = true) then min 255 (l.rxErrors + 1)
        else l.rxErrors
      inHand := l.inHand.map fun h => { h with delay := some ((if h.frame.urgent then 0 else 32) + e.own) } } := by
  unfold Link.goQuiet
  cases hrx : l.rx <;> cases trailing <;> simp [Link.rxError, satAdd, accessDelay]

theorem goBusy_of_no_delay {l : Link} (h : ∀ i, l.inHand = some i → i.delay = none) (e : LinkEnv) :
    l.goBusy e = { l with lineBusy := true, rx := .gathering } := by
  unfold Link.goBusy
  dsimp only
  split
  · rename_i i hi
    rw [if_neg (by simp [h i hi])]
  · rfl

theorem gather_eq (l : Link) : l.gather = { l with rx := if l.rx = .idle then .gathering else l.rx } := by
  unfold Link.gather
  split <;> rfl

theorem stopBitMissing_eq (l : Link) :
    l.stopBitMissing = { l with
      rx := if l.rx = .complete ∨ l.rx = .trailing then .trailing else .idle
      rxErrors := if l.rx = .complete ∨ l.rx = .trailing then l.rxErrors else min 255 (l.rxErrors + 1) } := by
  unfold Link.stopBitMissing
  obtain ⟨⟩ := l
  dsimp only
  split <;> simp_all [Link.rxError, satAdd]

/-! ## The arbiter (R10) -/

theorem arbitrate_of_inHand {l : Link} {h : InHand} (hand : l.inHand = some h) (e : LinkEnv) : l.arbitrate e = l := by
  unfold Link.arbitrate; rw [hand]

theorem arbitrate_of_urgent {l : Link} {f : TxFrame} {rest : List TxFrame} (hand : l.inHand = none)
    (hurgent : l.urgent = f :: rest) (e : LinkEnv) :
    l.arbitrate e = ({ l with urgent := rest } : Link).take e .urgent f := by
  unfold Link.arbitrate; rw [hand, hurgent]

/-- The current queue keeps its turn while its count is below its weight. -/
theorem arbitrate_of_turn {l : Link} {e : LinkEnv} {f : TxFrame} {rest : List TxFrame} (hand : l.inHand = none)
    (hurgent : l.urgent = []) (hqueue : l.queue l.arbQueue = f :: rest) (hcount : l.arbCount < e.weight l.arbQueue) :
    l.arbitrate e =
      ({ l.setQueue l.arbQueue rest with arbCount := l.arbCount + 1 } : Link).take e l.arbQueue f := by
  unfold Link.arbitrate; rw [hand, hurgent, hqueue]; exact if_pos hcount

/-- A turn that is over, or an empty current queue, passes the choice on. -/
theorem arbitrate_of_next {l : Link} {e : LinkEnv} (hand : l.inHand = none) (hurgent : l.urgent = [])
    (hover : l.queue l.arbQueue = [] ∨ e.weight l.arbQueue ≤ l.arbCount) :
    l.arbitrate e = Link.arbitrate.next e l := by
  unfold Link.arbitrate
  rw [hand, hurgent]
  obtain hempty | hcount := hover
  · rw [hempty]
  · cases l.queue l.arbQueue with
    | nil => rfl
    | cons f rest => exact if_neg hcount.not_gt

theorem next_of_find {l : Link} {q : QueueId} {f : TxFrame} {rest : List TxFrame}
    (hfind : (l.arbQueue.cycle.find? fun q => !(l.queue q).isEmpty) = some q) (hqueue : l.queue q = f :: rest)
    (e : LinkEnv) :
    Link.arbitrate.next e l =
      ({ l.setQueue q rest with arbQueue := q, arbCount := 1 } : Link).take e q f := by
  unfold Link.arbitrate.next; rw [hfind]; dsimp only; rw [hqueue]

theorem next_of_empty {l : Link} (h : ∀ q, q ≠ .urgent → l.queue q = []) (e : LinkEnv) :
    Link.arbitrate.next e l = l := by
  have hnone : (l.arbQueue.cycle.find? fun q => !(l.queue q).isEmpty) = none := by
    rw [List.find?_eq_none]
    intro q hq
    have hne : q ≠ .urgent := by rintro rfl; revert hq; cases l.arbQueue <;> decide
    simp [h q hne]
  unfold Link.arbitrate.next; rw [hnone]

theorem setQueue_lineBusy (l : Link) (q : QueueId) (fs : List TxFrame) : (l.setQueue q fs).lineBusy = l.lineBusy := by
  cases q <;> rfl

/-- A waiting URGENT frame takes the place of a ROUTINE one that is not being sent (R10). -/
theorem settle_of_preempted {l : Link} {h : InHand} {f : TxFrame} {rest : List TxFrame} (hand : l.inHand = some h)
    (hqueue : h.queue ≠ .urgent) (hsending : h.sending = false) (hurgent : l.urgent = f :: rest) (e : LinkEnv) :
    l.settle e =
      ({ l.setQueue h.queue (h.frame :: l.queue h.queue) with
          urgent := rest, inHand := none, arbCount := l.arbCount - 1 } : Link).take e .urgent f := by
  have hput : l.preempt = l.putBack h := by
    unfold Link.preempt; rw [hand]; exact if_pos (by simp [hqueue, hsending, hurgent])
  have hhead : (l.setQueue h.queue (h.frame :: l.queue h.queue)).urgent = f :: rest := by
    cases hq : h.queue <;> first | exact absurd hq hqueue | exact hurgent
  have hchoice := arbitrate_of_urgent (l := { l.setQueue h.queue (h.frame :: l.queue h.queue) with
    inHand := none, arbCount := l.arbCount - 1 }) rfl hhead e
  unfold Link.settle
  rw [hput]
  exact hchoice

/-! ## Deferrals and collisions (R2, R3) -/

/-- The last attempt of a frame (R2). -/
def LinkEnv.drops (e : LinkEnv) (attempts : Nat) : Prop := 64 ≤ attempts + 1 ∧ e.limitOff = false

theorem defer_of_kept {e : LinkEnv} {h : InHand} (hkept : ¬e.drops h.frame.attempts) (l : Link) :
    l.defer e h = { l with inHand := some { h with
      frame := { h.frame with attempts := h.frame.attempts + 1 }, sending := false, delay := none } } := by
  unfold Link.defer
  exact if_neg (by simpa [LinkEnv.drops] using hkept)

theorem defer_of_dropped {e : LinkEnv} {h : InHand} (hdrop : e.drops h.frame.attempts) (l : Link) :
    l.defer e h =
      ({ l.record e .accessDrop none (some h.frame.kind) h.frame.tag? with inHand := none } : Link).arbitrate e := by
  unfold Link.defer
  exact if_pos (by simpa [LinkEnv.drops] using hdrop)

theorem goBusy_of_delay {l : Link} {h : InHand} (hand : l.inHand = some h) (hdelay : h.delay.isSome = true)
    (e : LinkEnv) : l.goBusy e = ({ l with lineBusy := true, rx := .gathering } : Link).defer e h := by
  unfold Link.goBusy
  dsimp only
  rw [hand]
  exact if_pos hdelay

theorem tag?_eq (f : TxFrame) :
    f.tag? = if f.kind = FrameKind.request ∨ f.kind = FrameKind.answer then some (byteAt f.payload 0) else none := by
  unfold TxFrame.tag?
  cases f.kind <;> simp

theorem record_eq (e : LinkEnv) (kind : FaultKind) (peer : Option Nat) (frame : Option FrameKind)
    (seqTag : Option Nat) (l : Link) :
    l.record e kind peer frame seqTag = { l with
      counts := l.counts.bump kind
      fault := if l.fault = none then some ⟨kind, peer, frame, seqTag, e.jobTime⟩ else l.fault
      more := if l.fault = none then l.more else true } := by
  obtain ⟨⟩ := l
  unfold Link.record
  dsimp only
  split <;> simp_all

theorem bump_eq (counts : FaultCounts) (kind : FaultKind) :
    counts.bump kind =
      { collision := if FaultKind.collision = kind then min 255 (counts.collision + 1) else counts.collision
        duplicateStation :=
          if FaultKind.duplicateStation = kind then min 255 (counts.duplicateStation + 1) else counts.duplicateStation
        accessDrop := if FaultKind.accessDrop = kind then min 255 (counts.accessDrop + 1) else counts.accessDrop
        lineStuck := if FaultKind.lineStuck = kind then min 255 (counts.lineStuck + 1) else counts.lineStuck
        urgentDrop := if FaultKind.urgentDrop = kind then min 255 (counts.urgentDrop + 1) else counts.urgentDrop
        requestTimeout :=
          if FaultKind.requestTimeout = kind then min 255 (counts.requestTimeout + 1) else counts.requestTimeout
        configMismatch :=
          if FaultKind.configMismatch = kind then min 255 (counts.configMismatch + 1) else counts.configMismatch } := by
  cases kind <;> rfl

/-- What the recording of a fault leaves of the link unit. -/
theorem record_queues (e : LinkEnv) (kind : FaultKind) (peer : Option Nat) (frame : Option FrameKind)
    (seqTag : Option Nat) (l : Link) :
    (l.record e kind peer frame seqTag).urgent = l.urgent ∧ (l.record e kind peer frame seqTag).inHand = l.inHand ∧
      (l.record e kind peer frame seqTag).arbCount = l.arbCount ∧
      (l.record e kind peer frame seqTag).lineBusy = l.lineBusy ∧
      ∀ q, (l.record e kind peer frame seqTag).queue q = l.queue q := by
  rw [record_eq]
  exact ⟨rfl, rfl, rfl, rfl, fun q => by cases q <;> rfl⟩

/-- The frame in hand stays where no URGENT frame waits, or where it is itself one. -/
theorem preempt_of_calm {l : Link} (h : l.urgent = [] ∨ ∀ i, l.inHand = some i → i.queue = .urgent) :
    l.preempt = l := by
  unfold Link.preempt
  split
  · rename_i i hi
    refine if_neg ?_
    obtain hempty | hqueue := h
    · simp [hempty]
    · simp [hqueue i hi]
  · rfl

theorem settle_of_calm {l : Link} {i : InHand} (hand : l.inHand = some i) (h : l.urgent = [] ∨ i.queue = .urgent)
    (e : LinkEnv) : l.settle e = l := by
  have hcalm : l.preempt = l := preempt_of_calm (h.imp_right fun hq j hj => by
    obtain rfl := Option.some.inj (hand.symm.trans hj); exact hq)
  unfold Link.settle
  rw [hcalm]
  exact arbitrate_of_inHand hand e

theorem setQueue_urgent {l : Link} {q : QueueId} (h : q ≠ .urgent) (fs : List TxFrame) :
    (l.setQueue q fs).urgent = l.urgent := by
  cases q <;> first | exact absurd rfl h | rfl

/-- The arbiter leaves the link unit as it is, or takes a frame in hand that no URGENT frame will send back. -/
theorem arbitrate_takes (e : LinkEnv) (l : Link) (hand : l.inHand = none) :
    l.arbitrate e = l ∧ l.urgent = [] ∨
      ∃ i, (l.arbitrate e).inHand = some i ∧ ((l.arbitrate e).urgent = [] ∨ i.queue = .urgent) := by
  cases hurgent : l.urgent with
  | cons f rest =>
    rw [arbitrate_of_urgent hand hurgent]
    exact .inr ⟨_, rfl, .inr rfl⟩
  | nil =>
    have hnonempty : ∀ {q : QueueId} {f : TxFrame} {rest}, l.queue q = f :: rest → q ≠ .urgent := by
      rintro q f rest hq rfl
      simp [Link.queue, hurgent] at hq
    by_cases hturn : l.queue l.arbQueue = [] ∨ e.weight l.arbQueue ≤ l.arbCount
    · rw [arbitrate_of_next hand hurgent hturn]
      unfold Link.arbitrate.next
      split
      · exact .inl ⟨rfl, rfl⟩
      · split
        · exact .inl ⟨rfl, rfl⟩
        · rename_i hq
          exact .inr ⟨_, rfl, .inl ((setQueue_urgent (hnonempty hq) _).trans hurgent)⟩
    · obtain ⟨hq, hcount⟩ := not_or.1 hturn
      obtain ⟨f, rest, hq⟩ := List.exists_cons_of_ne_nil hq
      rw [arbitrate_of_turn hand hurgent hq (not_le.1 hcount)]
      exact .inr ⟨_, rfl, .inl ((setQueue_urgent (hnonempty hq) rest).trans hurgent)⟩

/-- Nothing is left to settle once the arbiter has chosen. -/
theorem settle_arbitrate {e : LinkEnv} {l : Link} (hand : l.inHand = none) :
    (l.arbitrate e).settle e = l.arbitrate e := by
  obtain ⟨hsame, hurgent⟩ | ⟨i, hi, hcalm⟩ := arbitrate_takes e l hand
  · rw [hsame, Link.settle, preempt_of_calm (.inl hurgent), hsame]
  · exact settle_of_calm hi hcalm e

/-- A frame in hand that is not being sent waits on, or an URGENT frame goes before it and it goes back (R10). -/
theorem settle_of_waiting (e : LinkEnv) {l k : Link} {i : InHand} (hi : i.sending = false) (hu : l.urgent = k.urgent)
    (hc : l.arbCount = k.arbCount) (hb : l.lineBusy = k.lineBusy) (hq : ∀ q, l.queue q = k.queue q) :
    ({ l with inHand := some i } : Link).settle e =
      match k.urgent with
      | f :: rest =>
        if i.queue = .urgent then { l with inHand := some i }
        else
          { l.setQueue i.queue (i.frame :: k.queue i.queue) with
              urgent := rest
              arbCount := k.arbCount - 1
              inHand := some ⟨.urgent, f, false, if k.lineBusy then none else some (accessDelay e.own f)⟩ }
      | [] => { l with inHand := some i } := by
  rw [← hu, ← hc, ← hb, ← hq]
  split
  · rename_i f rest hurgent
    split
    · rename_i hq
      exact settle_of_calm (l := { l with inHand := some i }) rfl (.inr hq) e
    · rename_i hq
      rw [settle_of_preempted (l := { l with inHand := some i }) rfl hq hi hurgent]
      obtain ⟨q, g, b, d⟩ := i
      cases q <;> first | exact absurd rfl hq | rfl
  · rename_i hurgent
    exact settle_of_calm (l := { l with inHand := some i }) rfl (.inl hurgent) e

/-- A first or second collision (R3): the frame waits for QUIET, unless an URGENT frame goes before it. -/
theorem collide_of_kept {e : LinkEnv} {h : InHand} (hkept : ¬e.drops h.frame.attempts) (l : Link) :
    l.collide e h =
      ({ l.record e .collision none (some h.frame.kind) h.frame.seq with
        inHand := some ⟨h.queue, { h.frame with
          attempts := h.frame.attempts + 1, collisions := h.frame.collisions + 1 }, false, none⟩ } : Link).settle e := by
  exact congrArg (Link.settle e) (defer_of_kept
    (h := { h with frame := { h.frame with collisions := h.frame.collisions + 1 } }) hkept _)

theorem collide_of_dropped {e : LinkEnv} {h : InHand} (hdrop : e.drops h.frame.attempts) (l : Link) :
    l.collide e h =
      ({ (l.record e .collision none (some h.frame.kind) h.frame.seq).record e .accessDrop none (some h.frame.kind)
        h.frame.tag? with inHand := none } : Link).arbitrate e := by
  exact (congrArg (Link.settle e) (defer_of_dropped
    (h := { h with frame := { h.frame with collisions := h.frame.collisions + 1 } }) hdrop _)).trans (settle_arbitrate rfl)

end Sys2Proof.Machine

namespace Sys2Proof

open Machine Host

/-- Settles O17. -/
theorem arbiterTakesTurns : Obligations.ArbiterTakesTurns := by
  unfold Obligations.ArbiterTakesTurns
  intro e l inHand
  have take : ∀ (l' : Link) q f, l'.lineBusy = l.lineBusy → l'.take e q f = { l' with inHand := inHand q f } := by
    intro l' q f hbusy
    unfold Link.take accessDelay
    rw [hbusy]
  refine ⟨fun h hand => arbitrate_of_inHand hand e, fun hand => ⟨?_, ?_, ?_, ?_⟩, ?_⟩
  · intro f rest hurgent
    exact (arbitrate_of_urgent hand hurgent e).trans (take _ _ _ rfl)
  · intro f rest hurgent hqueue hcount
    exact (arbitrate_of_turn hand hurgent hqueue hcount).trans (take _ _ _ (setQueue_lineBusy l _ _))
  · intro q f rest hurgent hover hfind hqueue
    have hcycle : (l.arbQueue.cycle.find? fun q => !(l.queue q).isEmpty) = some q := by
      rw [← hfind]; cases l.arbQueue <;> rfl
    rw [arbitrate_of_next hand hurgent hover, next_of_find hcycle hqueue]
    exact take _ _ _ (setQueue_lineBusy l _ _)
  · intro hurgent hrig hexchange hbulk
    have hempty : ∀ q, l.queue q = [] := fun q => by cases q <;> assumption
    rw [arbitrate_of_next hand hurgent (.inl (hempty _)), next_of_empty fun q _ => hempty q]
  · intro h f rest hand hqueue hsending hurgent
    exact (settle_of_preempted hand hqueue hsending hurgent e).trans (take _ _ _ (setQueue_lineBusy l _ _))

/-- Settles O14: the levels of the line, the stop bit, the access delay and the end of a frame, each by its equation. -/
theorem lineMovesReceiverAndSender : Obligations.LineMovesReceiverAndSender := by
  unfold Obligations.LineMovesReceiverAndSender
  refine ⟨fun s hp hs => ⟨fun trailing hbusy hsend => ?_, fun hbusy hdelay => ?_, fun hbusy => ?_,
    fun hbusy hsend => ?_⟩, fun s h hp hs hand => ⟨fun hdelay hbusy => ?_, fun hsend => ?_⟩⟩
  · refine exec_link rfl hp hs ?_ rfl
    rw [if_pos (by simp [hbusy, hsend]), State.onLink, goQuiet_eq]
    rfl
  · refine exec_link rfl hp hs ?_ rfl
    rw [if_pos (by simp [hbusy]), State.onLink, goBusy_of_no_delay hdelay]
  · refine exec_link rfl hp hs ?_ rfl
    rw [if_neg (by simp [hbusy])]
    cases hsend : s.link.sending with
    | true => rw [if_pos rfl]; simp
    | false => rw [if_neg (by simp), gather_eq]; simp
  · refine exec_link rfl hp hs ?_ rfl
    rw [if_pos (by simp [hbusy, hsend]), stopBitMissing_eq]
  · refine exec_link rfl hp hs ?_ rfl
    rw [hand]
    dsimp only
    rw [if_pos (by simp [hdelay, hbusy])]
    rfl
  · refine exec_link rfl hp hs ?_ (arbitrate_fault _ _)
    rw [if_pos (by simp [Link.sending, hand, hsend])]
    rfl

/-- Settles O15: the fault record first, then the deferrals and the collisions that keep the frame or drop it. -/
theorem linkFaultsAreRecorded : Obligations.LinkFaultsAreRecorded := by
  unfold Obligations.LinkFaultsAreRecorded
  have limit : ∀ s : State, s.linkEnv.limitOff = false ↔ s.cfg Item.accessLimitOff 0 ≠ 1 := fun s => by
    simp [State.linkEnv]
  refine ⟨fun e kind peer frame seqTag l => ?_, fun s hp hbusy hsend hstuck => ?_, fun c s h hc hp hs hbusy hand hdelay =>
    ⟨fun hkept => ?_, fun hlast hlimit => ?_⟩, fun s h hp hand hsend hcoll hlast hlimit => ?_,
    fun s h hp hand hsend hcoll hkept => ?_⟩
  · rw [record_eq, bump_eq]
  · refine exec_settles rfl hp ?_ rfl
    rw [if_pos (by simp [hbusy, hsend, hstuck])]
    rfl
  · have hgo : s.link.goBusy s.linkEnv = { s.link with
        lineBusy := true
        rx := .gathering
        inHand := some { h with
          frame := { h.frame with attempts := h.frame.attempts + 1 }, sending := false, delay := none } } := by
      rw [goBusy_of_delay hand hdelay, defer_of_kept]
      rintro ⟨hlast, hlimit⟩
      obtain hk | hk := hkept
      · omega
      · exact (limit s).1 hlimit hk
    obtain rfl | rfl := hc
    · refine exec_link rfl hp hs ?_ rfl
      rw [if_pos (by simp [hbusy, hand, hdelay]), State.onLink, hgo]
    · refine exec_link rfl hp hs ?_ rfl
      rw [if_pos (by simp [hbusy]), State.onLink, hgo]
  · have hgo : s.link.goBusy s.linkEnv =
        ({ { s.link with lineBusy := true, rx := RxPhase.gathering }.record s.linkEnv .accessDrop none
            (some h.frame.kind) h.frame.tag? with inHand := none } : Link).arbitrate s.linkEnv := by
      rw [goBusy_of_delay hand hdelay, defer_of_dropped ⟨hlast, (limit s).2 hlimit⟩]
    rw [tag?_eq] at hgo
    obtain rfl | rfl := hc
    · refine exec_settles rfl hp ?_ rfl
      rw [if_pos (by simp [hbusy, hand, hdelay]), State.onLink, hgo]
    · refine exec_settles rfl hp ?_ rfl
      rw [if_pos (by simp [hbusy]), State.onLink, hgo]
  · refine exec_settles rfl hp ?_ rfl
    rw [hand]
    dsimp only
    rw [if_pos hsend]
    have hcollide := collide_of_dropped (e := s.linkEnv) (h := h) ⟨hlast, (limit s).2 hlimit⟩ s.link
    rw [tag?_eq] at hcollide
    rw [State.collide, State.onLink, hcollide]
    exact if_neg (by omega)
  · refine exec_settles rfl hp ?_ rfl
    rw [hand]
    dsimp only
    rw [if_pos hsend]
    have hcollide := collide_of_kept (e := s.linkEnv) (h := h) (fun hd => by
      obtain hk | hk := hkept
      · exact absurd hd.1 (by omega)
      · exact (limit s).1 hd.2 hk) s.link
    obtain ⟨hurgent, -, hcount, hline, hqueues⟩ :=
      record_queues s.linkEnv .collision none (some h.frame.kind) h.frame.seq s.link
    have hwaiting := settle_of_waiting s.linkEnv (i := ⟨h.queue, { h.frame with
      attempts := h.frame.attempts + 1, collisions := h.frame.collisions + 1 }, false, none⟩) rfl hurgent hcount hline hqueues
    exact (if_neg (by omega)).trans (congrArg (fun l => { s with link := l }) (hcollide.trans hwaiting))

end Sys2Proof

/-! Full queues (O18): what a frame handed over does where its queue is full, and how a waiting ROD_EVENT joins. -/

namespace Sys2Proof.Machine

open Host

theorem replacedBy_of_same {f old : TxFrame} (hkind : f.kind = .status ∨ f.kind = .strokes ∨ f.kind = .head)
    (hk : old.kind = f.kind) (hp : old.pump = f.pump) : old.replacedBy f = true := by
  have hmerges : f.kind.merges = true := by obtain h | h | h := hkind <;> rw [h] <;> rfl
  simp [TxFrame.replacedBy, hmerges, hk, hp]

theorem merges_iff (k : FrameKind) : k.merges = true ↔ k = .status ∨ k = .strokes ∨ k = .head := by
  cases k <;> simp [FrameKind.merges]

/-- With no ROD_EVENT waiting, a queue has room while its count is below its capacity. -/
theorem hasRoom_eq {l : Link} (hwait : l.rodWait = []) (q : QueueId) : l.hasRoom q = decide (l.count q < q.room) := by
  simp [Link.hasRoom, hwait]

theorem handOver_silent {l : Link} (h : l.listenOnly = true) (e : LinkEnv) (q : QueueId) (f : TxFrame) :
    l.handOver e q f = l := if_pos h

theorem handOver_urgent {l : Link} {f : TxFrame} (h : l.listenOnly = false) (hf : f.urgent = true) (e : LinkEnv)
    (q : QueueId) : l.handOver e q f = l.handUrgent e f := by
  unfold Link.handOver
  rw [if_neg (by simp [h]), if_pos hf]

theorem handOver_rig {l : Link} {f : TxFrame} (h : l.listenOnly = false) (hf : f.urgent = false) (e : LinkEnv) :
    l.handOver e .rig f = l.handRig e f := by
  unfold Link.handOver
  rw [if_neg (by simp [h]), if_neg (by simp [hf])]

theorem handOver_plain {l : Link} {f : TxFrame} (h : l.listenOnly = false) (hf : f.urgent = false) (e : LinkEnv)
    {q : QueueId} (hq : q = .exchange ∨ q = .bulk) : l.handOver e q f = l.handPlain e q f := by
  unfold Link.handOver
  rw [if_neg (by simp [h]), if_neg (by simp [hf])]
  obtain rfl | rfl := hq <;> rfl

theorem handUrgent_of_replaced {l : Link} {f : TxFrame} {fs : List TxFrame} (h : replaceIn f l.urgent = some fs)
    (e : LinkEnv) : l.handUrgent e f = { l with urgent := fs } := by
  unfold Link.handUrgent; rw [h]

theorem handUrgent_of_full {l : Link} {f : TxFrame} (hwait : l.rodWait = []) (hfull : 8 ≤ l.count .urgent)
    (h : replaceIn f l.urgent = none) (e : LinkEnv) :
    l.handUrgent e f =
      if f.kind = .rodEvent then { l with rodWait := [f] } else l.record e .urgentDrop none (some f.kind) none := by
  have hroom : l.hasRoom .urgent = false := by
    rw [hasRoom_eq hwait]; exact decide_eq_false (by simpa [QueueId.room, Config.urgentRoom] using hfull)
  unfold Link.handUrgent
  rw [h]
  dsimp only
  rw [if_neg (by simp [hwait]), if_neg (by simp [hroom]), hwait]
  rfl

theorem handPlain_of_full {l : Link} {q : QueueId} (hwait : l.rodWait = []) (hfull : q.room ≤ l.count q) (e : LinkEnv)
    (f : TxFrame) : l.handPlain e q f = { l with answerDrops := min 255 (l.answerDrops + 1) } := by
  unfold Link.handPlain
  exact if_neg (by rw [hasRoom_eq hwait]; simpa using hfull)

theorem handRig_of_replaced {l : Link} {f : TxFrame} {fs : List TxFrame} (h : replaceIn f l.rig = some fs)
    (e : LinkEnv) : l.handRig e f = { l with rig := fs } := by
  unfold Link.handRig; rw [h]

/-- At a full RIG queue the oldest STATUS, STROKES or HEAD frame makes room (R9). -/
theorem handRig_of_full {l : Link} {f : TxFrame} (hwait : l.rodWait = []) (hfull : 16 ≤ l.count .rig)
    (h : replaceIn f l.rig = none) (e : LinkEnv) :
    l.handRig e f =
      match dropMerging l.rig with
      | some fs => ({ l with rig := fs ++ [f] } : Link).settle e
      | none => if f.kind = .rodEvent then { l with rodWait := [f] } else l := by
  have hroom : l.hasRoom .rig = false := by
    rw [hasRoom_eq hwait]; exact decide_eq_false (by simpa [QueueId.room, Config.rigRoom] using hfull)
  unfold Link.handRig
  rw [h]
  dsimp only
  rw [if_neg (by simp [hwait]), if_neg (by simp [hroom]), hwait]
  rfl

theorem dropMerging_of_first {q before after : List TxFrame} {old : TxFrame} (hq : q = before ++ old :: after)
    (hbefore : ∀ g ∈ before, g.kind.merges = false) (hold : old.kind.merges = true) :
    dropMerging q = some (before ++ after) := by
  subst hq
  induction before with
  | nil => simp [dropMerging, hold]
  | cons b before ih =>
    have hb : b.kind.merges = false := hbefore b List.mem_cons_self
    simp [dropMerging, hb, ih fun g hg => hbefore g (List.mem_cons_of_mem _ hg)]

theorem dropMerging_of_none {q : List TxFrame} (h : ∀ g ∈ q, g.kind.merges = false) : dropMerging q = none := by
  induction q with
  | nil => rfl
  | cons b q ih =>
    have hb : b.kind.merges = false := h b List.mem_cons_self
    simp [dropMerging, hb, ih fun g hg => h g (List.mem_cons_of_mem _ hg)]

theorem seqRun_of_not_running {s : State} (h : s.seq.state ≠ .running) : s.seqRun = s := by
  unfold State.seqRun State.seqRunFor
  exact if_neg fun k => h k.1

theorem eventRoom_eq (f : TxFrame) : f.eventQueue.room = if f.urgent then 8 else 16 := by
  unfold TxFrame.eventQueue
  split <;> rfl

end Sys2Proof.Machine

namespace Sys2Proof

open Machine Host

/-- Settles O18: by queue, and within each by whether a queued frame is replaced, room is made or none is. -/
theorem fullQueuesFollowTheirRules : Obligations.FullQueuesFollowTheirRules := by
  unfold Obligations.FullQueuesFollowTheirRules
  have notMerging : ∀ {q : List TxFrame}, (∀ g ∈ q, g.kind ≠ .status ∧ g.kind ≠ .strokes ∧ g.kind ≠ .head) →
      ∀ g ∈ q, g.kind.merges = false := fun h g hg => by
    rw [Bool.eq_false_iff, ne_eq, merges_iff]
    obtain ⟨h1, h2, h3⟩ := h g hg
    rintro (k | k | k) <;> contradiction
  refine ⟨fun e q f l => ⟨fun h => handOver_silent h e q f, fun hl hwait => ⟨?_, ?_, ?_, ?_, ?_, ?_⟩⟩,
    fun f rest s hp hwait hstate => ?_⟩
  · intro before old after hf hq hafter hkind hk hpump
    rw [handOver_urgent hl hf]
    exact handUrgent_of_replaced
      (replaceIn_eq_some.2 ⟨before, old, after, hq, replacedBy_of_same hkind hk hpump, hafter, rfl⟩) e
  · intro hf hfull hnone
    rw [handOver_urgent hl hf]
    exact handUrgent_of_full hwait hfull (replaceIn_eq_none.2 hnone) e
  · rintro hf rfl hfull
    rw [handOver_plain hl hf e (.inl rfl)]
    exact handPlain_of_full (q := .exchange) hwait hfull e f
  · rintro hf rfl hfull
    rw [handOver_plain hl hf e (.inr rfl)]
    exact handPlain_of_full (q := .bulk) hwait hfull e f
  · rintro before old after hf rfl hq hafter hkind hk hpump
    rw [handOver_rig hl hf]
    exact handRig_of_replaced
      (replaceIn_eq_some.2 ⟨before, old, after, hq, replacedBy_of_same hkind hk hpump, hafter, rfl⟩) e
  · rintro hf rfl hfull hnone
    rw [handOver_rig hl hf, handRig_of_full hwait hfull (replaceIn_eq_none.2 hnone)]
    refine ⟨fun before old after hq hbefore hold => ?_, fun h => ?_⟩
    · rw [dropMerging_of_first hq (notMerging hbefore) ((merges_iff _).2 hold)]
    · rw [dropMerging_of_none (notMerging h)]
  · intro q
    have hjoin : ∀ l, s.link.joinFirst s.linkEnv = l →
        (let t := s.onLink Link.joinFirst; if t.inRun then t.seqRun else t) = { s with link := l } := by
      rintro l rfl
      dsimp only
      rw [seqRun_of_not_running (s := s.onLink Link.joinFirst) hstate]
      exact ite_self _
    refine ⟨fun hroom => ?_, fun hfull => ?_⟩
    · refine exec_settles rfl hp (hjoin _ ?_) rfl
      unfold Link.joinFirst
      rw [hwait]
      exact if_pos (by rw [eventRoom_eq]; exact hroom)
    · refine exec_settles rfl hp (hjoin s.link ?_) rfl
      unfold Link.joinFirst
      rw [hwait]
      exact if_neg (by rw [eventRoom_eq]; exact hfull.not_gt)

end Sys2Proof

/-! Requests and their answers: what a request comes to at the gate (O31), and the requests that only read
(O32, O33). -/

namespace Sys2Proof.Machine

open Host

/-! ## Answers (R12, R173) -/

theorem answer_toAll {r : Request} (h : r.toAll = true) (s : State) (q : QueueId) (code : ResultCode)
    (data : List Byte) : s.answer q r code data = s := by
  unfold State.answer; exact if_pos h

theorem answer_one {r : Request} (h : r.toAll = false) (s : State) (q : QueueId) (code : ResultCode)
    {data : List Byte} (hlen : data.length ≤ 38) :
    s.answer q r code data =
      s.hand q (newFrame .answer r.source false none ([byteOf r.tag, byteOf code.code] ++ data)) := by
  have hsegs : segments 7 data = [data] := if_pos hlen
  unfold State.answer answerFrames
  rw [if_neg (by simp [h]), hsegs]
  rfl

theorem answer_two {r : Request} (h : r.toAll = false) (s : State) (q : QueueId) (code : ResultCode)
    {data : List Byte} (hlong : 38 < data.length) (hlen : data.length ≤ 76) :
    s.answer q r code data =
      (s.hand q (newFrame .answer r.source false none
          ([byteOf r.tag, byteOf (code.code + 128)] ++ data.take 38))).hand q
        (newFrame .answer r.source false none ([byteOf r.tag, byteOf (code.code + 16)] ++ data.drop 38)) := by
  have hsegs : segments 7 data = [data.take 38, data.drop 38] :=
    (if_neg hlong.not_ge).trans (congrArg (data.take 38 :: ·) (if_pos (by rw [List.length_drop]; omega)))
  unfold State.answer answerFrames
  rw [if_neg (by simp [h]), hsegs]
  rfl

theorem byteOf_toNat (b : Byte) : byteOf b.toNat = b := BitVec.ofNat_toNat 8 b |>.trans (BitVec.setWidth_eq b)

/-- An answer goes out the same whatever stands on the input pins. -/
theorem answer_pins (s : State) (p : Pins) (q : QueueId) (r : Request) (code : ResultCode) (data : List Byte) :
    ({ s with pins := p }).answer q r code data = { s.answer q r code data with pins := p } := by
  have each : ∀ (fs : List TxFrame) (s : State),
      fs.foldl (fun s f => s.hand q f) { s with pins := p } =
        { fs.foldl (fun s f => s.hand q f) s with pins := p } := by
    intro fs
    induction fs with
    | nil => exact fun _ => rfl
    | cons f fs ih => exact fun s => ih (s.hand q f)
  unfold State.answer
  split
  · rfl
  · exact each _ s

/-! ## A request in CONFIG or RUN -/

theorem serve_of_open {g : Gate} {s : State} {q : Request} (hrole : g.role = true)
    (hbytes : g.bytes ≤ q.args.length) (hopen : s.inRun = true ∨ g.inConfig = true) (k : QueueId)
    (f : Request → State → Served) :
    s.serve k g q f = (f q s).state.answer k q (f q s).code (f q s).data := by
  unfold State.serve
  rw [if_neg (by simp [hrole]), if_neg hbytes.not_gt, if_neg (by obtain h | h := hopen <;> simp [h])]

section Served

variable {i : Instr} {s w : State} {rq : ReqHead} {code : Nat} {args : List Byte} {k : QueueId} {g : State → Gate}
  {f : Request → State → Served} {result : ResultCode} {data : List Byte}

theorem exec_of_gate_open
    (hdo : exec i s = .next (s.poweredDo fun s => s.present (requestOf rq code args) fun q s => s.serve k (g s) q f))
    (h : s.Serves (requestOf rq code args)) (hrole : (g s.taken).role = true)
    (hbytes : (g s.taken).bytes ≤ args.length) (hopen : s.inRun = true ∨ (g s.taken).inConfig = true) {r : Served}
    (hr : f (requestOf rq code args) s.taken = r) :
    exec i s = .next (s.finish (r.state.replied k rq r.code r.data)) := by
  rw [hdo, State.poweredDo, if_pos h.1, present_of_serves h, serve_of_open (s := s.taken) hrole hbytes hopen, hr]
  rfl

theorem replied_pending (w : State) (k : QueueId) (rq : ReqHead) (result : ResultCode) (data : List Byte) :
    (w.replied k rq result data).pending = w.pending :=
  (moves_answer w k _ result data).other.pending

theorem answered_leaves (hw : w.pending = s.pending) (hsettled : w.AlarmsSettled)
    (h : exec i s = .next (s.finish (w.replied k rq result data))) :
    ∃ t, exec i s = .next t ∧ Leaves [] s (w.replied k rq result data) t :=
  ⟨_, h, finish_leaves s _ ((replied_pending w k rq result data).trans hw) (replied_settled hsettled _ _ _ _)⟩

theorem answered_settles (hw : w.pending = s.pending)
    (h : exec i s = .next (s.finish (w.replied k rq result data))) :
    ∃ t, exec i s = .next t ∧ Settles s (w.replied k rq result data) t :=
  ⟨_, h, finish_settles s _ ((replied_pending w k rq result data).trans hw)⟩

/-- A request that changes nothing is its answer and nothing more. -/
theorem taken_answered (hs : s.AlarmsSettled) (h : exec i s = .next (s.finish (s.taken.replied k rq result data))) :
    ∃ t, exec i s = .next t ∧ Leaves [] s (s.taken.replied k rq result data) t :=
  answered_leaves (w := s.taken) rfl (taken_settled hs) h

end Served

/-! ## The gate (R4, R12, R22, R173) -/

/-- What a request's service does where the gate refuses it. -/
structure Refuses (a : Ask) (serve : Request → State → State) : Prop where
  noRole : ∀ q s, a.role s.straps = false → serve q s = s.answer a.queue q .noRole []
  range : ∀ q s, a.role s.straps = true → q.args.length < a.args.length → serve q s = s.answer a.queue q .range []
  state : ∀ q s, a.role s.straps = true → a.args.length ≤ q.args.length → s.inRun = false → a.inConfig = false →
    serve q s = s.answer a.queue q .state []

theorem refuses_serve {a : Ask} {g : State → Gate} (hrole : ∀ s, (g s).role = a.role s.straps)
    (hbytes : ∀ s, (g s).bytes = a.args.length) (hconfig : ∀ s, (g s).inConfig = a.inConfig)
    (f : Request → State → Served) : Refuses a fun q s => s.serve a.queue (g s) q f where
  noRole q s h := serve_of_noRole ((hrole s).trans h) s a.queue q f
  range q s h hshort := by
    unfold State.serve
    rw [if_neg (by simp [hrole, h]), if_pos (by rw [hbytes]; exact hshort)]
  state q s h hlong hrun hc :=
    serve_of_config ((hrole s).trans h) ((hbytes s).trans_le hlong) hrun ((hconfig s).trans hc) a.queue f

/-- JOB_CLEAR has no gate of its own: it is open to every role, takes no bytes, and in CONFIG the job is not CLOSED. -/
theorem refuses_jobClear (rq : ReqHead) :
    Refuses ⟨rq, jobClearCode, [], .exchange, anyRole, false⟩ fun q s => s.jobClear q where
  noRole _ _ h := nomatch h
  range _ _ _ hshort := absurd hshort (Nat.not_lt_zero _)
  state q s _ _ hrun _ := by
    unfold State.jobClear
    exact if_pos (by simp [hrun])

/-- Every request command presents its request to a service that the gate guards. -/
theorem ask_form {c : Instr} {a : Ask} (h : c.ask? = some a) (s : State) :
    ∃ p serve, exec c s = .next (s.poweredDo fun s => ({ s with pins := p }).present a.request serve) ∧
      Refuses a serve := by
  cases c with
  | configSet rq key item index value =>
    obtain rfl := Option.some.inj h
    exact ⟨{ s.pins with serviceKey := key }, _, rfl, refuses_serve (fun _ => rfl) (fun _ => rfl) (fun _ => rfl) _⟩
  | jobClear rq => obtain rfl := Option.some.inj h; exact ⟨s.pins, _, rfl, refuses_jobClear rq⟩
  | identify | configLock | statusRead | faultClear | claimClear | pumpRate | rackLoad | rackUnload | stringRead
  | rodOp | rodAbort | rodResume | rodConfirm | spin | describe | recordRead | downBegin | downEnd | additive
  | statementRead | jobClose | alarmAck =>
    obtain rfl := Option.some.inj h
    exact ⟨s.pins, _, rfl, refuses_serve (fun _ => rfl) (fun _ => rfl) (fun _ => rfl) _⟩
  | _ => nomatch h

section Pins

variable {s w t : State} {p : Pins}

/-- What a command leaves, seen before its input pins took their levels. -/
theorem Leaves.of_pins (h : Leaves [] s { w with pins := p } t) : Leaves [.pins] s w t := by
  obtain ⟨o, himages, houts⟩ := h
  refine ⟨?_, himages, houts⟩
  constructor
  case pending => exact o.pending
  case mode => exact o.mode
  case straps => exact o.straps
  case startKind => exact o.startKind
  case startSource => exact o.startSource
  case pins => exact fun h => absurd (by decide) h
  case clock => exact fun _ => o.clock (by decide)
  case ret => exact fun _ => o.ret (by decide)
  case link => exact fun _ => o.link (by decide)
  case peers => exact fun _ => o.peers (by decide)
  case claims => exact fun _ => o.claims (by decide)
  case thresholds => exact fun _ => o.thresholds (by decide)
  case pumps => exact fun _ => o.pumps (by decide)
  case circ => exact fun _ => o.circ (by decide)
  case depth => exact fun _ => o.depth (by decide)
  case rod => exact fun _ => o.rod (by decide)
  case seq => exact fun _ => o.seq (by decide)
  case spin => exact fun _ => o.spin (by decide)
  case strata => exact fun _ => o.strata (by decide)
  case billing => exact fun _ => o.billing (by decide)
  case alarm => exact fun _ => o.alarm (by decide)

theorem pins_settled (h : s.AlarmsSettled) (p : Pins) : ({ s with pins := p } : State).AlarmsSettled := by
  intro hrun c
  cases c <;> exact h hrun _

/-- The end of a step on the station with its new pins, where only the link unit has changed otherwise. -/
theorem finish_leaves_pins {l : Link} (hs : s.AlarmsSettled) (hfault : l.fault = s.link.fault) :
    Leaves [.pins] s { s with link := l } (s.finish { s with link := l, pins := p }) :=
  Leaves.of_pins (finish_leaves s { s with link := l, pins := p } rfl
    (pins_settled (settled_of_link (leavesOther_link s l) hfault hs) p))

end Pins

/-! ## A request that arrives (R4, R12) -/

theorem arrive_silent {s : State} {r : Request} (hlisten : s.link.listenOnly = true) (hto : r.toAll = false) :
    s.arrive r = s := by
  unfold State.arrive; exact if_pos (by simp [hlisten, hto])

theorem arrive_full {s : State} {r : Request} (h : s.link.listenOnly = false ∨ r.toAll = true)
    (hfull : 8 ≤ s.link.intake.length) : s.arrive r = s.answer .exchange r .busy [] := by
  unfold State.arrive
  rw [if_neg (by obtain h | h := h <;> simp [h]), if_neg (by simpa [Config.intakeRoom] using hfull)]

theorem arrive_room {s : State} {r : Request} (h : s.link.listenOnly = false ∨ r.toAll = true)
    (hroom : s.link.intake.length < 8) :
    s.arrive r = { s with link := { s.link with intake := s.link.intake ++ [r] } } := by
  unfold State.arrive
  rw [if_neg (by obtain h | h := h <;> simp [h]), if_pos (by simpa [Config.intakeRoom] using hroom)]

theorem present_of_other {s : State} {q r : Request} {rest : List Request} (hhead : s.link.intake = q :: rest)
    (h : q.same r = false) (serve : Request → State → State) : s.present r serve = s.arrive r := by
  unfold State.present; rw [hhead]; simp [h]

theorem present_of_same {s : State} {q r : Request} {rest : List Request} (hhead : s.link.intake = q :: rest)
    (h : q.same r = true) (serve : Request → State → State) : s.present r serve = serve q s.taken := by
  unfold State.present; rw [hhead]; simp [h, State.taken]

theorem present_silent {s : State} {r : Request} (hlisten : s.link.listenOnly = true) (hto : r.toAll = false)
    (hempty : s.link.intake = []) (serve : Request → State → State) : s.present r serve = s := by
  unfold State.present; rw [hempty]; dsimp only; rw [arrive_silent hlisten hto, hempty]

theorem same_iff {q r : Request} :
    q.same r = true ↔ q.source = r.source ∧ q.toAll = r.toAll ∧ q.tag = r.tag ∧ q.code = r.code := by
  simp [Request.same, and_assoc]

/-- The answer goes to the request's sender with its tag; the code and the arguments are not in it. -/
theorem answer_of_same {q r : Request} (h : q.same r = true) (s : State) (k : QueueId) (code : ResultCode)
    (data : List Byte) : s.answer k q code data = s.answer k r code data := by
  obtain ⟨hsource, hall, htag, -⟩ := same_iff.1 h
  unfold State.answer
  rw [hsource, hall, htag]

theorem mul_bit (n : Nat) (b : Bool) : n * bit b = if b then n else 0 := by
  cases b
  · exact Nat.mul_zero n
  · exact Nat.mul_one n

/-- The data of IDENTIFY, byte by byte (R29). -/
theorem identity_eq (s : State) :
    s.identity = [0x3D, 0x0A, 0x10, 0x04, 3, byteOf s.straps.number,
      byteOf ((if s.straps.pump then 1 else 0) + (if s.straps.head then 2 else 0) +
        (if s.straps.rod then 4 else 0) + (if s.straps.record then 8 else 0))] := by
  have hcodes : leBytes 2 Config.vendorCode ++ leBytes 2 Config.partCode ++ [byteOf Config.siliconRevision] =
      [0x3D, 0x0A, 0x10, 0x04, 3] := by decide
  have hroles : s.roles.code = (if s.straps.pump then 1 else 0) + (if s.straps.head then 2 else 0) +
      (if s.straps.rod then 4 else 0) + (if s.straps.record then 8 else 0) := by
    simp only [Roles.code, State.roles, mul_bit]; rfl
  calc s.identity
      = (leBytes 2 Config.vendorCode ++ leBytes 2 Config.partCode ++ [byteOf Config.siliconRevision]) ++
          [byteOf s.straps.number, byteOf s.roles.code] := by simp only [State.identity, List.append_assoc]; rfl
    _ = _ := by rw [hcodes, hroles]; rfl

theorem answer_link (s : State) (k : QueueId) (r : Request) (code : ResultCode) (data : List Byte) :
    s.answer k r code data = { s with link := (s.answer k r code data).link } := by
  have each : ∀ (fs : List TxFrame) (s : State), fs.foldl (fun s f => s.hand k f) s =
      { s with link := (fs.foldl (fun s f => s.hand k f) s).link } := by
    intro fs
    induction fs with
    | nil => exact fun _ => rfl
    | cons f fs ih => exact fun s => ih (s.hand k f)
  unfold State.answer
  split
  · rfl
  · exact each _ s

end Sys2Proof.Machine

namespace Sys2Proof

open Machine Host

/-- Settles O31: what a presented request meets before its own rule, then the segments of an answer. -/
theorem requestsPassTheGate : Obligations.RequestsPassTheGate := by
  unfold Obligations.RequestsPassTheGate
  refine ⟨fun c a s hask hp hs => ?_, fun rq code s hcode hs hserves => ?_, fun s q rq code data => ?_⟩
  · obtain ⟨p, serve, hexec, hrefuses⟩ := ask_form hask s
    rw [State.poweredDo, if_pos hp] at hexec
    have leaves : ∀ {l : Link}, ({ s with pins := p } : State).present a.request serve = { s with link := l, pins := p } →
        l.fault = s.link.fault → ∃ t, exec c s = .next t ∧ Leaves [.pins] s { s with link := l } t :=
      fun hw hfault => ⟨_, hexec.trans (congrArg (fun w => Outcome.next (s.finish w)) hw), finish_leaves_pins hs hfault⟩
    have answered : ∀ {k code}, ({ s with pins := p } : State).present a.request serve =
        ({ s with pins := p } : State).taken.answer k a.request code [] →
        ∃ t, exec c s = .next t ∧ Leaves [.pins] s (s.taken.answer k a.request code []) t := fun {k code} hw => by
      rw [answer_link]
      refine leaves (hw.trans ?_) (answer_fault _ _ _ _ _)
      exact (answer_pins s.taken p k _ _ _).trans (congrArg (fun w : State => { w with pins := p }) (answer_link _ _ _ _ _))
    refine ⟨fun hlisten hto hempty => ?_, fun hfull hother hheard => ?_, fun hroom hother hheard => ?_,
      fun hserves hrole => ?_, fun q rest hhead hsame hrole hshort => ?_, fun hserves hrole hmode hconfig => ?_⟩
    · exact leaves (l := s.link) (present_silent (s := { s with pins := p }) (r := a.request) hlisten hto hempty serve) rfl
    · obtain ⟨q, rest, hhead⟩ : ∃ q rest, s.link.intake = q :: rest := by
        cases hq : s.link.intake with
        | nil => rw [hq] at hfull; exact absurd hfull (by decide)
        | cons q rest => exact ⟨q, rest, rfl⟩
      show ∃ t, _ ∧ Leaves [.pins] s (s.answer .exchange a.request .busy []) t
      rw [answer_link]
      refine leaves ?_ (answer_fault _ _ _ _ _)
      rw [present_of_other (s := { s with pins := p }) hhead (hother q rest hhead),
        arrive_full (s := { s with pins := p }) (.inl hheard) hfull, answer_pins, answer_link]
    · obtain ⟨q, rest, hhead, hsame⟩ := hother
      refine leaves ?_ rfl
      rw [present_of_other (s := { s with pins := p }) hhead hsame, arrive_room (s := { s with pins := p }) hheard hroom]
    · refine answered ?_
      rw [present_of_serves (s := { s with pins := p }) hserves]
      exact hrefuses.noRole _ _ hrole
    · refine answered ?_
      rw [present_of_same (s := { s with pins := p }) hhead hsame, ← answer_of_same hsame]
      exact hrefuses.range _ _ hrole hshort
    · refine answered ?_
      rw [present_of_serves (s := { s with pins := p }) hserves]
      exact hrefuses.state _ _ hrole le_rfl (by simp [State.inRun, State.taken, hmode]) hconfig
  · refine taken_answered hs ?_
    have hunknown : knownCode code.toNat = false := by
      simp only [knownCode, Bool.and_eq_false_iff, decide_eq_false_iff_not]; omega
    have hdo : exec (.unknownRequest rq code) s = .next (s.poweredDo fun s =>
        if knownCode code.toNat then s.arrive (requestOf rq code.toNat [])
        else s.present (requestOf rq code.toNat []) fun q s => s.answer .exchange q .unknown []) := rfl
    rw [hdo, State.poweredDo, if_pos hserves.1, hunknown, if_neg (by decide), present_of_serves hserves]
    rfl
  · refine ⟨fun hall => answer_toAll hall _ _ _ _, fun hall hlen => ?_, fun hall hlong hlen => ?_⟩
    · exact (answer_one hall s q code hlen).trans (by rw [requestOf, byteOf_toNat]; rfl)
    · exact (answer_two hall s q code hlong hlen).trans (by rw [requestOf, byteOf_toNat]; rfl)

/-- Settles O32: IDENTIFY answers with the codes of the part. -/
theorem identifyAnswersTheStation : Obligations.IdentifyAnswersTheStation := by
  unfold Obligations.IdentifyAnswersTheStation
  refine fun rq s hp hs => ⟨fun hserves => ?_, fun hlisten hto hempty => ?_⟩
  · refine taken_answered hs ?_
    refine exec_of_gate_open (g := fun _ => ⟨true, 0, true⟩) (f := serveIdentify) (r := ⟨s.taken, .done, _⟩) rfl hserves
      rfl (Nat.zero_le _) (.inr rfl) (congrArg (Served.mk s.taken .done) ?_)
    exact identity_eq s
  · exact exec_leaves rfl hp (present_silent hlisten hto hempty _) rfl hs

end Sys2Proof

/-! The requests that only read the records (O33), and an alarm's report (O38). -/

namespace Sys2Proof.Machine

open Host

/-! ## Data of the reads -/

theorem leOption_one (o : Option Nat) : leOption 1 o = [byteOf (o.getD 255)] := rfl

theorem leOption_four (o : Option Nat) : leOption 4 o = leBytes 4 (o.getD 4294967295) := rfl

/-- The heard and stale flags and the gap count of a station (R17). -/
theorem peerData_eq (s : State) (station : Nat) :
    s.peerData station =
      match s.peer? station with
      | none => [0, 0]
      | some p => [if p.stale then 3 else 1, byteOf p.gaps] := by
  unfold State.peerData
  cases s.peer? station with
  | none => rfl
  | some p => dsimp only; cases p.stale <;> rfl

/-- A STATUS_READ of part 0 (R17). -/
theorem faultData_eq (l : Link) :
    l.faultData =
      [byteOf ((if l.fault.isSome then 1 else 0) + (if l.more then 2 else 0)),
       byteOf ((l.fault.map (·.kind.code)).getD 255),
       byteOf ((l.fault.bind (·.peer)).getD 255),
       byteOf (((l.fault.bind (·.frame)).map (·.code)).getD 255),
       byteOf ((l.fault.bind (·.seqTag)).getD 255)] ++
      leBytes 4 ((l.fault.map (·.jobTime)).getD 4294967295) ++
      [byteOf l.counts.collision, byteOf l.counts.duplicateStation,
       byteOf l.counts.accessDrop, byteOf l.counts.lineStuck, byteOf l.counts.urgentDrop,
       byteOf l.counts.requestTimeout, byteOf l.counts.configMismatch,
       byteOf l.rxErrors, byteOf l.answerDrops, byteOf l.unmatched,
       byteOf ((if l.listenOnly then 1 else 0) + (if l.stuck then 2 else 0))] := by
  simp only [Link.faultData, leOption_one, leOption_four, mul_bit, List.cons_append, List.nil_append]
  rfl

/-- A STATUS_READ of part 1 to 3 (R17). -/
theorem statusData_of_peers {part : Nat} (h : part ≠ 0) (s : State) :
    s.statusData part = [1, 2, 3, 4, 5, 6, 7, 8, 9, 10].flatMap fun i =>
      match s.peer? (10 * (part - 1) + i) with
      | none => [0, 0]
      | some p => [if p.stale then 3 else 1, byteOf p.gaps] := by
  have hrange : ([1, 2, 3, 4, 5, 6, 7, 8, 9, 10] : List Nat) = (List.range 10).map (· + 1) := by decide
  unfold State.statusData
  rw [if_neg h, hrange, List.flatMap_map]
  exact congrArg (List.range 10).flatMap (funext fun i => peerData_eq s _)

section Reads

variable {i : Instr} {s : State} {rq : ReqHead} {code : Nat} {args : List Byte} {k : QueueId} {g : State → Gate}
  {f : Request → State → Served}

/-- A service that changes nothing, as an answer chosen by a test. -/
theorem read_leaves
    (hdo : exec i s = .next (s.poweredDo fun s => s.present (requestOf rq code args) fun q s => s.serve k (g s) q f))
    (h : s.Serves (requestOf rq code args)) (hrole : (g s.taken).role = true)
    (hbytes : (g s.taken).bytes ≤ args.length) (hopen : s.inRun = true ∨ (g s.taken).inConfig = true)
    (hs : s.AlarmsSettled) {w : State}
    (hr : ∃ result data, f (requestOf rq code args) s.taken = ⟨s.taken, result, data⟩ ∧
      w = s.taken.replied k rq result data) :
    ∃ t, exec i s = .next t ∧ Leaves [] s w t := by
  obtain ⟨result, data, hr, rfl⟩ := hr
  exact taken_answered hs (exec_of_gate_open hdo h hrole hbytes hopen hr)

end Reads

theorem serveRecordRead_of_selector {rq : ReqHead} {selector : Byte} {index : BitVec 16} (h : ¬2 < selector.toNat)
    (s : State) :
    serveRecordRead (requestOf rq 17 (selector :: leBytes 2 index.toNat)) s =
      (s.recordData selector.toNat index.toNat).elim (s.refuse .notFound) fun data => ⟨s, .done, data⟩ := by
  unfold serveRecordRead
  rw [arg_zero_requestOf, arg2_leBytes, if_neg h]
  cases s.recordData selector.toNat index.toNat <;> rfl

/-! ## An alarm reported (R166) -/

theorem report_of_same {s : State} {c : AlarmCond} {holds : Bool} (h : s.alarm.isActive c = holds) :
    s.report c holds = s := by
  unfold State.report; exact if_pos h

theorem report_of_changed {s : State} {c : AlarmCond} {holds : Bool} (h : s.alarm.isActive c ≠ holds) :
    s.report c holds = if s.enabled c then (s.flagged c holds).sendAlarm c holds else s.flagged c holds := by
  unfold State.report; exact if_neg h

theorem enabled_iff (s : State) (c : AlarmCond) :
    s.enabled c = true ↔ s.cfg Item.conditionEnabled c.code = 1 := beq_iff_eq

theorem report_isPending {s : State} {c : AlarmCond} {holds : Bool} (h : s.alarm.isActive c ≠ holds) (d : AlarmCond) :
    (s.report c holds).alarm.isPending d =
      if d = c ∧ holds = true ∧ s.cfg Item.conditionEnabled c.code = 1 then true else s.alarm.isPending d := by
  have halarm : (s.report c holds).alarm = (s.flagged c holds).alarm := by
    rw [report_of_changed h]
    split
    · exact (moves_sendAlarm _ c holds).other.alarm (by decide)
    · rfl
  rw [halarm]
  simp only [← enabled_iff]
  show (if (holds && s.enabled c) = true then setFlag s.alarm.pending c true else s.alarm.pending).getLsbD d.code = _
  by_cases hset : (holds && s.enabled c) = true
  · rw [if_pos hset, setFlag_get]
    obtain ⟨hholds, hon⟩ := Bool.and_eq_true_iff.1 hset
    simp only [hholds, hon, and_true]
    rfl
  · rw [if_neg hset, if_neg fun h => hset (Bool.and_eq_true_iff.2 h.2)]
    rfl

theorem inRun_of_mode {s : State} (h : s.mode = .run) : s.inRun = true := by
  simp [State.inRun, h]

end Sys2Proof.Machine

namespace Sys2Proof

open Machine Host

/-- Settles O33: each read's refusals, then its data. -/
theorem readsAnswerFromTheRecords : Obligations.ReadsAnswerFromTheRecords := by
  unfold Obligations.ReadsAnswerFromTheRecords
  refine fun rq s hp hs => ⟨fun part hserves => ?_, fun hmode hrole page hserves => ?_, fun hmode hrole =>
    ⟨fun selector index hserves => ?_, fun part hserves => ?_⟩⟩
  · refine read_leaves (g := fun _ => ⟨true, 1, true⟩) (f := serveStatusRead) rfl hserves rfl (by simp) (.inr rfl) hs ?_
    by_cases hrange : 3 < part.toNat
    · exact ⟨.range, [], if_pos hrange, if_pos hrange⟩
    refine ⟨.done, _, if_neg hrange, (if_neg hrange).trans ?_⟩
    congr 1
    by_cases hpart : part.toNat = 0
    · have hzero : part = 0 := BitVec.eq_of_toNat_eq hpart
      exact (if_pos hzero).trans ((faultData_eq s.link).symm.trans (if_pos hpart).symm)
    · have hzero : part ≠ 0 := fun h => hpart (by rw [h]; rfl)
      exact (if_neg hzero).trans (statusData_of_peers hpart s.taken).symm
  · refine read_leaves (g := fun s => ⟨s.straps.rod, 1, false⟩) (f := serveStringRead) rfl hserves hrole (by simp)
      (.inl (inRun_of_mode hmode)) hs ?_
    by_cases hrange : 10 < page.toNat
    · exact ⟨.range, [], if_pos hrange, if_pos hrange⟩
    by_cases hfound : 0 < page.toNat ∧ s.ret.string.length < 12 * page.toNat + 1
    · exact ⟨.notFound, [], (if_neg hrange).trans (if_pos hfound), (if_neg hrange).trans (if_pos hfound)⟩
    refine ⟨.done, _, (if_neg hrange).trans (if_neg hfound), (if_neg hrange).trans ((if_neg hfound).trans ?_)⟩
    have hpage : byteOf ((requestOf rq 10 [page]).arg 0) = page := byteOf_toNat page
    simp only [State.pageData, hpage]
    rfl
  · intro found
    refine read_leaves (g := fun s => ⟨s.straps.record, 3, false⟩) (f := serveRecordRead) rfl hserves hrole (by simp)
      (.inl (inRun_of_mode hmode)) hs ?_
    by_cases hrange : 2 < selector.toNat
    · exact ⟨.range, [], if_pos hrange, if_pos hrange⟩
    have hserve := serveRecordRead_of_selector (rq := rq) (index := index) hrange s.taken
    rw [if_neg hrange]
    change _ = Option.elim found _ _ at hserve
    cases hf : found with
    | none => rw [hf] at hserve; exact ⟨.notFound, [], hserve, rfl⟩
    | some data => rw [hf] at hserve; exact ⟨.done, data, hserve, rfl⟩
  · refine read_leaves (g := fun s => ⟨s.straps.record, 1, false⟩) (f := serveStatementRead) rfl hserves hrole (by simp)
      (.inl (inRun_of_mode hmode)) hs ?_
    by_cases hrange : 3 < part.toNat
    · exact ⟨.range, [], if_pos hrange, if_pos hrange⟩
    · exact ⟨.done, _, if_neg hrange, if_neg hrange⟩

/-- Settles O38. -/
theorem alarmReportRaisesAndClears : Obligations.AlarmReportRaisesAndClears := by
  unfold Obligations.AlarmReportRaisesAndClears
  intro s c holds enabled frame t
  refine ⟨report_of_same, fun hchanged => ⟨fun d => report_isActive s c d holds, report_isPending hchanged, ?_,
    (moves_report s c holds).other⟩⟩
  show (s.report c holds).link = _
  rw [report_of_changed hchanged]
  by_cases hon : s.cfg Item.conditionEnabled c.code = 1
  · rw [if_pos ((enabled_iff s c).2 hon), if_pos hon]
    cases holds <;> rfl
  · rw [if_neg (mt (enabled_iff s c).1 hon), if_neg hon]
    rfl

end Sys2Proof

/-! Frames received (R1, R6, R11, R14): what a good frame is handed on as, the peer table's entries, and O22. -/

namespace Sys2Proof.Machine

open Host

/-! ## The peer table -/

/-- An entry is looked up by its station, which no change of an entry alters. -/
theorem peer?_mapPeer (s : State) (k : Nat) {f : PeerEntry → PeerEntry} (hf : ∀ p, (f p).station = p.station) (j : Nat) :
    (s.mapPeer k f).peer? j = if j = k then (s.peer? k).map f else s.peer? j := by
  have hstation : ∀ p : PeerEntry, (if p.station = k then f p else p).station = p.station := fun p => by
    split
    · exact hf p
    · rfl
  have hsearch : (s.mapPeer k f).peer? j = (s.peer? j).map fun p => if p.station = k then f p else p := by
    unfold State.peer? State.mapPeer
    rw [List.find?_map]
    refine congrArg _ (List.find?_congr fun p _ => ?_)
    simp only [Function.comp, hstation]
  rw [hsearch]
  split
  · rename_i h
    subst h
    cases hp : s.peer? j with
    | none => rfl
    | some p =>
      have : p.station = j := by simpa using List.find?_some hp
      simp [this]
  · rename_i h
    cases hp : s.peer? j with
    | none => rfl
    | some p =>
      have : p.station ≠ k := fun hk => h ((by simpa using List.find?_some hp : p.station = j).symm.trans hk)
      simp [this]

theorem find?_insertPeer (p : PeerEntry) (l : List PeerEntry) (j : Nat) (hnew : ∀ q ∈ l, q.station ≠ p.station) :
    (insertPeer p l).find? (fun q => q.station == j) =
      if j = p.station then some p else l.find? fun q => q.station == j := by
  induction l with
  | nil =>
    by_cases h : j = p.station
    · simp [insertPeer, h]
    · simp [insertPeer, h, Ne.symm h]
  | cons q l ih =>
    have hq := hnew q List.mem_cons_self
    unfold insertPeer
    split
    · by_cases h : j = p.station
      · simp [h]
      · simp [h, List.find?_cons, Ne.symm h]
    · rw [List.find?_cons, ih fun r hr => hnew r (List.mem_cons_of_mem _ hr), List.find?_cons]
      by_cases h : j = p.station
      · rw [h, beq_false_of_ne hq]
      · simp [h]

theorem station_of_peer? {s : State} {k : Nat} {p : PeerEntry} (h : s.peer? k = some p) : p.station = k := by
  simpa using List.find?_some h

theorem mem_of_peer? {s : State} {k : Nat} {p : PeerEntry} (h : s.peer? k = some p) : p ∈ s.peers :=
  List.mem_of_find?_eq_some h

theorem peer?_eq_none {s : State} {k : Nat} : s.peer? k = none ↔ ∀ q ∈ s.peers, q.station ≠ k := by
  simp [State.peer?]

/-! ## What the alarm conditions read of the peer table -/

/-- A peer table that leaves the conflict, the stale claims and the last STATUS contents leaves every condition. -/
theorem settled_of_peers {s : State} {v : List PeerEntry} (hs : s.AlarmsSettled)
    (hconflict : ({ s with peers := v } : State).inConflict = s.inConflict)
    (hstale : ({ s with peers := v } : State).claimView.any (·.stale) = s.claimView.any (·.stale))
    (hstatus : (v.any fun p => p.status.any s.digestDiffers) = s.peers.any fun p => p.status.any s.digestDiffers) :
    ({ s with peers := v } : State).AlarmsSettled := by
  intro hrun c
  refine (hs hrun c).trans ?_
  cases c with
  | claimConflict => exact hconflict.symm
  | staleClaim => exact hstale.symm
  | configMismatch => exact hstatus.symm
  | _ => rfl

theorem otherClaims_any (s : State) (f : ViewClaim → Bool) :
    s.otherClaims.any f =
      s.peers.any fun p => p.claim.phase != .none && f ⟨p.station, p.claim.kind, p.claim.phase, p.stale⟩ := by
  simp [State.otherClaims, List.any_map, List.any_filter, Function.comp_def]

/-- The own claim is never a stale one. -/
theorem claimView_any_stale (s : State) : s.claimView.any (·.stale) = s.otherClaims.any (·.stale) := by
  unfold State.claimView
  split <;> simp

theorem any_map_congr {α β : Type} {l : List α} {g : α → β} {f : β → Bool} {k : α → Bool}
    (h : ∀ a ∈ l, f (g a) = k a) : (l.map g).any f = l.any k := by
  induction l with
  | nil => rfl
  | cons a l ih =>
    rw [List.map_cons, List.any_cons, List.any_cons, h a List.mem_cons_self,
      ih fun b hb => h b (List.mem_cons_of_mem _ hb)]

/-- A change of an entry that keeps its claim's phase, its stale mark and its STATUS contents. -/
theorem mapPeer_settled {s : State} (hs : s.AlarmsSettled) {k : Nat} {f : PeerEntry → PeerEntry}
    (hkeeps : ∀ p ∈ s.peers, p.station = k →
      (f p).claim.phase = p.claim.phase ∧ (f p).stale = p.stale ∧ (f p).status = p.status) :
    (s.mapPeer k f).AlarmsSettled := by
  have entry : ∀ (g : ClaimPhase → Bool → Option StatusMsg → Bool), ∀ p ∈ s.peers,
      g (if p.station = k then f p else p).claim.phase (if p.station = k then f p else p).stale
        (if p.station = k then f p else p).status = g p.claim.phase p.stale p.status := fun g p hp => by
    split
    · rename_i hk
      obtain ⟨hphase, hstale, hstatus⟩ := hkeeps p hp hk
      rw [hphase, hstale, hstatus]
    · rfl
  refine settled_of_peers hs ?_ ?_ (any_map_congr (entry fun _ _ m => m.any s.digestDiffers))
  · refine congrArg (s.claimActive && ·) ?_
    rw [otherClaims_any, otherClaims_any]
    exact any_map_congr (entry fun phase _ _ => phase != .none && phase == .active)
  · rw [claimView_any_stale, claimView_any_stale, otherClaims_any, otherClaims_any]
    exact any_map_congr (entry fun phase stale _ => phase != .none && stale)

theorem filter_insertPeer {p : PeerEntry} {f : PeerEntry → Bool} (h : f p = false) (l : List PeerEntry) :
    (insertPeer p l).filter f = l.filter f := by
  induction l with
  | nil => simp [insertPeer, h]
  | cons q l ih =>
    unfold insertPeer
    split
    · rw [List.filter_cons_of_neg (by simp [h])]
    · rw [List.filter_cons, ih, List.filter_cons]

/-- A peer heard for the first time has no claim and no STATUS contents yet. -/
theorem insertPeer_settled {s : State} (hs : s.AlarmsSettled) (station seq silence : Nat) :
    ({ s with peers := insertPeer (.new station seq silence) s.peers } : State).AlarmsSettled := by
  have hclaims : ({ s with peers := insertPeer (.new station seq silence) s.peers } : State).otherClaims =
      s.otherClaims := by
    unfold State.otherClaims
    rw [filter_insertPeer rfl]
  refine settled_of_peers hs ?_ ?_ (any_insertPeer _ _ _)
  · exact congrArg (fun l => s.claimActive && l.any fun c => c.phase == .active) hclaims
  · rw [claimView_any_stale, claimView_any_stale, hclaims]

/-! ## A good frame of a station -/

/-- The station as a frame it hears ends: what was gathered is complete (R1). -/
def State.heardEnd (s : State) : State := { s with link := { s.link with rx := .complete } }

section Hears

variable {s : State} {bytes : List Byte} {f : RxFrame} {p : PeerEntry}

theorem frameReceived_of_ended (hsend : s.link.sending = false) (hbusy : s.link.lineBusy = true)
    (hended : s.link.rx = .complete ∨ s.link.rx = .trailing) (bytes : List Byte) :
    s.frameReceived bytes = { s with link := { s.link with rx := .trailing } } := by
  unfold State.frameReceived
  rw [if_neg (by simp [hsend]), if_pos ⟨hbusy, by obtain h | h := hended <;> simp [h, RxPhase.ended]⟩]

theorem frameReceived_of_busy (hsend : s.link.sending = false) (hbusy : s.link.lineBusy = true)
    (hrx : s.link.rx = .idle ∨ s.link.rx = .gathering) (bytes : List Byte) :
    s.frameReceived bytes =
      match decodeFrame bytes with
      | none => { s with link := { s.link with rx := .complete }.rxError }
      | some f => s.heardEnd.goodFrame f := by
  unfold State.frameReceived
  rw [if_neg (by simp [hsend]), if_neg (fun h => by obtain k | k := hrx <;> simp [k, RxPhase.ended] at h), if_pos hbusy]
  cases decodeFrame bytes <;> rfl

theorem frameReceived_of_good (hsend : s.link.sending = false) (hbusy : s.link.lineBusy = true)
    (hrx : s.link.rx = .idle ∨ s.link.rx = .gathering) (hgood : decodeFrame bytes = some f) :
    s.frameReceived bytes = s.heardEnd.goodFrame f := by
  rw [frameReceived_of_busy hsend hbusy hrx, hgood]

theorem goodFrame_of_other (hother : f.source ≠ s.straps.number) :
    s.goodFrame f = if f.dest = s.straps.number ∨ f.dest = 31 then (s.refreshPeer f.source f.seq).handOn f
      else s.refreshPeer f.source f.seq := by
  have hstraps : (s.refreshPeer f.source f.seq).straps = s.straps := (moves_refreshPeer s _ _).other.straps
  unfold State.goodFrame
  rw [if_neg hother]
  dsimp only
  rw [hstraps]

/-- A fresh peer's entry takes the number and starts its silence timer anew (R14). -/
theorem refreshPeer_of_fresh (hp : s.peer? f.source = some p) (hfresh : p.stale = false) :
    s.refreshPeer f.source f.seq =
      s.mapPeer f.source (PeerEntry.refresh f.seq (3 * s.statusPeriod)) := by
  unfold State.refreshPeer
  rw [hp]
  exact if_neg (by simp [hfresh])

/-- The station once a frame of a fresh peer has refreshed its entry. -/
def State.heardFrom (s : State) (f : RxFrame) : State :=
  s.heardEnd.mapPeer f.source (PeerEntry.refresh f.seq (3 * s.statusPeriod))

theorem heardFrom_peer? (s : State) (f : RxFrame) (k : Nat) :
    (s.heardFrom f).peer? k =
      if k = f.source then (s.peer? k).map (PeerEntry.refresh f.seq (3 * s.statusPeriod)) else s.peer? k := by
  refine (peer?_mapPeer s.heardEnd f.source (f := PeerEntry.refresh f.seq (3 * s.statusPeriod)) (fun _ => rfl) k).trans ?_
  by_cases h : k = f.source
  · rw [if_pos h, if_pos h, h]; rfl
  · rw [if_neg h, if_neg h]; rfl

/-- A frame of a fresh peer for this station is handed on by its kind (R11). -/
theorem exec_frameReceived (h : s.Hears bytes f) (hp : s.peer? f.source = some p) (hfresh : p.stale = false) :
    exec (.frameReceived bytes) s = .next (s.finish ((s.heardFrom f).handOn f)) := by
  have hdo : exec (.frameReceived bytes) s = .next (s.poweredDo fun s => s.frameReceived bytes) := rfl
  rw [hdo, State.poweredDo, if_pos h.powered, frameReceived_of_good h.listening h.busy h.receiving h.good,
    goodFrame_of_other (s := s.heardEnd) h.other, refreshPeer_of_fresh (s := s.heardEnd) hp hfresh]
  exact congrArg (fun w => Outcome.next (s.finish w)) (if_pos h.handed)

end Hears

end Sys2Proof.Machine

namespace Sys2Proof

open Machine Host

/-- Settles O22: the frames that are discarded, then the entry of a good frame's source. -/
theorem framesRefreshTheirPeer : Obligations.FramesRefreshTheirPeer := by
  unfold Obligations.FramesRefreshTheirPeer
  refine ⟨fun bytes s hp hs hbusy hsend => ⟨fun hended => ?_, fun hrx hbad => ?_⟩,
    fun bytes f s hp hs hbusy hsend hrx hgood hother haside hfresh => ?_⟩
  · exact exec_link rfl hp hs (frameReceived_of_ended hsend hbusy hended bytes) rfl
  · refine exec_link rfl hp hs ?_ rfl
    rw [frameReceived_of_busy hsend hbusy hrx, hbad]
    rfl
  have hend : s.heardEnd.AlarmsSettled := settled_of_link (leavesOther_link s _) rfl hs
  have heffect : s.frameReceived bytes = s.heardEnd.refreshPeer f.source f.seq := by
    rw [frameReceived_of_good hsend hbusy hrx hgood, goodFrame_of_other (s := s.heardEnd) hother]
    split
    · rename_i hhanded
      obtain ⟨hnumber, hall⟩ | halarm := haside
      · exact absurd hhanded (not_or_intro hnumber hall)
      · unfold State.handOn; rw [halarm]
    · rfl
  obtain ⟨v, hpeers, hsettled⟩ : ∃ v, s.heardEnd.refreshPeer f.source f.seq = { s.heardEnd with peers := v } ∧
      ({ s.heardEnd with peers := v } : State).AlarmsSettled := by
    cases hentry : s.peer? f.source with
    | none =>
      refine ⟨_, ?_, insertPeer_settled hend f.source f.seq (3 * s.statusPeriod)⟩
      unfold State.refreshPeer
      rw [show s.heardEnd.peer? f.source = none from hentry]
      rfl
    | some p =>
      exact ⟨_, refreshPeer_of_fresh (s := s.heardEnd) hentry (hfresh p hentry),
        mapPeer_settled hend fun _ _ _ => ⟨rfl, rfl, rfl⟩⟩
  have hleaves := exec_leaves (c := .frameReceived bytes) rfl hp (heffect.trans hpeers) rfl hsettled
  obtain ⟨t, hexec, hother, himages, houts⟩ := hleaves
  have hfind : ∀ k, t.peer? k = (s.heardEnd.refreshPeer f.source f.seq).peer? k := fun k => by
    rw [hpeers]; exact congrArg (List.find? _) (hother.peers (by decide))
  refine ⟨t, hexec, hother.link (by decide), fun hentry => ?_, fun p hentry => ?_, fun k hk => ?_, ?_⟩
  · rw [hfind]
    unfold State.refreshPeer
    rw [show s.heardEnd.peer? f.source = none from hentry]
    exact (find?_insertPeer _ _ _ (peer?_eq_none.1 hentry)).trans (if_pos rfl)
  · rw [hfind, refreshPeer_of_fresh (s := s.heardEnd) hentry (hfresh p hentry)]
    refine (heardFrom_peer? s f f.source).trans ?_
    rw [if_pos rfl, hentry]
    rfl
  · rw [hfind]
    cases hentry : s.peer? f.source with
    | none =>
      unfold State.refreshPeer
      rw [show s.heardEnd.peer? f.source = none from hentry]
      exact (find?_insertPeer _ _ _ (peer?_eq_none.1 hentry)).trans (if_neg hk)
    | some p =>
      rw [refreshPeer_of_fresh (s := s.heardEnd) hentry (hfresh p hentry)]
      exact (heardFrom_peer? s f k).trans (if_neg hk)
  · refine ⟨?_, himages, houts⟩
    have hw : LeavesOther [.link, .peers] s { s.heardEnd with peers := v } :=
      ((leavesOther_link s _).trans (moves_peers s.heardEnd v).other).mono (by decide)
    exact (hw.trans hother).mono (by decide)

end Sys2Proof

/-! Frames that stay in the link unit (R8, R9, R10): what it carries it goes on carrying whatever else is handed to it,
and how much room a frame takes. -/

namespace Sys2Proof.Machine

open Host

/-- The frames of a queue with the one in hand that keeps its place in it (R8). -/
def Link.placed (l : Link) (q : QueueId) : List TxFrame :=
  (l.inHand.toList.filter (·.queue == q)).map (·.frame) ++ l.queue q

theorem count_eq_placed (l : Link) (q : QueueId) : l.count q = (l.placed q).length := by
  unfold Link.count Link.placed
  cases l.inHand with
  | none => simp
  | some h => by_cases hq : h.queue == q <;> simp [hq, Nat.add_comm]

theorem queue_setQueue (l : Link) (q : QueueId) (fs : List TxFrame) (q' : QueueId) :
    (l.setQueue q fs).queue q' = if q' = q then fs else l.queue q' := by
  cases q <;> cases q' <;> rfl

theorem setQueue_inHand (l : Link) (q : QueueId) (fs : List TxFrame) : (l.setQueue q fs).inHand = l.inHand := by
  cases q <;> rfl

theorem setQueue_rodWait (l : Link) (q : QueueId) (fs : List TxFrame) : (l.setQueue q fs).rodWait = l.rodWait := by
  cases q <;> rfl

/-- A frame taken in hand keeps its place. -/
theorem placed_take {l k : Link} {q : QueueId} {f : TxFrame} {rest : List TxFrame} (hand : l.inHand = none)
    (hq : l.queue q = f :: rest) (hk : ∀ q', k.queue q' = if q' = q then rest else l.queue q') (e : LinkEnv)
    (q' : QueueId) : (k.take e q f).placed q' = l.placed q' := by
  have hqueue : (k.take e q f).queue q' = k.queue q' := by cases q' <;> rfl
  unfold Link.placed
  rw [hqueue, hk, hand]
  show (([⟨q, f, _, _⟩] : List InHand).filter _).map _ ++ _ = _
  by_cases h : q' = q
  · subst h; simp [hq]
  · simp [h, Ne.symm h]

theorem placed_arbitrate (e : LinkEnv) (l : Link) (q : QueueId) : (l.arbitrate e).placed q = l.placed q := by
  cases hand : l.inHand with
  | some h => rw [arbitrate_of_inHand hand]
  | none =>
    cases hurgent : l.urgent with
    | cons f rest =>
      rw [arbitrate_of_urgent hand hurgent]
      exact placed_take (q := .urgent) hand hurgent (fun q' => by cases q' <;> rfl) e q
    | nil =>
      by_cases hover : l.queue l.arbQueue = [] ∨ e.weight l.arbQueue ≤ l.arbCount
      · rw [arbitrate_of_next hand hurgent hover]
        unfold Link.arbitrate.next
        split
        · rfl
        · rename_i q₁ _
          split
          · rfl
          · rename_i hq
            refine placed_take hand hq (fun q' => ?_) e q
            rw [← queue_setQueue]
            cases q' <;> rfl
      · obtain ⟨hq, hcount⟩ := not_or.1 hover
        obtain ⟨f, rest, hq⟩ := List.exists_cons_of_ne_nil hq
        rw [arbitrate_of_turn hand hurgent hq (not_le.1 hcount)]
        refine placed_take hand hq (fun q' => ?_) e q
        rw [← queue_setQueue]
        cases q' <;> rfl

theorem placed_preempt (l : Link) (q : QueueId) : l.preempt.placed q = l.placed q := by
  unfold Link.preempt
  split
  · rename_i h hand
    split
    · have hqueue : (l.putBack h).queue q = if q = h.queue then h.frame :: l.queue h.queue else l.queue q := by
        rw [← queue_setQueue]; cases q <;> rfl
      unfold Link.placed
      rw [hqueue, hand]
      show [] ++ _ = _
      by_cases hq : q = h.queue
      · subst hq; simp
      · simp [hq, Ne.symm hq]
    · rfl
  · rfl

/-- The arbiter moves no frame out of its queue (R8, R10). -/
theorem placed_settle (e : LinkEnv) (l : Link) (q : QueueId) : (l.settle e).placed q = l.placed q :=
  (placed_arbitrate e _ q).trans (placed_preempt l q)

theorem arbitrate_rodWait (e : LinkEnv) (l : Link) : (l.arbitrate e).rodWait = l.rodWait := by
  unfold Link.arbitrate Link.arbitrate.next Link.take
  repeat' split
  all_goals first | rfl | exact setQueue_rodWait _ _ _

theorem settle_rodWait (e : LinkEnv) (l : Link) : (l.settle e).rodWait = l.rodWait := by
  refine (arbitrate_rodWait e _).trans ?_
  unfold Link.preempt
  repeat' split
  all_goals first | rfl | exact setQueue_rodWait _ _ _

/-! ## What a hand-over does to the queues -/

/-- A frame waits for the line in RIG or in URGENT, in hand or not, or outside them (R9). -/
def Link.Carries (l : Link) (f : TxFrame) : Prop := f ∈ l.rodWait ∨ f ∈ l.placed .urgent ∨ f ∈ l.placed .rig

theorem Link.Carries.holds {l : Link} {f : TxFrame} (h : l.Carries f) : l.Holds f := by
  have hplaced : ∀ q, f ∈ l.placed q → (∃ h, l.inHand = some h ∧ h.frame = f) ∨ f ∈ l.queue q := fun q h => by
    refine (List.mem_append.1 h).imp (fun h => ?_) id
    obtain ⟨i, hi, rfl⟩ := List.mem_map.1 h
    exact ⟨i, Option.mem_toList.1 (List.mem_filter.1 hi).1, rfl⟩
  obtain h | h | h := h
  · exact .inl h
  · obtain h | h := hplaced _ h
    · exact .inr (.inr (.inr h))
    · exact .inr (.inl h)
  · obtain h | h := hplaced _ h
    · exact .inr (.inr (.inr h))
    · exact .inr (.inr (.inl h))

/-- Frames that replace none stay: what `l` carries of them, `l'` carries. -/
def Link.CarriesOn (l l' : Link) : Prop := ∀ f, f.kind.merges = false → l.Carries f → l'.Carries f

theorem Link.CarriesOn.refl (l : Link) : l.CarriesOn l := fun _ _ => id

theorem Link.CarriesOn.trans {a b c : Link} (h : a.CarriesOn b) (k : b.CarriesOn c) : a.CarriesOn c :=
  fun f hf ha => k f hf (h f hf ha)

theorem Link.CarriesOn.of_queues {l l' : Link} (hwait : ∀ f ∈ l.rodWait, f ∈ l'.rodWait)
    (hurgent : ∀ f, f.kind.merges = false → f ∈ l.placed .urgent → f ∈ l'.placed .urgent)
    (hrig : ∀ f, f.kind.merges = false → f ∈ l.placed .rig → f ∈ l'.placed .rig) : l.CarriesOn l' :=
  fun f hf h => h.imp (hwait f) (.imp (hurgent f hf) (hrig f hf))

theorem carriesOn_settle (e : LinkEnv) (l : Link) : l.CarriesOn (l.settle e) := by
  intro f _ h
  unfold Link.Carries
  rwa [settle_rodWait, placed_settle, placed_settle]

/-- A queue that grows carries what it did. -/
theorem mem_placed_of_queue {l l' : Link} {q : QueueId} (hand : l'.inHand = l.inHand) {f : TxFrame}
    (hqueue : f ∈ l.queue q → f ∈ l'.queue q) (h : f ∈ l.placed q) : f ∈ l'.placed q := by
  unfold Link.placed at h ⊢
  rw [hand]
  exact List.mem_append.2 ((List.mem_append.1 h).imp_right hqueue)

theorem mem_replaceIn {new f : TxFrame} {q q' : List TxFrame} (h : replaceIn new q = some q')
    (hf : f.kind.merges = false) (hmem : f ∈ q) : f ∈ q' := by
  obtain ⟨before, old, after, rfl, hold, -, rfl⟩ := replaceIn_eq_some.1 h
  have hne : f ≠ old := by
    rintro rfl
    simp only [TxFrame.replacedBy, Bool.and_eq_true, beq_iff_eq] at hold
    rw [hold.1.2, hold.1.1] at hf
    cases hf
  simp only [List.mem_append, List.mem_cons] at hmem ⊢
  tauto

theorem mem_dropMerging {f : TxFrame} {q q' : List TxFrame} (h : dropMerging q = some q')
    (hf : f.kind.merges = false) (hmem : f ∈ q) : f ∈ q' := by
  induction q generalizing q' with
  | nil => cases hmem
  | cons g q ih =>
    unfold dropMerging at h
    split at h
    · rename_i hg
      cases h
      refine (List.mem_cons.1 hmem).resolve_left ?_
      rintro rfl
      rw [hf] at hg
      cases hg
    · obtain ⟨q'', hq'', rfl⟩ := Option.map_eq_some_iff.1 h
      obtain rfl | hmem := List.mem_cons.1 hmem
      · exact List.mem_cons_self
      · exact List.mem_cons_of_mem _ (ih hq'' hmem)

section HandOver

variable (e : LinkEnv) (f : TxFrame) (l : Link)

theorem carriesOn_urgent {l : Link} {fs : List TxFrame} (h : ∀ g, g.kind.merges = false → g ∈ l.urgent → g ∈ fs) :
    l.CarriesOn { l with urgent := fs } :=
  .of_queues (fun _ => id) (fun g hg => mem_placed_of_queue (l := l) (l' := { l with urgent := fs }) (q := .urgent) rfl (h g hg))
    fun _ _ => mem_placed_of_queue rfl id

theorem carriesOn_rig {l : Link} {fs : List TxFrame} (h : ∀ g, g.kind.merges = false → g ∈ l.rig → g ∈ fs) :
    l.CarriesOn { l with rig := fs } :=
  .of_queues (fun _ => id) (fun _ _ => mem_placed_of_queue rfl id) fun g hg =>
    mem_placed_of_queue (l := l) (l' := { l with rig := fs }) (q := .rig) rfl (h g hg)

theorem carriesOn_wait : l.CarriesOn { l with rodWait := l.rodWait ++ [f] } :=
  .of_queues (fun _ h => List.mem_append_left _ h) (fun _ _ => mem_placed_of_queue rfl id)
    fun _ _ => mem_placed_of_queue rfl id

theorem carriesOn_record (kind : FaultKind) (peer : Option Nat) (frame : Option FrameKind) (seqTag : Option Nat) :
    l.CarriesOn (l.record e kind peer frame seqTag) := by
  rw [record_eq]
  exact .refl l

theorem carriesOn_handUrgent : l.CarriesOn (l.handUrgent e f) := by
  unfold Link.handUrgent
  split
  · rename_i fs h
    exact carriesOn_urgent fun g hg => mem_replaceIn h hg
  · split
    · exact carriesOn_wait f l
    · split
      · exact (carriesOn_urgent fun g _ h => List.mem_append_left _ h).trans (carriesOn_settle e _)
      · split
        · exact carriesOn_wait f l
        · exact carriesOn_record e l _ _ _ _

theorem carriesOn_handRig : l.CarriesOn (l.handRig e f) := by
  unfold Link.handRig
  split
  · rename_i fs h
    exact carriesOn_rig fun g hg => mem_replaceIn h hg
  · split
    · exact carriesOn_wait f l
    · split
      · exact (carriesOn_rig fun g _ h => List.mem_append_left _ h).trans (carriesOn_settle e _)
      · split
        · rename_i fs h
          exact (carriesOn_rig fun g hg hmem => List.mem_append_left _ (mem_dropMerging h hg hmem)).trans
            (carriesOn_settle e _)
        · split
          · exact carriesOn_wait f l
          · exact .refl l

theorem carriesOn_handPlain (q : QueueId) : l.CarriesOn (l.handPlain e q f) := by
  unfold Link.handPlain
  split
  · refine Link.CarriesOn.trans (.of_queues ?_ ?_ ?_) (carriesOn_settle e _)
    · rw [setQueue_rodWait]; exact fun _ => id
    all_goals
      refine fun g _ => mem_placed_of_queue (setQueue_inHand l q _) fun h => ?_
      rw [queue_setQueue]
      split
      · subst q; exact List.mem_append_left _ h
      · exact h
  · exact .refl l

/-- A frame handed over makes no other than a STATUS, STROKES or HEAD frame go (R8, R9). -/
theorem carriesOn_handOver (q : QueueId) : l.CarriesOn (l.handOver e q f) := by
  unfold Link.handOver
  split
  · exact .refl l
  · split
    · exact carriesOn_handUrgent e f l
    · cases q with
      | rig => exact carriesOn_handRig e f l
      | _ => exact carriesOn_handPlain e f l _

end HandOver

/-! ## Room (R8) -/

/-- No ROD_EVENT frame waits outside a full queue, and `n` frames more find room in RIG and in URGENT. -/
structure Link.Slack (n : Nat) (l : Link) : Prop where
  wait : l.rodWait = []
  rig : (l.placed .rig).length + n ≤ 16
  urgent : (l.placed .urgent).length + n ≤ 8

theorem Link.Roomy.slack {l : Link} (h : l.Roomy) : l.Slack 2 := by
  obtain ⟨hwait, hrig, hurgent⟩ := h
  rw [count_eq_placed] at hrig hurgent
  exact ⟨hwait, by omega, by omega⟩

theorem Link.Slack.mono {l : Link} {m n : Nat} (h : l.Slack n) (hmn : m ≤ n) : l.Slack m :=
  ⟨h.wait, by have := h.rig; omega, by have := h.urgent; omega⟩

theorem Link.Slack.of_placed {l l' : Link} {n m : Nat} (h : l.Slack n) (hwait : l'.rodWait = l.rodWait)
    (hrig : (l'.placed .rig).length + m ≤ (l.placed .rig).length + n)
    (hurgent : (l'.placed .urgent).length + m ≤ (l.placed .urgent).length + n) : l'.Slack m :=
  ⟨hwait.trans h.wait, hrig.trans h.rig, hurgent.trans h.urgent⟩

theorem slack_settle {l : Link} {n : Nat} (h : l.Slack n) (e : LinkEnv) : (l.settle e).Slack n :=
  h.of_placed (settle_rodWait e l) (by rw [placed_settle]) (by rw [placed_settle])

theorem length_replaceIn {new : TxFrame} {q q' : List TxFrame} (h : replaceIn new q = some q') :
    q'.length = q.length := by
  obtain ⟨before, old, after, rfl, -, -, rfl⟩ := replaceIn_eq_some.1 h
  simp

theorem placed_length (l : Link) (q : QueueId) :
    (l.placed q).length = (l.inHand.toList.filter (·.queue == q)).length + (l.queue q).length := by
  simp [Link.placed]

theorem hasRoom_of_slack {l : Link} {n : Nat} (h : l.Slack (n + 1)) :
    l.hasRoom .urgent = true ∧ l.hasRoom .rig = true := by
  have hu := h.urgent
  have hr := h.rig
  rw [hasRoom_eq h.wait, hasRoom_eq h.wait, count_eq_placed, count_eq_placed]
  exact ⟨decide_eq_true (by simp only [QueueId.room, Config.urgentRoom]; omega),
    decide_eq_true (by simp only [QueueId.room, Config.rigRoom]; omega)⟩

section Slack

variable {l : Link} {n : Nat} {f : TxFrame}

theorem handUrgent_of_slack (h : l.Slack (n + 1)) (hnone : replaceIn f l.urgent = none) (e : LinkEnv) :
    l.handUrgent e f = ({ l with urgent := l.urgent ++ [f] } : Link).settle e := by
  unfold Link.handUrgent
  rw [hnone]
  dsimp only
  rw [if_neg (by simp [h.wait]), if_pos (hasRoom_of_slack h).1]

theorem handRig_of_slack (h : l.Slack (n + 1)) (hnone : replaceIn f l.rig = none) (e : LinkEnv) :
    l.handRig e f = ({ l with rig := l.rig ++ [f] } : Link).settle e := by
  unfold Link.handRig
  rw [hnone]
  dsimp only
  rw [if_neg (by simp [h.wait]), if_pos (hasRoom_of_slack h).2]

theorem slack_urgent {fs : List TxFrame} (h : l.Slack (n + 1)) (hfs : fs.length ≤ l.urgent.length + 1) :
    ({ l with urgent := fs } : Link).Slack n := by
  refine h.of_placed rfl ?_ ?_
  · rw [placed_length, placed_length]; exact Nat.add_le_add_left (Nat.le_succ n) _
  · rw [placed_length, placed_length]
    show (l.inHand.toList.filter _).length + fs.length + n ≤
      (l.inHand.toList.filter _).length + l.urgent.length + (n + 1)
    omega

theorem slack_rig {fs : List TxFrame} (h : l.Slack (n + 1)) (hfs : fs.length ≤ l.rig.length + 1) :
    ({ l with rig := fs } : Link).Slack n := by
  refine h.of_placed rfl ?_ ?_
  · rw [placed_length, placed_length]
    show (l.inHand.toList.filter _).length + fs.length + n ≤ (l.inHand.toList.filter _).length + l.rig.length + (n + 1)
    omega
  · rw [placed_length, placed_length]; exact Nat.add_le_add_left (Nat.le_succ n) _

/-- A frame handed over takes one place at most (R8). -/
theorem slack_handOver (h : l.Slack (n + 1)) (e : LinkEnv) (q : QueueId) : (l.handOver e q f).Slack n := by
  by_cases hl : l.listenOnly = true
  · rw [handOver_silent hl]; exact h.mono (Nat.le_succ n)
  have hl : l.listenOnly = false := by simpa using hl
  cases hf : f.urgent with
  | true =>
    rw [handOver_urgent hl hf]
    cases hr : replaceIn f l.urgent with
    | some fs =>
      rw [handUrgent_of_replaced hr]
      exact slack_urgent h ((length_replaceIn hr).trans_le (Nat.le_succ _))
    | none =>
      rw [handUrgent_of_slack h hr]
      exact slack_settle (slack_urgent h (by simp)) e
  | false =>
    have hplain : ∀ q, q ≠ .rig → (l.setQueue q (l.queue q ++ [f])).Slack n := fun q hq => by
      refine h.of_placed (setQueue_rodWait l q _) ?_ ?_
      all_goals
        rw [placed_length, placed_length, setQueue_inHand, queue_setQueue]
        split
        · simp_all <;> omega
        · omega
    have hdrop : ∀ q, q ≠ .rig → (l.handPlain e q f).Slack n := fun q hq => by
      unfold Link.handPlain
      split
      · exact slack_settle (hplain q hq) e
      · exact h.of_placed rfl (Nat.add_le_add_left (Nat.le_succ n) _) (Nat.add_le_add_left (Nat.le_succ n) _)
    unfold Link.handOver
    rw [if_neg (by simp [hl]), if_neg (by simp [hf])]
    cases q with
    | rig =>
      dsimp only
      cases hr : replaceIn f l.rig with
      | some fs =>
        rw [handRig_of_replaced hr]
        exact slack_rig h ((length_replaceIn hr).trans_le (Nat.le_succ _))
      | none =>
        rw [handRig_of_slack h hr]
        exact slack_settle (slack_rig h (by simp)) e
    | _ => exact hdrop _ (by decide)

theorem replaceIn_none_of_kind (hf : f.kind.merges = false) (q : List TxFrame) : replaceIn f q = none :=
  replaceIn_eq_none.2 fun g _ => by simp [TxFrame.replacedBy, hf]

theorem mem_placed_settled {l' : Link} {q : QueueId} (hf : f ∈ l'.queue q) (e : LinkEnv) :
    f ∈ (l'.settle e).placed q := by
  rw [placed_settle]
  exact List.mem_append_right _ hf

/-- An URGENT frame that replaces none is carried where there is room. -/
theorem carries_handed_urgent (h : l.Slack (n + 1)) (hl : l.listenOnly = false) (hf : f.urgent = true)
    (hkind : f.kind.merges = false) (e : LinkEnv) (q : QueueId) : (l.handOver e q f).Carries f := by
  rw [handOver_urgent hl hf, handUrgent_of_slack h (replaceIn_none_of_kind hkind _)]
  exact .inr (.inl (mem_placed_settled (q := .urgent) (List.mem_append_right _ List.mem_cons_self) e))

/-- A ROD_EVENT frame is never dropped but in LISTEN_ONLY: it joins its queue or waits to (R9). -/
theorem carries_handed_event (hl : l.listenOnly = false) (hkind : f.kind = .rodEvent) (e : LinkEnv) :
    (l.handOver e .rig f).Carries f := by
  have hmerges : f.kind.merges = false := by rw [hkind]; rfl
  have hwaits : ({ l with rodWait := l.rodWait ++ [f] } : Link).Carries f :=
    .inl (List.mem_append_right _ List.mem_cons_self)
  cases hf : f.urgent with
  | true =>
    rw [handOver_urgent hl hf]
    unfold Link.handUrgent
    rw [replaceIn_none_of_kind hmerges]
    dsimp only
    split
    · exact hwaits
    · split
      · exact .inr (.inl (mem_placed_settled (q := .urgent) (List.mem_append_right _ List.mem_cons_self) e))
      · exact hwaits
  | false =>
    rw [handOver_rig hl hf]
    unfold Link.handRig
    rw [replaceIn_none_of_kind hmerges]
    dsimp only
    rw [if_pos hkind]
    split
    · exact hwaits
    · split
      · exact .inr (.inr (mem_placed_settled (q := .rig) (List.mem_append_right _ List.mem_cons_self) e))
      · split
        · exact .inr (.inr (mem_placed_settled (q := .rig) (List.mem_append_right _ List.mem_cons_self) e))
        · exact hwaits

end Slack

/-! ## At the end of a step -/

theorem carriesOn_report (s : State) (c : AlarmCond) (b : Bool) : s.link.CarriesOn (s.report c b).link := by
  unfold State.report
  split
  · exact .refl _
  · split
    · exact carriesOn_handOver _ _ _ _
    · exact .refl _

theorem carriesOn_follow (cs : List AlarmCond) (s : State) : s.link.CarriesOn (cs.foldl State.follow s).link := by
  induction cs generalizing s with
  | nil => exact .refl _
  | cons c cs ih => exact (carriesOn_report s c _).trans (ih (s.follow c))

theorem carriesOn_alarmsFollow (s : State) : s.link.CarriesOn s.alarmsFollow.link := by
  unfold State.alarmsFollow
  split
  · exact (carriesOn_follow AlarmCond.all s).trans (carriesOn_report _ _ _)
  · exact .refl _

theorem carriesOn_finish (s w : State) : w.link.CarriesOn (s.finish w).link := by
  rw [finish_link]
  exact carriesOn_alarmsFollow w

end Sys2Proof.Machine

/-! Claims heard and cleared (O23, O39): the claim view after a change of one entry, and what the pumps, the permit and
the own claim make of it. -/

namespace Sys2Proof.Machine

open Host

/-! ## The end of a step, part by part -/

theorem finish_rest (s w : State) (h : w.pending = s.pending) : LeavesOther [.alarm, .link] w (s.finish w) :=
  (finish_settles s w h).rest.other

/-- In RUN a flag stands at the end of the step as its condition did at the effect's. -/
theorem finish_isActive (s : State) {w : State} (hrun : w.inRun = true) {c : AlarmCond} (hc : c ≠ .linkFault) :
    (s.finish w).alarm.isActive c = w.alarmCond c := by
  have hmode : (s.finish w).inRun = true := by
    unfold State.inRun at hrun ⊢
    rw [finish_mode, hrun]
  rw [finish_settled s w hmode c, finish_cond]
  exact alarmCond_eq (moves_alarmsFollow w).other hc

theorem inRun_iff (s : State) : s.inRun = true ↔ s.mode = .run := beq_iff_eq

/-! ## The claims of other stations -/

theorem mem_otherClaims {s : State} {v : ViewClaim} :
    v ∈ s.otherClaims ↔ ∃ p ∈ s.peers, p.claim.phase ≠ .none ∧ v = ⟨p.station, p.claim.kind, p.claim.phase, p.stale⟩ := by
  simp only [State.otherClaims, List.mem_map, List.mem_filter, bne_iff_ne, and_assoc]
  exact exists_congr fun p => and_congr_right fun _ => and_congr_right fun _ => eq_comm

theorem otherClaims_congr {s t : State} (h : t.peers = s.peers) : t.otherClaims = s.otherClaims := by
  unfold State.otherClaims; rw [h]

/-- The view holds a claim: the own one, or another station's (R37). -/
theorem viewHolds_iff (s : State) :
    s.viewHolds = true ↔ s.ret.claim.phase ≠ .none ∨ ∃ v, v ∈ s.otherClaims := by
  unfold State.viewHolds State.claimView
  by_cases h : s.ret.claim.phase = .none
  · simp [h, List.eq_nil_iff_forall_not_mem]
  · simp [h]

theorem viewHolds_eq_false (s : State) :
    s.viewHolds = false ↔ s.ret.claim.phase = .none ∧ ∀ v, v ∉ s.otherClaims := by
  rw [← Bool.not_eq_true, viewHolds_iff, not_or, not_not, not_exists]

theorem inConflict_iff (s : State) :
    s.inConflict = true ↔ s.ret.claim.phase = .active ∧ ∃ v ∈ s.otherClaims, v.phase = .active := by
  simp [State.inConflict, State.claimActive]

/-- An entry's claim replaced. -/
def State.claimSet (s : State) (k : Nat) (c : Claim) : State := s.mapPeer k fun p => { p with claim := c }

theorem claimSet_peer? (s : State) (k : Nat) (c : Claim) (j : Nat) :
    (s.claimSet k c).peer? j = if j = k then (s.peer? k).map fun p => { p with claim := c } else s.peer? j :=
  peer?_mapPeer s k (f := fun p => { p with claim := c }) (fun _ => rfl) j

/-- The claims in view once an entry's claim is replaced: those of the other stations, and the new one. -/
theorem mem_otherClaims_claimSet {s : State} {k : Nat} {c : Claim} {v : ViewClaim} :
    v ∈ (s.claimSet k c).otherClaims ↔
      (v ∈ s.otherClaims ∧ v.station ≠ k) ∨
        (c.phase ≠ .none ∧ ∃ p ∈ s.peers, p.station = k ∧ v = ⟨k, c.kind, c.phase, p.stale⟩) := by
  simp only [mem_otherClaims, State.claimSet, State.mapPeer, List.mem_map]
  constructor
  · rintro ⟨_, ⟨p, hp, rfl⟩, hphase, rfl⟩
    by_cases hk : p.station = k
    · rw [if_pos hk] at hphase ⊢
      exact .inr ⟨hphase, p, hp, hk, by rw [← hk]⟩
    · rw [if_neg hk] at hphase ⊢
      exact .inl ⟨⟨p, hp, hphase, rfl⟩, hk⟩
  · rintro (⟨⟨p, hp, hphase, rfl⟩, hk⟩ | ⟨hphase, p, hp, hk, rfl⟩)
    · exact ⟨p, ⟨p, hp, if_neg hk⟩, hphase, rfl⟩
    · exact ⟨_, ⟨p, hp, if_pos hk⟩, hphase, by rw [← hk]⟩

theorem otherClaims_claimSet_none (s : State) (k : Nat) {c : Claim} (hc : c.phase = .none) :
    (s.claimSet k c).otherClaims = s.otherClaims.filter fun v => v.station != k := by
  have hentry : ∀ l : List PeerEntry,
      (l.map fun p => if p.station = k then { p with claim := c } else p).filter (fun p => p.claim.phase != .none) =
        l.filter fun p => p.claim.phase != .none && p.station != k := by
    intro l
    induction l with
    | nil => rfl
    | cons p l ih =>
      rw [List.map_cons, List.filter_cons, List.filter_cons, ih]
      by_cases hk : p.station = k <;> simp [hk, hc]
  simp only [State.otherClaims, State.claimSet, State.mapPeer, hentry, List.filter_map, List.filter_filter,
    Function.comp_def]
  simp only [Bool.and_comm]

theorem viewHolds_claimSet {s : State} {k : Nat} {c : Claim} :
    (s.claimSet k c).viewHolds = true ↔
      s.ret.claim.phase ≠ .none ∨ (∃ v ∈ s.otherClaims, v.station ≠ k) ∨ (c.phase ≠ .none ∧ (s.peer? k).isSome) := by
  have hknown : (s.peer? k).isSome = true ↔ ∃ p ∈ s.peers, p.station = k := by simp [State.peer?, List.find?_isSome]
  rw [viewHolds_iff, hknown]
  refine or_congr Iff.rfl ?_
  constructor
  · rintro ⟨v, hv⟩
    obtain ⟨hv, hk⟩ | ⟨hphase, p, hp, hk, -⟩ := mem_otherClaims_claimSet.1 hv
    · exact .inl ⟨v, hv, hk⟩
    · exact .inr ⟨hphase, p, hp, hk⟩
  · rintro (⟨v, hv, hk⟩ | ⟨hphase, p, hp, hk⟩)
    · exact ⟨v, mem_otherClaims_claimSet.2 (.inl ⟨hv, hk⟩)⟩
    · exact ⟨_, mem_otherClaims_claimSet.2 (.inr ⟨hphase, p, hp, hk, rfl⟩)⟩

/-! ## The permit and the pumps follow the view (R41, R42, R57) -/

theorem permitNow_of_idle {s : State} (hrun : s.inRun = true) (hspin : s.spin.state ≠ .running) :
    s.permitNow = (s.straps.head && s.claims.listen.isNone && !s.viewHolds) := by
  simp [State.permitNow, hrun, beq_false_of_ne hspin, Bool.and_assoc]

theorem reevalPermit_spin (s : State) : s.reevalPermit.spin = { s.spin with permit := s.permitNow } := by
  unfold State.reevalPermit
  split
  · rename_i h; rw [h]
  · exact (moves_headCall _).other.spin (by decide)

theorem reevalPermit_pumps (s : State) : s.reevalPermit.pumps = s.pumps :=
  (moves_reevalPermit s).other.pumps (by decide)

theorem viewChanged_same {s : State} {b : Bool} (h : s.viewHolds = b) : s.viewChanged b = s := by
  unfold State.viewChanged
  rw [h]
  cases b <;> simp

theorem viewChanged_claimed {s : State} (hrun : s.inRun = true) (h : s.viewHolds = true) :
    State.viewChanged false s = s.pumpsClaimed.reevalPermit := by
  unfold State.viewChanged
  simp [hrun, h]

theorem viewChanged_freed {s : State} (hrun : s.inRun = true) (h : s.viewHolds = false) :
    State.viewChanged true s = s.pumpsFreed.reevalPermit := by
  unfold State.viewChanged
  simp [hrun, h]

/-- The view comes to hold a claim (R57). -/
theorem claimed_eq (c : PumpChannel) :
    c.claimed =
      if c.state = .starting ∨ c.state = .running ∨ c.state = .stopping then
        { c with state := .held, staged := 0, startTimer := none, highCount := 0 }
      else c := by
  unfold PumpChannel.claimed
  cases h : c.state <;> simp

/-- The view becomes empty (R57). -/
theorem freed_eq (duty : Nat) (c : PumpChannel) :
    c.freed duty =
      if c.state ≠ .held then c
      else if 0 < c.target then
        { c with state := .starting, staged := duty, startTimer := some 5000, refValid := false }
      else if c.strokeStopped then { c with state := .stopped, staged := 0, startTimer := none, highCount := 0 }
      else { c with state := .stopping, staged := 0, startTimer := none, highCount := 0 } := by
  unfold PumpChannel.freed
  cases h : c.state <;> simp only [ne_eq, reduceCtorEq, not_false_eq_true, not_true_eq_false, if_true, if_false]
  rfl

theorem chan_congr {s t : State} (h : t.pumps = s.pumps) (i : PumpId) : t.chan i = s.chan i :=
  congrArg (fun p : Pumps => p.get i) h

theorem chan_claimed (s : State) (i : PumpId) : s.pumpsClaimed.reevalPermit.chan i = (s.chan i).claimed :=
  (chan_congr (reevalPermit_pumps _) i).trans (chan_mapPumps s _ i)

theorem chan_freed (s : State) (i : PumpId) : s.pumpsFreed.reevalPermit.chan i = (s.chan i).freed (s.startDuty i) :=
  (chan_congr (reevalPermit_pumps _) i).trans (chan_mapPumps s _ i)

/-! ## A change of an entry's claim -/

theorem spinOwnerCheck_of_idle {s : State} (h : s.spin.state ≠ .running) : s.spinOwnerCheck = s := by
  unfold State.spinOwnerCheck; exact if_neg fun k => h k.1

theorem takeTest_of_not {s : State} (h : s.mayTake = false) : s.takeTest = s := by
  unfold State.takeTest; exact if_neg (by simp [h])

theorem peerClaimOf_of_some {s : State} {k : Nat} {p : PeerEntry} (h : s.peer? k = some p) :
    s.peerClaimOf k = p.claim := by
  unfold State.peerClaimOf; rw [h]; rfl

section SetPeerClaim

variable {s : State} {k : Nat} {c : Claim}

/-- What a change of an entry's claim does beyond the entry moves none of the peer table. -/
theorem setPeerClaim_rest (s : State) (k : Nat) (c : Claim) :
    LeavesOther claimParts (s.claimSet k c) (s.setPeerClaim k c) := by
  have hview := (moves_viewChanged s.viewHolds _).last (p := claimParts) (by decide)
    ((moves_spinOwnerCheck (s.claimSet k c)).mono (by decide))
  have h : Moves claimParts (s.claimSet k c) (s.setPeerClaim k c) :=
    Moves.ite (fun _ => Moves.ite (fun _ => Moves.ite (fun _ => hview) fun _ => (moves_takeTest _).last (by decide) hview)
      fun _ => Moves.ite (fun _ => hview) fun _ => (moves_examineClaim _ _ _).last (by decide) hview)
      fun _ => .refl _ _
  exact h.other

variable (hrun : s.inRun = true) (hspin : s.spin.state ≠ .running)

include hrun hspin

theorem setPeerClaim_of_run :
    s.setPeerClaim k c =
      if c.phase = .none then
        if (s.peerClaimOf k).phase = .none then (s.claimSet k c).viewChanged s.viewHolds
        else ((s.claimSet k c).viewChanged s.viewHolds).takeTest
      else if c.phase = (s.peerClaimOf k).phase then (s.claimSet k c).viewChanged s.viewHolds
      else ((s.claimSet k c).viewChanged s.viewHolds).examineClaim k c.phase := by
  have howner : (s.claimSet k c).spinOwnerCheck = s.claimSet k c := spinOwnerCheck_of_idle hspin
  have hdef : s.setPeerClaim k c = if s.inRun then
      (if c.phase = .none then
        (if (s.peerClaimOf k).phase = .none then (s.claimSet k c).spinOwnerCheck.viewChanged s.viewHolds
        else ((s.claimSet k c).spinOwnerCheck.viewChanged s.viewHolds).takeTest)
      else if c.phase = (s.peerClaimOf k).phase then (s.claimSet k c).spinOwnerCheck.viewChanged s.viewHolds
      else ((s.claimSet k c).spinOwnerCheck.viewChanged s.viewHolds).examineClaim k c.phase) else s.claimSet k c := rfl
  rw [hdef, if_pos hrun, howner]

/-- A phase heard again changes the entry only. -/
theorem setPeerClaim_of_same {p : PeerEntry} (hp : s.peer? k = some p) (hphase : c.phase = p.claim.phase)
    (hview : (s.claimSet k c).viewHolds = s.viewHolds) : s.setPeerClaim k c = s.claimSet k c := by
  rw [setPeerClaim_of_run hrun hspin, peerClaimOf_of_some hp, viewChanged_same hview, ← hphase, if_pos rfl]
  by_cases hnone : c.phase = .none
  · rw [if_pos hnone, if_pos hnone]
  · rw [if_neg hnone]

/-- A claim that leaves the view. -/
theorem setPeerClaim_of_gone (hgone : c.phase = .none) (hheld : (s.peerClaimOf k).phase ≠ .none) :
    s.setPeerClaim k c = ((s.claimSet k c).viewChanged s.viewHolds).takeTest := by
  rw [setPeerClaim_of_run hrun hspin, if_pos hgone, if_neg hheld]

/-- A claim that enters the view or changes phase. -/
theorem setPeerClaim_of_new (hnew : c.phase ≠ .none) (hchange : c.phase ≠ (s.peerClaimOf k).phase) :
    s.setPeerClaim k c = ((s.claimSet k c).viewChanged s.viewHolds).examineClaim k c.phase := by
  rw [setPeerClaim_of_run hrun hspin, if_neg hnew, if_neg hchange]

end SetPeerClaim

/-! ## CLAIM_CLEAR (R39) -/

section ClaimClear

variable {rq : ReqHead} {station : Byte} {s : State}

theorem serveClaimClear_of_range (h : station.toNat < 1 ∨ 30 < station.toNat) :
    serveClaimClear (requestOf rq 6 [station]) s = s.refuse .range := if_pos h

/-- The tests that remain for a station number of 1 to 30. -/
theorem serveClaimClear_of_station (h : ¬(station.toNat < 1 ∨ 30 < station.toNat)) :
    serveClaimClear (requestOf rq 6 [station]) s =
      if station.toNat = s.straps.number then s.refuse .state
      else if (s.peerClaimOf station.toNat).phase = .none then s.refuse .notFound
      else if !((s.peer? station.toNat).any (·.stale)) then s.refuse .state
      else (s.setPeerClaim station.toNat .absent).done := if_neg h

/-- With the claim gone and none left, the pumps that were HELD resume (R57). -/
theorem chan_of_cleared {k : Nat} {p : PeerEntry} (hrun : s.inRun = true) (hspin : s.spin.state ≠ .running)
    (hp : s.peer? k = some p) (hheld : p.claim.phase ≠ .none)
    (hothers : ∀ q ∈ s.peers, q.station ≠ k → q.claim.phase = .none) (hown : s.ret.claim.phase = .none)
    (htake : s.claims.takeRequest = false) (i : PumpId) :
    (s.setPeerClaim k .absent).chan i = (s.chan i).freed (s.startDuty i) := by
  have hempty : (s.claimSet k .absent).viewHolds = false := by
    rw [← Bool.not_eq_true, viewHolds_claimSet]
    rintro (h | ⟨v, hv, hk⟩ | ⟨h, -⟩)
    · exact h hown
    · obtain ⟨q, hq, hphase, rfl⟩ := mem_otherClaims.1 hv
      exact hphase (hothers q hq hk)
    · exact h rfl
  have hwas : s.viewHolds = true :=
    (viewHolds_iff s).2 (.inr ⟨_, mem_otherClaims.2 ⟨p, mem_of_peer? hp, hheld, rfl⟩⟩)
  rw [setPeerClaim_of_gone hrun hspin rfl (by rwa [peerClaimOf_of_some hp]), hwas,
    viewChanged_freed (s := s.claimSet k .absent) hrun hempty, takeTest_of_not]
  · exact chan_freed (s.claimSet k .absent) i
  · have hclaims := (moves_reevalPermit (s.claimSet k .absent).pumpsFreed).other.claims (by decide)
    unfold State.mayTake
    rw [hclaims]
    show (s.claims.takeRequest && _ && _ && _ && _ && _) = false
    rw [htake]
    rfl

end ClaimClear

/-! ## FAULT_CLEAR and ALARM_ACK (R17, R169) -/

theorem ofCode_of_lt {n : Nat} (h : n < 15) : ∃ c, AlarmCond.ofCode n = some c ∧ c.code = n := by
  interval_cases n <;> exact ⟨_, rfl, rfl⟩

theorem ofCode_eq_none {n : Nat} (h : ¬n < 15) : AlarmCond.ofCode n = none :=
  List.getElem?_eq_none (by simpa [AlarmCond.all] using h)

theorem pending_settled {s : State} (hs : s.AlarmsSettled) (flags : BitVec 15) :
    ({ s with alarm := { s.alarm with pending := flags } } : State).AlarmsSettled := by
  intro hrun c
  cases c <;> exact hs hrun _

end Sys2Proof.Machine

namespace Sys2Proof

open Machine Host

/-- Settles O39: FAULT_CLEAR, the tests of CLAIM_CLEAR and what it clears, and ALARM_ACK. -/
theorem clearsAndAcknowledgements : Obligations.ClearsAndAcknowledgements := by
  unfold Obligations.ClearsAndAcknowledgements
  refine fun rq s hp hs => ⟨?_, fun station hmode hserves => ?_, fun condition hserves => ?_⟩
  · intro hserves w
    have hserved : serveFaultClear (requestOf rq 5 []) s.taken =
        (if s.mode = .run then w.report .linkFault false else w).done := by
      show (if w.inRun then w.report .linkFault false else w).done = _
      by_cases hmode : s.mode = .run
      · rw [if_pos hmode, if_pos (inRun_of_mode (s := w) hmode)]
      · rw [if_neg hmode, if_neg (mt (inRun_iff w).1 hmode)]
    have hpending : (if s.mode = .run then w.report .linkFault false else w).pending = s.pending := by
      split
      · exact (moves_report w .linkFault false).other.pending
      · rfl
    exact answered_settles hpending (exec_of_gate_open (g := fun _ => ⟨true, 0, true⟩) (f := serveFaultClear) rfl hserves rfl (Nat.zero_le _)
      (.inr rfl) hserved)
  · intro k refused
    have hrun := inRun_of_mode hmode
    have answers : ∀ {r : Served}, serveClaimClear (requestOf rq 6 [station]) s.taken = r →
        exec (.claimClear rq station) s = .next (s.finish (r.state.replied .exchange rq r.code r.data)) := fun hr =>
      exec_of_gate_open (g := fun _ => ⟨true, 1, false⟩) (f := serveClaimClear) rfl hserves rfl (by simp) (.inl hrun) hr
    have refuses : ∀ {code}, serveClaimClear (requestOf rq 6 [station]) s.taken = s.taken.refuse code → refused code :=
      fun {code} hr => taken_answered hs (answers (r := s.taken.refuse code) hr)
    refine ⟨fun hrange => refuses (serveClaimClear_of_range hrange), fun hlow hhigh hown => ?_,
      fun hlow hhigh hown hnone => ?_, fun p hlow hhigh hown hentry hheld => ?_⟩
    all_goals have tests := serveClaimClear_of_station (rq := rq) (s := s.taken) (station := station) (by omega)
    · exact refuses (tests.trans (if_pos hown))
    · refine refuses (tests.trans ((if_neg hown).trans (if_pos ?_)))
      show (s.peerClaimOf k).phase = .none
      cases hentry : s.peer? k with
      | none => unfold State.peerClaimOf; rw [hentry]; rfl
      | some p => rw [peerClaimOf_of_some hentry]; exact hnone p hentry
    have hstale : ((s.taken.peer? k).any (·.stale)) = p.stale := by
      rw [show s.taken.peer? k = some p from hentry]; rfl
    have hphase : (s.taken.peerClaimOf k).phase ≠ .none := by rwa [peerClaimOf_of_some (s := s.taken) hentry]
    rw [if_neg (show ¬station.toNat = s.taken.straps.number from hown),
      if_neg (show (s.taken.peerClaimOf station.toNat).phase ≠ .none from hphase),
      show (s.taken.peer? station.toNat).any (·.stale) = p.stale from hstale] at tests
    refine ⟨fun hfresh => refuses (tests.trans (if_pos (by simp [hfresh]))), fun hgone hspin => ?_⟩
    have hexec := answers (tests.trans (if_neg (by simp [hgone])))
    have hset := setPeerClaim_rest s.taken k .absent
    have hreply := (moves_answer (s.taken.setPeerClaim k .absent) .exchange (requestOf rq 0 []) .done []).other
    have hpending := hreply.pending.trans (hset.pending.trans (rfl : _ = s.pending))
    have hrest := finish_rest s ((s.taken.setPeerClaim k .absent).replied .exchange rq .done []) hpending
    have hpeers := (hrest.peers (by decide)).trans ((hreply.peers (by decide)).trans (hset.peers (by decide)))
    have hpeer : ∀ j, (s.finish ((s.taken.setPeerClaim k .absent).replied .exchange rq .done [])).peer? j =
        (s.claimSet k .absent).peer? j := fun j => congrArg (List.find? _) hpeers
    refine ⟨_, hexec, ?_, fun j hj => ?_, ?_, fun hothers hnone htake i => ?_, ?_⟩
    · refine (hpeer k).trans ?_
      rw [claimSet_peer?, if_pos rfl, hentry]
      rfl
    · refine (hpeer j).trans ?_
      rw [claimSet_peer?, if_neg hj]
    · exact (otherClaims_congr hpeers).trans (otherClaims_claimSet_none s k rfl)
    · refine (chan_congr ((hrest.pumps (by decide)).trans (hreply.pumps (by decide))) i).trans ?_
      refine (chan_of_cleared (s := s.taken) hrun hspin hentry hheld hothers hnone htake i).trans ?_
      rw [freed_eq]
      cases i <;> rfl
    · have hmoves := ((moves_link s s.link.popIntake (by simp)).other.trans
        (moves_setPeerClaim s.taken k .absent).other).trans hreply
      obtain ⟨hother, himages, houts⟩ := finish_changes s _ hmoves
      exact ⟨hother.mono (by decide), himages, houts⟩
  · have answers : ∀ {r : Served}, serveAlarmAck (requestOf rq 24 [condition]) s.taken = r →
        exec (.alarmAck rq condition) s = .next (s.finish (r.state.replied .exchange rq r.code r.data)) := fun hr =>
      exec_of_gate_open (g := fun _ => ⟨true, 1, true⟩) (f := serveAlarmAck) rfl hserves rfl (by simp) (.inr rfl) hr
    by_cases hconfig : s.mode = .config
    · rw [if_pos hconfig]
      exact taken_answered hs (answers (r := s.taken.done) (if_pos (by simp [State.inRun, State.taken, hconfig])))
    have hrun : s.inRun = true := by
      by_contra h
      exact hconfig (mode_config_of_not_inRun hp (by simpa using h))
    have tests : serveAlarmAck (requestOf rq 24 [condition]) s.taken =
        if condition.toNat = 255 then ({ s.taken with alarm := { s.alarm with pending := 0 } } : State).done
        else (AlarmCond.ofCode condition.toNat).elim (s.taken.refuse .range) fun c =>
          ({ s.taken with alarm := { s.alarm with pending := setFlag s.alarm.pending c false } } : State).done := by
      unfold serveAlarmAck
      rw [if_neg (by simp [State.inRun, State.taken] at hrun ⊢; exact hrun)]
      refine ite_congr rfl (fun _ => rfl) fun _ => ?_
      show (match AlarmCond.ofCode condition.toNat with
        | none => _
        | some c => _) = _
      cases AlarmCond.ofCode condition.toNat <;> rfl
    rw [if_neg hconfig]
    by_cases hall : condition.toNat = 255
    · rw [if_pos hall]
      exact answered_leaves (w := { s.taken with alarm := { s.alarm with pending := 0 } }) rfl
        (pending_settled (taken_settled hs) 0)
        (answers (r := ({ s.taken with alarm := { s.alarm with pending := 0 } } : State).done) (tests.trans (if_pos hall)))
    rw [if_neg hall] at tests ⊢
    by_cases hcode : condition.toNat < 15
    · rw [if_pos hcode]
      obtain ⟨c, hc, hcond⟩ := ofCode_of_lt hcode
      rw [hc] at tests
      rw [← hcond]
      exact answered_leaves (w := { s.taken with alarm := { s.alarm with pending := setFlag s.alarm.pending c false } })
        rfl (pending_settled (taken_settled hs) _)
        (answers (r := ({ s.taken with
          alarm := { s.alarm with pending := setFlag s.alarm.pending c false } } : State).done) tests)
    · rw [if_neg hcode]
      rw [ofCode_eq_none hcode] at tests
      exact taken_answered hs (answers (r := s.taken.refuse .range) tests)

end Sys2Proof

/-! A CLAIM heard (O23): the pumps held and resumed, and the own claim withdrawn, settled anew, in conflict or taken. -/

namespace Sys2Proof.Machine

open Host

/-! ## HEAD frames and the link unit's room -/

theorem headCall_link (s : State) : s.headCall.link = s.link ∨ ∃ f, s.headCall.link = s.link.handOver s.linkEnv .rig f := by
  unfold State.headCall
  split
  · split
    · exact .inl rfl
    · exact .inr ⟨_, rfl⟩
  · exact .inl rfl

theorem reevalPermit_link (s : State) :
    s.reevalPermit.link = s.link ∨ ∃ f, s.reevalPermit.link = s.link.handOver s.linkEnv .rig f := by
  unfold State.reevalPermit
  split
  · exact .inl rfl
  · exact headCall_link { s with spin := { s.spin with permit := s.permitNow } }

theorem carriesOn_reevalPermit (s : State) : s.link.CarriesOn s.reevalPermit.link := by
  obtain h | ⟨f, h⟩ := reevalPermit_link s <;> rw [h]
  · exact .refl _
  · exact carriesOn_handOver _ _ _ _

theorem slack_reevalPermit {s : State} {n : Nat} (h : s.link.Slack (n + 1)) : s.reevalPermit.link.Slack n := by
  obtain hl | ⟨f, hl⟩ := reevalPermit_link s <;> rw [hl]
  · exact h.mono (Nat.le_succ n)
  · exact slack_handOver h _ _

theorem reevalPermit_listenOnly (s : State) : s.reevalPermit.link.listenOnly = s.link.listenOnly := by
  obtain h | ⟨f, h⟩ := reevalPermit_link s <;> rw [h]
  exact handOver_listenOnly _ _ _ _

/-! ## The claim view of a station that knows the peer -/

theorem otherClaims_mapPeer (s : State) (k : Nat) {f : PeerEntry → PeerEntry} (hstation : ∀ p, (f p).station = p.station)
    (hclaim : ∀ p, (f p).claim = p.claim) (hstale : ∀ p, (f p).stale = p.stale) :
    (s.mapPeer k f).otherClaims = s.otherClaims := by
  have hs : ∀ p : PeerEntry, (if p.station = k then f p else p).station = p.station := fun p => by
    split
    · exact hstation p
    · rfl
  have hc : ∀ p : PeerEntry, (if p.station = k then f p else p).claim = p.claim := fun p => by
    split
    · exact hclaim p
    · rfl
  have ht : ∀ p : PeerEntry, (if p.station = k then f p else p).stale = p.stale := fun p => by
    split
    · exact hstale p
    · rfl
  simp only [State.otherClaims, State.mapPeer, List.filter_map, List.map_map, Function.comp_def, hs, hc, ht]

theorem heardFrom_otherClaims (s : State) (f : RxFrame) : (s.heardFrom f).otherClaims = s.otherClaims :=
  otherClaims_mapPeer s.heardEnd f.source (fun _ => rfl) (fun _ => rfl) fun _ => rfl

theorem heardFrom_viewHolds (s : State) (f : RxFrame) : (s.heardFrom f).viewHolds = s.viewHolds := by
  rw [Bool.eq_iff_iff, viewHolds_iff, viewHolds_iff, heardFrom_otherClaims]
  rfl

theorem leavesOther_heardFrom (s : State) (f : RxFrame) : LeavesOther [.link, .peers] s (s.heardFrom f) :=
  ((leavesOther_link s _).trans (moves_mapPeer s.heardEnd f.source _).other).mono (by decide)

section Known

variable {s : State} {k : Nat} {p : PeerEntry} {c : Claim}

/-- A claim in view is another station's, or that of the known entry. -/
theorem otherClaims_known (hk : s.Knows k p) {v : ViewClaim} (hv : v ∈ s.otherClaims) :
    v.station ≠ k ∨ (v.phase = p.claim.phase ∧ p.claim.phase ≠ .none) := by
  obtain ⟨q, hq, hphase, rfl⟩ := mem_otherClaims.1 hv
  by_cases hstation : q.station = k
  · obtain rfl := hk.2 q hq hstation
    exact .inr ⟨rfl, hphase⟩
  · exact .inl hstation

theorem known_in_view (hk : s.Knows k p) (hphase : p.claim.phase ≠ .none) :
    ⟨p.station, p.claim.kind, p.claim.phase, p.stale⟩ ∈ s.otherClaims :=
  mem_otherClaims.2 ⟨p, mem_of_peer? hk.1, hphase, rfl⟩

theorem viewHolds_known (hk : s.Knows k p) :
    s.viewHolds = true ↔
      s.ret.claim.phase ≠ .none ∨ (∃ v ∈ s.otherClaims, v.station ≠ k) ∨ p.claim.phase ≠ .none := by
  rw [viewHolds_iff]
  refine or_congr Iff.rfl ⟨?_, ?_⟩
  · rintro ⟨v, hv⟩
    exact (otherClaims_known hk hv).imp (fun h => ⟨v, hv, h⟩) (·.2)
  · rintro (⟨v, hv, -⟩ | h)
    · exact ⟨v, hv⟩
    · exact ⟨_, known_in_view hk h⟩

theorem inConflict_known (hk : s.Knows k p) :
    s.inConflict = true ↔ s.ret.claim.phase = .active ∧
      ((∃ v ∈ s.otherClaims, v.station ≠ k ∧ v.phase = .active) ∨ p.claim.phase = .active) := by
  rw [inConflict_iff]
  refine and_congr Iff.rfl ⟨?_, ?_⟩
  · rintro ⟨v, hv, hactive⟩
    exact (otherClaims_known hk hv).imp (fun h => ⟨v, hv, h, hactive⟩) fun h => h.1.symm.trans hactive
  · rintro (⟨v, hv, -, hactive⟩ | h)
    · exact ⟨v, hv, hactive⟩
    · exact ⟨_, known_in_view hk (by rw [h]; decide), h⟩

theorem inConflict_claimSet (hknown : s.peer? k = some p) :
    (s.claimSet k c).inConflict = true ↔ s.ret.claim.phase = .active ∧
      ((∃ v ∈ s.otherClaims, v.station ≠ k ∧ v.phase = .active) ∨ c.phase = .active) := by
  rw [inConflict_iff]
  refine and_congr Iff.rfl ⟨?_, ?_⟩
  · rintro ⟨v, hv, hactive⟩
    obtain ⟨hv, hk⟩ | ⟨-, q, -, -, rfl⟩ := mem_otherClaims_claimSet.1 hv
    · exact .inl ⟨v, hv, hk, hactive⟩
    · exact .inr hactive
  · rintro (⟨v, hv, hk, hactive⟩ | h)
    · exact ⟨v, mem_otherClaims_claimSet.2 (.inl ⟨hv, hk⟩), hactive⟩
    · exact ⟨_, mem_otherClaims_claimSet.2
        (.inr ⟨by rw [h]; decide, p, mem_of_peer? hknown, station_of_peer? hknown, rfl⟩), h⟩

/-- A claim of a fresh peer that leaves the conflict as it was leaves every alarm condition. -/
theorem claimSet_settled (hs : s.AlarmsSettled) (hfresh : ∀ q ∈ s.peers, q.station = k → q.stale = false)
    (hconflict : (s.claimSet k c).inConflict = s.inConflict) : (s.claimSet k c).AlarmsSettled := by
  refine settled_of_peers hs hconflict ?_ (any_map_congr fun q _ => ?_)
  · rw [claimView_any_stale, claimView_any_stale, otherClaims_any, otherClaims_any]
    refine any_map_congr fun q hq => ?_
    by_cases hk : q.station = k
    · simp [hk, hfresh q hq hk]
    · simp [hk]
  · split <;> rfl

end Known

/-! ## The own claim against one heard (R35, R36) -/

theorem examineClaim_of_none {s : State} (h : s.ret.claim.phase = .none) (k : Nat) (ph : ClaimPhase) :
    s.examineClaim k ph = s := by
  unfold State.examineClaim; rw [h]

theorem examineClaim_of_active {s : State} (h : s.ret.claim.phase = .active) (k : Nat) (ph : ClaimPhase) :
    s.examineClaim k ph = s.conflictCheck := by
  unfold State.examineClaim; rw [h]

theorem examineClaim_of_pending {s : State} (h : s.ret.claim.phase = .pending) (hl : s.link.listenOnly = false) (k : Nat)
    (ph : ClaimPhase) :
    s.examineClaim k ph = if ph = .active ∨ k < s.straps.number then s.withdrawClaim else s.startSettle := by
  unfold State.examineClaim; rw [h]; exact if_neg (by simp [hl])

theorem conflictCheck_of_calm {s : State} (h : s.inConflict = false) : s.conflictCheck = s := by
  unfold State.conflictCheck; exact if_neg (by simp [h])

/-- A claim that moves while the view goes on holding one is announced, and that is all (R33). -/
theorem moveClaim_of_held {s : State} {ph : ClaimPhase} (hspin : s.spin.state ≠ .running) (hwas : s.viewHolds = true)
    (hheld : ({ s with ret := { s.ret with claim := ⟨.connection, ph⟩ } } : State).viewHolds = true) :
    s.moveClaim ph = ({ s with ret := { s.ret with claim := ⟨.connection, ph⟩ } } : State).announceClaim := by
  have howner := spinOwnerCheck_of_idle
    (s := ({ s with ret := { s.ret with claim := ⟨.connection, ph⟩ } } : State).announceClaim) hspin
  unfold State.moveClaim
  rw [howner, hwas]
  exact viewChanged_same hheld

/-- The sequencer's state moved from one to another, and left where it is any other. -/
theorem seqState_ite (s : State) (a b : SeqState) :
    (if s.seq.state = a then { s with seq := { s.seq with state := b } } else s) =
      { s with seq := { s.seq with state := if s.seq.state = a then b else s.seq.state } } := by
  by_cases h : s.seq.state = a
  · rw [if_pos h, if_pos h]
  · rw [if_neg h, if_neg h]

/-- The own claim withdrawn against another that stays in view (R35). -/
theorem withdrawClaim_of_held {s : State} (hspin : s.spin.state ≠ .running) (hwas : s.viewHolds = true)
    (hothers : ∃ v, v ∈ s.otherClaims) :
    s.withdrawClaim = ({ s with
      ret := { s.ret with claim := ⟨.connection, .none⟩ }
      claims := { s.claims with settle := none }
      seq := { s.seq with state := if s.seq.state = .claiming then .waitClaim else s.seq.state } } : State).announceClaim := by
  have hmove := moveClaim_of_held (s := { s with claims := { s.claims with settle := none } }) (ph := .none) hspin hwas
    ((viewHolds_iff _).2 (.inr hothers))
  unfold State.withdrawClaim
  dsimp only
  rw [hmove]
  exact seqState_ite _ .claiming .waitClaim

/-- The claim taken into an empty view (R32, R57): announced, settling, and the pumps HELD. -/
theorem takeTest_of_may {s : State} (hmay : s.mayTake = true) (hspin : s.spin.state ≠ .running) :
    s.takeTest =
      let t := ((({ s with ret := { s.ret with claim := ⟨.connection, .pending⟩ } } : State).announceClaim).viewChanged
        false).startSettle
      { t with seq := { t.seq with state := if t.seq.state = .waitClaim then .claiming else t.seq.state } } := by
  have hempty : s.viewHolds = false := by
    simp only [State.mayTake, Bool.and_eq_true, Bool.not_eq_true'] at hmay
    exact hmay.1.1.1.2
  have howner := spinOwnerCheck_of_idle
    (s := ({ s with ret := { s.ret with claim := ⟨.connection, .pending⟩ } } : State).announceClaim) hspin
  have hmove : s.moveClaim .pending =
      (({ s with ret := { s.ret with claim := ⟨.connection, .pending⟩ } } : State).announceClaim).viewChanged false := by
    unfold State.moveClaim
    rw [howner, hempty]
  unfold State.takeTest
  rw [if_pos hmay, hmove]
  exact seqState_ite _ .waitClaim .claiming

/-! ## Claim conflict (R36, R119) -/

/-- Entry to HOLD or FAULT keeps the op queue and the claim, with the motion outputs and the timer off (R119). -/
theorem seqStop_seq (s : State) (st : SeqState) :
    (s.seqStop st).seq.state = st ∧ (s.seqStop st).seq.timer = none ∧ (s.seqStop st).seq.index = false ∧
      (s.seqStop st).seq.present = false ∧ (s.seqStop st).seq.store = false ∧ (s.seqStop st).seq.retract = false ∧
      (s.seqStop st).seq.queue = s.seq.queue :=
  ⟨rfl, rfl, rfl, rfl, rfl, rfl, rfl⟩

theorem seqStop_claim (s : State) (st : SeqState) : (s.seqStop st).ret.claim = s.ret.claim := by
  unfold State.seqStop
  dsimp only
  split <;> rfl

theorem conflictCheck_of_conflict {s : State} (hrun : s.inRun = true) (h : s.inConflict = true) :
    s.conflictCheck = if s.seq.state = .hold .claimConflict then s else s.seqHold .claimConflict := by
  unfold State.conflictCheck
  by_cases hst : s.seq.state = .hold .claimConflict
  · rw [if_pos hst, if_neg (by simp [hst])]
  · rw [if_neg hst, if_pos (by simp [hrun, h, hst])]

theorem inConflict_congr {s t : State} (hclaim : t.ret.claim = s.ret.claim) (hpeers : t.peers = s.peers) :
    t.inConflict = s.inConflict := by
  unfold State.inConflict State.claimActive
  rw [hclaim, otherClaims_congr hpeers]

/-- `t` is `w` but for the peer table where it is `m` whole and `m` is `w` but for the peer table. -/
theorem Leaves.of_peers {s w m t : State} (h : Leaves [] s m t) (hm : LeavesOther [.peers] w m) : Leaves [.peers] s w t :=
  ⟨(hm.trans h.other).mono (by decide), h.images, h.outs⟩

end Sys2Proof.Machine

namespace Sys2Proof.Machine

open Host

/-! ## The station once a CLAIM has been handed on -/

section ClaimHeard

variable {s : State} {bytes : List Byte} {f : RxFrame} {c : Claim} {p : PeerEntry}

theorem handOn_claim (hbody : f.body = .claim c) (s : State) : s.handOn f = s.setPeerClaim f.source c := by
  unfold State.handOn; rw [hbody]

/-- The station with the entry refreshed and its claim replaced, before the blocks are told. -/
def State.claimHeard (s : State) (f : RxFrame) (c : Claim) : State := (s.heardFrom f).claimSet f.source c

theorem leavesOther_claimHeard (s : State) (f : RxFrame) (c : Claim) :
    LeavesOther [.link, .peers] s (s.claimHeard f c) :=
  ((leavesOther_heardFrom s f).trans (moves_mapPeer (s.heardFrom f) f.source _).other).mono (by decide)

theorem claimHeard_peer? (s : State) (f : RxFrame) (c : Claim) (j : Nat) :
    (s.claimHeard f c).peer? j =
      if j = f.source then (s.peer? j).map fun p => { p.refresh f.seq (3 * s.statusPeriod) with claim := c }
      else s.peer? j := by
  refine (claimSet_peer? (s.heardFrom f) f.source c j).trans ?_
  rw [heardFrom_peer?, heardFrom_peer?]
  by_cases h : j = f.source
  · rw [if_pos h, if_pos rfl, if_pos h, Option.map_map, h]; rfl
  · rw [if_neg h, if_neg h, if_neg h]

theorem heardFrom_known (hk : s.Knows f.source p) :
    (s.heardFrom f).Knows f.source (p.refresh f.seq (3 * s.statusPeriod)) := by
  refine ⟨by rw [heardFrom_peer?, if_pos rfl, hk.1]; rfl, fun q hq hstation => ?_⟩
  obtain ⟨r, hr, rfl⟩ := List.mem_map.1 hq
  by_cases hsource : r.station = f.source
  · rw [if_pos hsource, hk.2 r hr hsource]
  · rw [if_neg hsource] at hstation
    exact absurd hstation hsource

theorem claimHeard_viewHolds (hp : s.peer? f.source = some p) :
    (s.claimHeard f c).viewHolds = true ↔
      s.ret.claim.phase ≠ .none ∨ (∃ v ∈ s.otherClaims, v.station ≠ f.source) ∨ c.phase ≠ .none := by
  refine viewHolds_claimSet.trans ?_
  rw [heardFrom_otherClaims, heardFrom_peer?, if_pos rfl, hp]
  simp [State.heardFrom, State.heardEnd, State.mapPeer]

theorem claimHeard_others (hp : s.peer? f.source = some p) (hnew : c.phase ≠ .none) :
    ∃ v, v ∈ (s.claimHeard f c).otherClaims := by
  have hentry : (s.claimHeard f c).peer? f.source = some { p.refresh f.seq (3 * s.statusPeriod) with claim := c } := by
    rw [claimHeard_peer?, if_pos rfl, hp]; rfl
  exact ⟨_, mem_otherClaims.2 ⟨_, mem_of_peer? hentry, hnew, rfl⟩⟩

theorem claimHeard_inConflict (hp : s.peer? f.source = some p) :
    (s.claimHeard f c).inConflict = true ↔ s.ret.claim.phase = .active ∧
      ((∃ v ∈ s.otherClaims, v.station ≠ f.source ∧ v.phase = .active) ∨ c.phase = .active) := by
  refine (inConflict_claimSet (p := p.refresh f.seq (3 * s.statusPeriod))
    (by rw [heardFrom_peer?, if_pos rfl, hp]; rfl)).trans ?_
  rw [heardFrom_otherClaims]
  rfl

/-- The blocks' part in what a CLAIM of a fresh peer does. -/
theorem exec_claimHeard (h : s.Hears bytes f) (hbody : f.body = .claim c) (hp : s.peer? f.source = some p)
    (hfresh : p.stale = false) {w : State} (hw : (s.heardFrom f).setPeerClaim f.source c = w) :
    exec (.frameReceived bytes) s = .next (s.finish w) := by
  rw [exec_frameReceived h hp hfresh, handOn_claim hbody, hw]

theorem claimOf_heardFrom (hp : s.peer? f.source = some p) : (s.heardFrom f).peerClaimOf f.source = p.claim := by
  refine peerClaimOf_of_some (p := p.refresh f.seq (3 * s.statusPeriod)) ?_
  rw [heardFrom_peer?, if_pos rfl, hp]
  rfl

/-- A station in conflict is in HOLD with CLAIM_CONFLICT, by this CLAIM or by an earlier one (R36). -/
theorem conflictCheck_holds {s : State} (hrun : s.inRun = true) (h : s.inConflict = true) :
    s.conflictCheck.seq.state = .hold .claimConflict ∧ s.conflictCheck.ret.claim = s.ret.claim ∧
      (s.seq.state ≠ .hold .claimConflict → s.conflictCheck.seq.timer = none ∧ s.conflictCheck.seq.index = false ∧
        s.conflictCheck.seq.present = false ∧ s.conflictCheck.seq.store = false ∧ s.conflictCheck.seq.retract = false ∧
        s.conflictCheck.seq.queue = s.seq.queue) := by
  rw [conflictCheck_of_conflict hrun h]
  by_cases hst : s.seq.state = .hold .claimConflict
  · rw [if_pos hst]
    exact ⟨hst, rfl, fun hne => absurd hst hne⟩
  · rw [if_neg hst]
    exact ⟨rfl, seqStop_claim s _, fun _ => ⟨rfl, rfl, rfl, rfl, rfl, rfl⟩⟩

theorem mayTake_iff (s : State) :
    s.mayTake = true ↔ s.claims.takeRequest = true ∧ s.ret.claim.phase = .none ∧ s.viewHolds = false ∧
      s.claims.listen = none ∧ s.inRun = true ∧ s.link.listenOnly = false := by
  simp [State.mayTake, and_assoc]

/-- A claim taken into an empty view, part by part (R32, R33, R57): `x` is the station with it announced. -/
theorem takeTest_holds {u : State} (hmay : u.mayTake = true) (hspin : u.spin.state ≠ .running) :
    let x := ({ u with ret := { u.ret with claim := ⟨.connection, .pending⟩ } } : State).announceClaim
    LeavesOther [.pumps, .spin, .depth, .link, .claims, .seq] x u.takeTest ∧
      (∀ i, u.takeTest.chan i = (u.chan i).claimed) ∧ u.takeTest.spin = { u.spin with permit := false } ∧
      u.takeTest.claims = { u.claims with settle := some (2 * u.cfg Item.statusPeriod 0) } ∧
      u.takeTest.seq = { u.seq with state := if u.seq.state = .waitClaim then .claiming else u.seq.state } ∧
      x.link.CarriesOn u.takeTest.link := by
  intro x
  obtain ⟨-, -, -, -, hrun, -⟩ := (mayTake_iff u).1 hmay
  have hheld : x.viewHolds = true := (viewHolds_iff x).2 (.inl (fun h => nomatch h))
  have hview : State.viewChanged false x = x.pumpsClaimed.reevalPermit := viewChanged_claimed (s := x) hrun hheld
  have htake := takeTest_of_may hmay hspin
  rw [show ({ u with ret := { u.ret with claim := ⟨.connection, .pending⟩ } } : State).announceClaim = x from rfl,
    hview] at htake
  have hmoves : LeavesOther [.pumps, .spin, .depth, .link] x x.pumpsClaimed.reevalPermit :=
    ((moves_mapPumps x fun _ c => c.claimed).other.trans (moves_reevalPermit _).other).mono (by decide)
  rw [htake]
  refine ⟨?_, fun i => ?_, ?_, ?_, ?_, ?_⟩
  · exact ((hmoves.trans (moves_startSettle _).other).trans (moves_seq _ _).other).mono (by decide)
  · exact chan_claimed x i
  · refine (reevalPermit_spin x.pumpsClaimed).trans ?_
    rw [permitNow_of_idle (s := x.pumpsClaimed) hrun hspin, show x.pumpsClaimed.viewHolds = true from hheld]
    rw [Bool.not_true, Bool.and_false]
    rfl
  · show ({ x.pumpsClaimed.reevalPermit.claims with
      settle := some (2 * itemGet x.pumpsClaimed.reevalPermit.ret.items Item.statusPeriod 0) } : ClaimUnit) = _
    rw [hmoves.claims (by decide), hmoves.ret (by decide)]
    rfl
  · show ({ x.pumpsClaimed.reevalPermit.seq with
      state := if x.pumpsClaimed.reevalPermit.seq.state = .waitClaim then .claiming
        else x.pumpsClaimed.reevalPermit.seq.state } : Sequencer) = _
    rw [hmoves.seq (by decide)]
    rfl
  · exact carriesOn_reevalPermit x.pumpsClaimed

/-! ### Each case of the own claim and the phase heard -/

variable (hrun : s.inRun = true) (hspin : s.spin.state ≠ .running) (hk : s.Knows f.source p)

include hrun hspin hk

theorem claimHeard_of_same (hphase : c.phase = p.claim.phase) :
    (s.heardFrom f).setPeerClaim f.source c = s.claimHeard f c := by
  refine setPeerClaim_of_same (s := s.heardFrom f) hrun hspin (heardFrom_known hk).1 hphase ?_
  rw [heardFrom_viewHolds, Bool.eq_iff_iff, viewHolds_known hk, ← hphase]
  exact claimHeard_viewHolds hk.1

/-- A new phase while the view goes on holding a claim. -/
theorem claimHeard_of_held (hnew : c.phase ≠ .none) (hchange : c.phase ≠ p.claim.phase) (hwas : s.viewHolds = true) :
    (s.heardFrom f).setPeerClaim f.source c = (s.claimHeard f c).examineClaim f.source c.phase := by
  rw [setPeerClaim_of_new (s := s.heardFrom f) hrun hspin hnew (by rwa [claimOf_heardFrom hk.1]), heardFrom_viewHolds, hwas]
  exact congrArg (fun t : State => t.examineClaim f.source c.phase)
    (viewChanged_same ((claimHeard_viewHolds hk.1).2 (.inr (.inr hnew))))

/-- A claim gone while the view goes on holding another. -/
theorem claimHeard_of_gone (hgone : c.phase = .none) (hchange : c.phase ≠ p.claim.phase)
    (hheld : s.ret.claim.phase ≠ .none ∨ ∃ v ∈ s.otherClaims, v.station ≠ f.source) :
    (s.heardFrom f).setPeerClaim f.source c = s.claimHeard f c := by
  have hwas : s.viewHolds = true := (viewHolds_known hk).2 (.imp_right .inl hheld)
  have hstill : (s.claimHeard f c).viewHolds = true := (claimHeard_viewHolds hk.1).2 (.imp_right .inl hheld)
  rw [setPeerClaim_of_gone (s := s.heardFrom f) hrun hspin hgone
    (by rw [claimOf_heardFrom hk.1]; exact fun h => hchange (hgone.trans h.symm)), heardFrom_viewHolds, hwas,
    viewChanged_same (s := (s.heardFrom f).claimSet f.source c) hstill]
  exact takeTest_of_not (s := s.claimHeard f c) (by simp [State.mayTake, hstill])

/-- The last claim gone: the HELD pumps resume, and the test of the own claim is made. -/
theorem claimHeard_of_empty (hgone : c.phase = .none) (hchange : c.phase ≠ p.claim.phase)
    (hown : s.ret.claim.phase = .none) (hothers : ¬∃ v ∈ s.otherClaims, v.station ≠ f.source) :
    (s.claimHeard f c).viewHolds = false ∧
      (s.heardFrom f).setPeerClaim f.source c = (s.claimHeard f c).pumpsFreed.reevalPermit.takeTest := by
  have hheld : p.claim.phase ≠ .none := fun h => hchange (hgone.trans h.symm)
  have hwas : s.viewHolds = true := (viewHolds_known hk).2 (.inr (.inr hheld))
  have hempty : (s.claimHeard f c).viewHolds = false := by
    rw [← Bool.not_eq_true, claimHeard_viewHolds hk.1]
    rintro (h | h | h)
    · exact h hown
    · exact hothers h
    · exact h hgone
  refine ⟨hempty, ?_⟩
  rw [setPeerClaim_of_gone (s := s.heardFrom f) hrun hspin hgone (by rwa [claimOf_heardFrom hk.1]), heardFrom_viewHolds,
    hwas]
  exact congrArg State.takeTest (viewChanged_freed (s := s.claimHeard f c) hrun hempty)

omit hrun hspin hk in
theorem claims_settled (hs : s.AlarmsSettled) (v : ClaimUnit) : ({ s with claims := v } : State).AlarmsSettled := by
  intro hrun c
  cases c <;> exact hs hrun _

omit hrun hspin in
theorem claimHeard_settled (hs : s.AlarmsSettled) (hfresh : p.stale = false)
    (hconflict : (s.claimHeard f c).inConflict = s.inConflict) : (s.claimHeard f c).AlarmsSettled := by
  have hend : s.heardEnd.AlarmsSettled := settled_of_link (leavesOther_link s _) rfl hs
  have hheard : (s.heardFrom f).AlarmsSettled := mapPeer_settled hend fun _ _ _ => ⟨rfl, rfl, rfl⟩
  refine claimSet_settled hheard (fun q hq hstation => ?_) (hconflict.trans ?_)
  · rw [(heardFrom_known hk).2 q hq hstation]
    exact hfresh
  · refine (congrArg (s.claimActive && ·) ?_).symm
    exact congrArg (List.any · _) (heardFrom_otherClaims s f)

end ClaimHeard

end Sys2Proof.Machine

namespace Sys2Proof

open Machine Host

/-- Settles O23: a claim heard into an empty view, then each phase heard against each own one. -/
theorem claimHeardHoldsThePumps : Obligations.ClaimHeardHoldsThePumps := by
  unfold Obligations.ClaimHeardHoldsThePumps
  refine ⟨fun bytes f c p s hmode hears hbody hp hfresh hempty hspin hnew => ?_, ?_⟩
  · have hrun := inRun_of_mode hmode
    obtain ⟨hown, hnone⟩ := (viewHolds_eq_false s).1 hempty
    have hheld : (s.claimHeard f c).viewHolds = true := (claimHeard_viewHolds hp).2 (.inr (.inr hnew))
    have hwas : p.claim.phase = .none := by
      by_contra h
      exact hnone _ (mem_otherClaims.2 ⟨p, mem_of_peer? hp, h, rfl⟩)
    have hw : (s.heardFrom f).setPeerClaim f.source c = (s.claimHeard f c).pumpsClaimed.reevalPermit := by
      rw [setPeerClaim_of_new (s := s.heardFrom f) hrun hspin hnew (by rwa [claimOf_heardFrom hp, hwas]),
        heardFrom_viewHolds, hempty, show (s.heardFrom f).claimSet f.source c = s.claimHeard f c from rfl,
        viewChanged_claimed (s := s.claimHeard f c) hrun hheld]
      refine examineClaim_of_none ?_ _ _
      rw [(moves_reevalPermit _).other.ret (by decide)]
      exact hown
    have hexec := exec_claimHeard hears hbody hp hfresh hw
    have hclaimed := leavesOther_claimHeard s f c
    have hmoves := ((moves_mapPumps (s.claimHeard f c) fun _ c => c.claimed).other.trans
      (moves_reevalPermit (s.claimHeard f c).pumpsClaimed).other)
    have hall := hclaimed.trans hmoves
    have hrest := finish_rest s (s.claimHeard f c).pumpsClaimed.reevalPermit hall.pending
    have htold := hmoves.trans hrest
    refine ⟨_, hexec, fun i => ?_, ?_, ?_, ?_, ?_, ?_, ?_⟩
    · refine (chan_congr (hrest.pumps (by decide)) i).trans ((chan_claimed (s.claimHeard f c) i).trans ?_)
      exact claimed_eq _
    · rw [hrest.spin (by decide), reevalPermit_spin]
      have hpermit := permitNow_of_idle (s := (s.claimHeard f c).pumpsClaimed) hrun hspin
      rw [hpermit, show (s.claimHeard f c).pumpsClaimed.viewHolds = true from hheld]
      simp [State.pumpsClaimed, State.mapPumps, State.claimHeard, State.claimSet, State.heardFrom, State.heardEnd,
        State.mapPeer]
    · rw [show (s.finish _).peer? f.source = (s.claimHeard f c).peer? f.source from
        congrArg (List.find? _) (htold.peers (by decide)), claimHeard_peer?, if_pos rfl, hp]
      rfl
    · rw [viewHolds_congr (s := s.claimHeard f c) (congrArg _ (htold.ret (by decide))) (htold.peers (by decide))
        htold.straps]
      exact hheld
    · exact (htold.ret (by decide)).trans (hclaimed.ret (by decide))
    · exact (htold.claims (by decide)).trans (hclaimed.claims (by decide))
    · obtain ⟨hother, himages, houts⟩ := finish_changes s _ hall
      exact ⟨hother.mono (by decide), himages, houts⟩
  · intro bytes f c p s hmode hs hears hbody hk hfresh hspin own others period w waits takes held resumed
    have hrun := inRun_of_mode hmode
    have hexec := fun {w' : State} (hw : (s.heardFrom f).setPeerClaim f.source c = w') =>
      exec_claimHeard hears hbody hk.1 hfresh hw
    have hset := setPeerClaim_rest (s.heardFrom f) f.source c
    have hall := (leavesOther_claimHeard s f c).trans hset
    have hrest := finish_rest s ((s.heardFrom f).setPeerClaim f.source c) hall.pending
    have hpeers := (hrest.peers (by decide)).trans (hset.peers (by decide))
    have hpeer : ∀ j, (s.finish ((s.heardFrom f).setPeerClaim f.source c)).peer? j = (s.claimHeard f c).peer? j :=
      fun j => congrArg (List.find? _) hpeers
    have hany : others false ↔ ∃ v ∈ s.otherClaims, v.station ≠ f.source := by
      constructor
      · rintro ⟨q, hq, hstation, hphase⟩
        refine ⟨_, mem_otherClaims.2 ⟨q, hq, ?_, rfl⟩, hstation⟩
        rintro hnone
        simp [hnone] at hphase
      · rintro ⟨v, hv, hstation⟩
        obtain ⟨q, hq, hphase, rfl⟩ := mem_otherClaims.1 hv
        refine ⟨q, hq, hstation, ?_⟩
        cases hcase : q.claim.phase <;> simp_all
    have hactive : others true ↔ ∃ v ∈ s.otherClaims, v.station ≠ f.source ∧ v.phase = .active := by
      constructor
      · rintro ⟨q, hq, hstation, hphase | hphase⟩
        · exact ⟨_, mem_otherClaims.2 ⟨q, hq, by rw [hphase]; decide, rfl⟩, hstation, hphase⟩
        · exact absurd hphase.1 (by decide)
      · rintro ⟨v, hv, hstation, hphase⟩
        obtain ⟨q, hq, -, rfl⟩ := mem_otherClaims.1 hv
        exact ⟨q, hq, hstation, .inl hphase⟩
    have hcalm : ¬others true → c.phase ≠ .active → (s.claimHeard f c).inConflict = false := fun ho hc => by
      rw [← Bool.not_eq_true, claimHeard_inConflict hk.1]
      exact fun h => h.2.elim (fun k => ho (hactive.2 k)) hc
    have hchanges : ∀ {w' : State} {parts}, LeavesOther parts (s.claimHeard f c) w' →
        ChangesOnly (.alarm :: .link :: [.link, .peers] ++ parts) s (s.finish w') := fun h =>
      finish_changes s _ ((leavesOther_claimHeard s f c).trans h)
    have hquiet : ∀ {w' : State}, w' = s.claimHeard f c → ¬others true → c.phase ≠ .active →
        (s.finish w').alarm.isActive .claimConflict = false := by
      rintro _ rfl ho hc
      exact (finish_isActive s (w := s.claimHeard f c) hrun (by decide)).trans (hcalm ho hc)
    refine ⟨_, hexec rfl, ?_, fun j hj => ?_, fun hsame => ?_, fun hchange hnew => ⟨fun hown hlisten => ⟨fun hlower => ?_,
      fun hpending hlower => ?_⟩, fun hown hc => ?_, fun hown hc ho => ?_⟩, fun hchange hgone => ⟨fun hheld => ?_,
      fun hown ho hnot => ?_, fun hown ho htakes => ?_⟩⟩
    · rw [hpeer, claimHeard_peer?, if_pos rfl, hk.1]
      rfl
    · rw [hpeer, claimHeard_peer?, if_neg hj]
    · rw [claimHeard_of_same hrun hspin hk hsame]
      have hsettled := claimHeard_settled (c := c) hk hs hfresh (by
        rw [Bool.eq_iff_iff, claimHeard_inConflict hk.1, inConflict_known hk, hsame])
      exact (finish_leaves s _ (leavesOther_claimHeard s f c).pending hsettled).of_peers
        (moves_peers s.heardEnd (s.claimHeard f c).peers).other
    · have hheld : s.viewHolds = true := (viewHolds_iff s).2 (.inl (by rw [show s.ret.claim.phase = .pending from hown]; decide))
      have hwithdrawn := (claimHeard_of_held hrun hspin hk hnew hchange hheld).trans
        ((examineClaim_of_pending (s := s.claimHeard f c) hown hlisten _ _).trans ((if_pos hlower).trans
          (withdrawClaim_of_held (s := s.claimHeard f c) hspin
            ((claimHeard_viewHolds hk.1).2 (.inr (.inr hnew))) (claimHeard_others hk.1 hnew))))
      rw [hpeers, hwithdrawn]
      exact finish_settles s _ (hwithdrawn ▸ hall.pending)
    · have hheld : s.viewHolds = true := (viewHolds_iff s).2 (.inl (by rw [show s.ret.claim.phase = .pending from hown]; decide))
      have hanew := (claimHeard_of_held hrun hspin hk hnew hchange hheld).trans
        ((examineClaim_of_pending (s := s.claimHeard f c) hown hlisten _ _).trans (if_neg (by
          rw [hpending]
          exact not_or_intro (by decide) hlower.not_gt)))
      rw [hanew]
      have hsettled := claimHeard_settled (c := c) hk hs hfresh (by
        rw [Bool.eq_iff_iff, claimHeard_inConflict hk.1, inConflict_known hk, show s.ret.claim.phase = .pending from hown]
        simp)
      have hleaves := finish_leaves s (s.claimHeard f c).startSettle (leavesOther_claimHeard s f c).pending
        (claims_settled hsettled _)
      exact hleaves.of_peers (moves_peers { s.heardEnd with claims := { s.claims with settle := some (2 * period) } }
          (s.claimHeard f c).peers).other
    · have hheld : s.viewHolds = true :=
        (viewHolds_iff s).2 (.inl (by rw [show s.ret.claim.phase = .active from hown]; decide))
      have hconf : (s.claimHeard f c).inConflict = true := (claimHeard_inConflict hk.1).2 ⟨hown, .inr hc⟩
      have hcheck := (claimHeard_of_held hrun hspin hk hnew hchange hheld).trans
        (examineClaim_of_active (s := s.claimHeard f c) hown _ _)
      obtain ⟨hstate, hclaim, hstopped⟩ := conflictCheck_holds (s := s.claimHeard f c) hrun hconf
      have hmoves := (moves_conflictCheck (s.claimHeard f c)).other
      rw [hcheck] at hrest ⊢
      have hstill := (inConflict_congr hclaim (hmoves.peers (by decide))).trans hconf
      have hon : (s.claimHeard f c).conflictCheck.inRun = true := by
        unfold State.inRun at hrun ⊢; rw [hmoves.mode]; exact hrun
      obtain ⟨hother, himages, houts⟩ := hchanges hmoves
      have hseq := hrest.seq (by decide)
      refine ⟨by rw [hseq, hstate], (finish_isActive s hon (by decide)).trans hstill,
        (finish_isActive s hon (by decide)).trans (congrArg SeqState.stopped hstate), ?_, fun hne => ?_,
        hother.mono (by decide), himages, houts⟩
      · rw [hrest.ret (by decide), hclaim]
        rfl
      · rw [hseq]
        exact hstopped hne
    · have hheld : s.viewHolds = true :=
        (viewHolds_iff s).2 (.inl (by rw [show s.ret.claim.phase = .active from hown]; decide))
      have hnot : c.phase ≠ .active := by rw [hc]; decide
      have hcalmed := (claimHeard_of_held hrun hspin hk hnew hchange hheld).trans
        ((examineClaim_of_active (s := s.claimHeard f c) hown _ _).trans (conflictCheck_of_calm (hcalm ho hnot)))
      obtain ⟨hother, himages, houts⟩ := hchanges (.refl [] _)
      refine ⟨hquiet hcalmed ho hnot, ?_⟩
      rw [hcalmed]
      exact ⟨hother.mono (by decide), himages, houts⟩
    · have hsame := claimHeard_of_gone hrun hspin hk hgone hchange (hheld.imp_right hany.1)
      obtain ⟨hother, himages, houts⟩ := hchanges (.refl [] _)
      refine ⟨fun _ ho => hquiet hsame ho (by rw [hgone]; decide), ?_⟩
      rw [hsame]
      exact ⟨hother.mono (by decide), himages, houts⟩
    · obtain ⟨hempty, hw⟩ := claimHeard_of_empty hrun hspin hk hgone hchange hown (mt hany.2 ho)
      have hmoves := (moves_mapPumps (s.claimHeard f c) fun i ch => ch.freed ((s.claimHeard f c).startDuty i)).other.trans
        (moves_reevalPermit (s.claimHeard f c).pumpsFreed).other
      have hstays : (s.claimHeard f c).pumpsFreed.reevalPermit.mayTake = false := by
        rw [← Bool.not_eq_true, mayTake_iff, reevalPermit_listenOnly, hmoves.claims (by decide)]
        exact fun h => hnot ⟨h.1, h.2.2.2.1, h.2.2.2.2.2⟩
      rw [hw, takeTest_of_not hstays] at hrest ⊢
      obtain ⟨hother, himages, houts⟩ := hchanges hmoves
      refine ⟨fun i => ?_, ?_, hother.mono (by decide), himages, houts⟩
      · refine (chan_congr (hrest.pumps (by decide)) i).trans ((chan_freed (s.claimHeard f c) i).trans ((freed_eq _ _).trans ?_))
        cases i <;> rfl
      · rw [hrest.spin (by decide), reevalPermit_spin, permitNow_of_idle (s := (s.claimHeard f c).pumpsFreed) hrun hspin,
          show (s.claimHeard f c).pumpsFreed.viewHolds = false from hempty]
        rw [Bool.not_false, Bool.and_true]
        rfl
    · obtain ⟨hempty, hw⟩ := claimHeard_of_empty hrun hspin hk hgone hchange hown (mt hany.2 ho)
      obtain ⟨htake, hlisten, hspeaks⟩ := htakes
      have hmoves := (moves_mapPumps (s.claimHeard f c) fun i ch => ch.freed ((s.claimHeard f c).startDuty i)).other.trans
        (moves_reevalPermit (s.claimHeard f c).pumpsFreed).other
      have hfreed : (s.claimHeard f c).pumpsFreed.reevalPermit.spin =
          { s.spin with permit := (s.claimHeard f c).pumpsFreed.permitNow } := reevalPermit_spin _
      have hstill : (s.claimHeard f c).pumpsFreed.reevalPermit.viewHolds = false :=
        (viewHolds_congr (s := s.claimHeard f c) (congrArg _ (hmoves.ret (by decide))) (hmoves.peers (by decide))
          hmoves.straps).trans hempty
      have hmay : (s.claimHeard f c).pumpsFreed.reevalPermit.mayTake = true := by
        rw [mayTake_iff, reevalPermit_listenOnly, hmoves.claims (by decide), hmoves.ret (by decide)]
        exact ⟨htake, hown, hstill, hlisten, by unfold State.inRun at hrun ⊢; rw [hmoves.mode]; exact hrun, hspeaks⟩
      obtain ⟨hparts, hchan, hpermit, hclaims, hseq, hcarries⟩ := takeTest_holds hmay (by rw [hfreed]; exact hspin)
      have hannounced := (moves_ret (s.claimHeard f c).pumpsFreed.reevalPermit
        { (s.claimHeard f c).pumpsFreed.reevalPermit.ret with claim := ⟨.connection, .pending⟩ }
        (.of_eq rfl rfl rfl rfl)).other.trans (moves_announceClaim _).other
      rw [hw] at hrest ⊢
      obtain ⟨hother, himages, houts⟩ := hchanges ((hmoves.trans hannounced).trans hparts)
      refine ⟨fun i => ?_, ?_, ?_, ?_, ?_, fun hroom => ?_, hother.mono (by decide), himages, houts⟩
      · refine (chan_congr (hrest.pumps (by decide)) i).trans ((hchan i).trans ((claimed_eq _).trans ?_))
        have hresumed : (s.claimHeard f c).pumpsFreed.reevalPermit.chan i = resumed i := by
          refine (chan_freed (s.claimHeard f c) i).trans ((freed_eq _ _).trans ?_)
          cases i <;> rfl
        rw [hresumed]
      · rw [hrest.ret (by decide), hparts.ret (by decide)]
        show ({ (s.claimHeard f c).pumpsFreed.reevalPermit.ret with claim := ⟨.connection, .pending⟩ } : Retained) = _
        rw [hmoves.ret (by decide)]
        rfl
      · rw [hrest.claims (by decide), hclaims, hmoves.claims (by decide)]
        unfold State.cfg
        rw [hmoves.ret (by decide)]
        rfl
      · rw [hrest.seq (by decide), hseq, hmoves.seq (by decide)]
        rfl
      · rw [hrest.spin (by decide), hpermit, hfreed]
      · have hslack : (s.claimHeard f c).pumpsFreed.link.Slack 2 :=
          ⟨hroom.slack.wait, hroom.slack.rig, hroom.slack.urgent⟩
        refine (carriesOn_finish s _ _ rfl (hcarries _ rfl ?_)).holds
        refine carries_handed_urgent (slack_reevalPermit hslack) ?_ rfl rfl _ .urgent
        rw [reevalPermit_listenOnly]
        exact hspeaks

end Sys2Proof

namespace Sys2Proof.Machine

open Host

/-! ## The tests of CONFIG_LOCK (R26) -/

theorem find?_from_one {p : Nat → Bool} {n i : Nat} (hlow : 1 ≤ i) (hhigh : i ≤ n) (hi : p i = true)
    (hfirst : ∀ j, 1 ≤ j → j < i → p j = false) : ((List.range n).map (· + 1)).find? p = some i := by
  have hfind : (List.range n).find? (p ∘ (· + 1)) = some (i - 1) := by
    refine List.find?_range_eq_some.mpr ⟨?_, ?_, fun j hj => ?_⟩
    · rw [Function.comp_apply, Nat.sub_add_cancel hlow, hi]
    · rw [List.mem_range]
      omega
    · rw [Function.comp_apply, hfirst (j + 1) (by omega) (by omega)]
      rfl
  rw [List.find?_map, hfind, Option.map_some, Nat.sub_add_cancel hlow]

theorem find?_from_one_eq_none {p : Nat → Bool} {n : Nat} (hnone : ∀ j, 1 ≤ j → j ≤ n → p j = false) :
    ((List.range n).map (· + 1)).find? p = none := by
  rw [List.find?_eq_none]
  intro i hi
  obtain ⟨j, hj, rfl⟩ := List.mem_map.mp hi
  rw [hnone (j + 1) (by omega) (List.mem_range.mp hj)]
  decide

/-- An inventory entry repeats the rod ID of one before it. -/
def Repeats (it : Items) (k : Nat) : Prop :=
  ∃ j, j < k ∧ 1 ≤ j ∧ itemGet it Item.inventoryRod j = itemGet it Item.inventoryRod k

/-- An inventory entry names a type above the count. -/
def Untyped (it : Items) (k : Nat) : Prop := itemGet it Item.typeCount 0 < itemGet it Item.inventoryType k

theorem inventory_eq (it : Items) :
    inventory it = (List.range' 1 (itemGet it Item.inventoryCount 0)).map
      fun k => (k, itemGet it Item.inventoryRod k) := by
  simp [inventory, List.range'_eq_map_range, Nat.add_comm]

theorem mem_inventory {it : Items} {id : Nat} :
    id ∈ (inventory it).map (·.2) ↔
      ∃ k, k ≤ itemGet it Item.inventoryCount 0 ∧ 1 ≤ k ∧ itemGet it Item.inventoryRod k = id := by
  rw [inventory_eq]
  simp only [List.map_map, List.mem_map, List.mem_range'_1, Function.comp_apply]
  constructor
  · rintro ⟨k, ⟨hlow, hhigh⟩, hid⟩
    exact ⟨k, by omega, hlow, hid⟩
  · rintro ⟨k, hhigh, hlow, hid⟩
    exact ⟨k, ⟨hlow, by omega⟩, hid⟩

/-- What `seen` holds when the entries from `k` on are tested: the rod IDs of those before. -/
def SeenBefore (it : Items) (k : Nat) (seen : List Nat) : Prop :=
  ∀ id, id ∈ seen ↔ ∃ j, j < k ∧ 1 ≤ j ∧ itemGet it Item.inventoryRod j = id

theorem seenBefore_succ {it : Items} {k : Nat} {seen : List Nat} (hk : 1 ≤ k) (hseen : SeenBefore it k seen) :
    SeenBefore it (k + 1) (itemGet it Item.inventoryRod k :: seen) := by
  intro id
  rw [List.mem_cons, hseen id]
  constructor
  · rintro (rfl | ⟨j, hj, hlow, hid⟩)
    · exact ⟨k, by omega, hk, rfl⟩
    · exact ⟨j, by omega, hlow, hid⟩
  · rintro ⟨j, hj, hlow, rfl⟩
    by_cases hjk : j = k
    · exact .inl (by rw [hjk])
    · exact .inr ⟨j, by omega, hlow, rfl⟩

theorem repeats_iff_contains {it : Items} {k : Nat} {seen : List Nat} (hseen : SeenBefore it k seen) :
    seen.contains (itemGet it Item.inventoryRod k) = true ↔ Repeats it k := by
  rw [List.contains_iff_mem, hseen]
  rfl

theorem inventoryFails_step {it : Items} {k m : Nat} {seen : List Nat} (hseen : SeenBefore it k seen)
    (hrep : ¬Repeats it k) (htyped : ¬Untyped it k) :
    inventoryFails it seen ((List.range' k (m + 1)).map fun k => (k, itemGet it Item.inventoryRod k)) =
      inventoryFails it (itemGet it Item.inventoryRod k :: seen)
        ((List.range' (k + 1) m).map fun k => (k, itemGet it Item.inventoryRod k)) := by
  rw [List.range'_succ, List.map_cons, inventoryFails,
    if_neg (fun h => hrep ((repeats_iff_contains hseen).mp h))]
  exact if_neg htyped

theorem inventoryFails_none {it : Items} (m : Nat) : ∀ {k : Nat} {seen : List Nat}, 1 ≤ k → SeenBefore it k seen →
    (∀ j, k ≤ j → j < k + m → ¬Repeats it j ∧ ¬Untyped it j) →
    inventoryFails it seen ((List.range' k m).map fun k => (k, itemGet it Item.inventoryRod k)) = none := by
  induction m with
  | zero => intro k seen _ _ _; rfl
  | succ m ih =>
    intro k seen hk hseen hall
    obtain ⟨hrep, htyped⟩ := hall k le_rfl (by omega)
    rw [inventoryFails_step hseen hrep htyped]
    exact ih (by omega) (seenBefore_succ hk hseen) fun j hlow hhigh => hall j (by omega) (by omega)

theorem inventoryFails_first {it : Items} (m : Nat) : ∀ {k i : Nat} {seen : List Nat}, 1 ≤ k → SeenBefore it k seen →
    k ≤ i → i < k + m → (∀ j, k ≤ j → j < i → ¬Repeats it j ∧ ¬Untyped it j) →
    (Repeats it i →
      inventoryFails it seen ((List.range' k m).map fun k => (k, itemGet it Item.inventoryRod k)) =
        some (Item.inventoryRod, i)) ∧
    (¬Repeats it i → Untyped it i →
      inventoryFails it seen ((List.range' k m).map fun k => (k, itemGet it Item.inventoryRod k)) =
        some (Item.inventoryType, i)) := by
  induction m with
  | zero => intro k i seen _ _ hlow hhigh; omega
  | succ m ih =>
    intro k i seen hk hseen hlow hhigh hfirst
    by_cases hik : i = k
    · subst hik
      rw [List.range'_succ, List.map_cons, inventoryFails]
      constructor
      · intro hrep
        rw [if_pos ((repeats_iff_contains hseen).mpr hrep)]
      · intro hrep htype
        rw [if_neg (fun h => hrep ((repeats_iff_contains hseen).mp h))]
        exact if_pos htype
    · obtain ⟨hrep, htyped⟩ := hfirst k le_rfl (by omega)
      rw [inventoryFails_step hseen hrep htyped]
      exact ih (by omega) (seenBefore_succ hk hseen) (by omega) (by omega)
        fun j hj hji => hfirst j (by omega) hji

/-! ## The initial rack -/

theorem initialRack_eq (it : Items) :
    initialRack it = ((List.range' 0 64).map fun k => (k, itemGet it Item.rackSlot k)).filter fun p => p.2 != 0 := by
  rw [initialRack, ← List.range_eq_range']

theorem rackUnknown_first {it : Items} {n : Nat} (hn : n < 64) (hfull : itemGet it Item.rackSlot n ≠ 0)
    (hunknown : itemGet it Item.rackSlot n ∉ (inventory it).map (·.2))
    (hfirst : ∀ j, j < n → itemGet it Item.rackSlot j = 0 ∨ itemGet it Item.rackSlot j ∈ (inventory it).map (·.2)) :
    rackUnknown it = some (Item.rackSlot, n) := by
  have hfind : (List.range 64).find? ((fun p : Nat × Nat =>
      decide ((p.2 != 0) = true ∧ (!((inventory it).map (·.2)).contains p.2) = true)) ∘
      fun k => (k, itemGet it Item.rackSlot k)) = some n := by
    refine List.find?_range_eq_some.mpr ⟨?_, List.mem_range.mpr hn, fun j hj => ?_⟩
    · simpa [hfull] using hunknown
    · obtain hzero | hknown := hfirst j hj
      · simp [hzero]
      · rw [Function.comp_apply, List.contains_iff_mem.mpr hknown]
        simp
  rw [rackUnknown, initialRack, List.find?_filter, List.find?_map]
  exact congrArg _ (congrArg _ hfind)

theorem rackUnknown_none {it : Items}
    (hall : ∀ j, j < 64 → itemGet it Item.rackSlot j = 0 ∨ itemGet it Item.rackSlot j ∈ (inventory it).map (·.2)) :
    rackUnknown it = none := by
  rw [rackUnknown, Option.map_eq_none_iff, List.find?_eq_none]
  intro p hp
  rw [initialRack, List.mem_filter] at hp
  obtain ⟨hmem, hfull⟩ := hp
  obtain ⟨j, hj, rfl⟩ := List.mem_map.mp hmem
  obtain hzero | hknown := hall j (List.mem_range.mp hj)
  · rw [hzero] at hfull
    exact absurd rfl (bne_iff_ne.mp hfull)
  · rw [List.contains_iff_mem.mpr hknown]
    decide

/-- A rack slot repeats the rod of one before it. -/
def Twice (it : Items) (n : Nat) : Prop :=
  itemGet it Item.rackSlot n ≠ 0 ∧ ∃ m, m < n ∧ itemGet it Item.rackSlot m = itemGet it Item.rackSlot n

/-- What `seen` holds when the slots from `k` on are tested: the rods of those before. -/
def RackedBefore (it : Items) (k : Nat) (seen : List Nat) : Prop :=
  ∀ id, id ∈ seen ↔ id ≠ 0 ∧ ∃ j, j < k ∧ itemGet it Item.rackSlot j = id

theorem rackedBefore_empty {it : Items} {k : Nat} {seen : List Nat} (hseen : RackedBefore it k seen)
    (hempty : itemGet it Item.rackSlot k = 0) : RackedBefore it (k + 1) seen := by
  intro id
  rw [hseen id]
  refine and_congr_right fun hid => ⟨fun ⟨j, hj, hjd⟩ => ⟨j, by omega, hjd⟩, fun ⟨j, hj, hjd⟩ => ⟨j, ?_, hjd⟩⟩
  by_contra hnot
  have hjk : j = k := by omega
  rw [hjk, hempty] at hjd
  exact hid hjd.symm

theorem rackedBefore_full {it : Items} {k : Nat} {seen : List Nat} (hseen : RackedBefore it k seen)
    (hfull : itemGet it Item.rackSlot k ≠ 0) : RackedBefore it (k + 1) (itemGet it Item.rackSlot k :: seen) := by
  intro id
  rw [List.mem_cons, hseen id]
  constructor
  · rintro (rfl | ⟨hid, j, hj, hjd⟩)
    · exact ⟨hfull, k, by omega, rfl⟩
    · exact ⟨hid, j, by omega, hjd⟩
  · rintro ⟨hid, j, hj, rfl⟩
    by_cases hjk : j = k
    · exact .inl (by rw [hjk])
    · exact .inr ⟨hid, j, by omega, rfl⟩

/-- The filled slots from `k` on, with the rods they hold. -/
def rackFrom (it : Items) (k m : Nat) : List (Nat × Nat) :=
  ((List.range' k m).map fun k => (k, itemGet it Item.rackSlot k)).filter fun p => p.2 != 0

theorem rackFrom_empty {it : Items} {k m : Nat} (hempty : itemGet it Item.rackSlot k = 0) :
    rackFrom it k (m + 1) = rackFrom it (k + 1) m := by
  rw [rackFrom, List.range'_succ, List.map_cons, List.filter_cons_of_neg (by simp [hempty])]
  rfl

theorem rackFrom_full {it : Items} {k m : Nat} (hfull : itemGet it Item.rackSlot k ≠ 0) :
    rackFrom it k (m + 1) = (k, itemGet it Item.rackSlot k) :: rackFrom it (k + 1) m := by
  rw [rackFrom, List.range'_succ, List.map_cons, List.filter_cons_of_pos (by simp [hfull])]
  rfl

theorem twice_iff_contains {it : Items} {k : Nat} {seen : List Nat} (hseen : RackedBefore it k seen) :
    seen.contains (itemGet it Item.rackSlot k) = true ↔ Twice it k := by
  rw [List.contains_iff_mem, hseen]
  rfl

theorem rackRepeats_none {it : Items} (m : Nat) : ∀ {k : Nat} {seen : List Nat}, RackedBefore it k seen →
    (∀ j, k ≤ j → j < k + m → ¬Twice it j) → rackRepeats seen (rackFrom it k m) = none := by
  induction m with
  | zero => intro k seen _ _; rfl
  | succ m ih =>
    intro k seen hseen hall
    by_cases hempty : itemGet it Item.rackSlot k = 0
    · rw [rackFrom_empty hempty]
      exact ih (rackedBefore_empty hseen hempty) fun j hlow hhigh => hall j (by omega) (by omega)
    · rw [rackFrom_full hempty, rackRepeats,
        if_neg (fun h => hall k le_rfl (by omega) ((twice_iff_contains hseen).mp h))]
      exact ih (rackedBefore_full hseen hempty) fun j hlow hhigh => hall j (by omega) (by omega)

theorem rackRepeats_first {it : Items} (m : Nat) : ∀ {k n : Nat} {seen : List Nat}, RackedBefore it k seen →
    k ≤ n → n < k + m → Twice it n → (∀ j, k ≤ j → j < n → ¬Twice it j) →
    rackRepeats seen (rackFrom it k m) = some (Item.rackSlot, n) := by
  induction m with
  | zero => intro k n seen _ hlow hhigh; omega
  | succ m ih =>
    intro k n seen hseen hlow hhigh htwice hfirst
    by_cases hnk : n = k
    · subst hnk
      rw [rackFrom_full htwice.1, rackRepeats, if_pos ((twice_iff_contains hseen).mpr htwice)]
    · by_cases hempty : itemGet it Item.rackSlot k = 0
      · rw [rackFrom_empty hempty]
        exact ih (rackedBefore_empty hseen hempty) (by omega) (by omega) htwice
          fun j hj hjn => hfirst j (by omega) hjn
      · rw [rackFrom_full hempty, rackRepeats,
          if_neg (fun h => hfirst k le_rfl (by omega) ((twice_iff_contains hseen).mp h))]
        exact ih (rackedBefore_full hseen hempty) (by omega) (by omega) htwice
          fun j hj hjn => hfirst j (by omega) hjn

/-! ## Sections and bands -/

/-- A section bottom that is not below the one before it, but for the last in use. -/
def SectionFails (it : Items) (i : Nat) : Prop :=
  2 ≤ i ∧ i < itemGet it Item.sectionCount 0 ∧ itemGet it Item.sectionBottom i ≤ itemGet it Item.sectionBottom (i - 1)

/-- A band bottom that is not below the one before it, or no multiple of the interval length. -/
def BandFails (it : Items) (b : Nat) : Prop :=
  1 ≤ b ∧ b ≤ itemGet it Item.bandCount 0 ∧
    ((2 ≤ b ∧ itemGet it Item.bandBottom b ≤ itemGet it Item.bandBottom (b - 1)) ∨
      itemGet it Item.bandBottom b % itemGet it Item.intervalLength 0 ≠ 0)

theorem sectionsFail_first {it : Items} {i : Nat} (hi : SectionFails it i) (hfirst : ∀ j, j < i → ¬SectionFails it j) :
    sectionsFail it = some (Item.sectionBottom, i) := by
  obtain ⟨htwo, hcount, hbottom⟩ := hi
  rw [sectionsFail, find?_from_one (i := i) (by omega) (Nat.le_sub_one_of_lt hcount)]
  · rfl
  · rw [decide_eq_true htwo, decide_eq_true hbottom]
    rfl
  · intro j _ hj
    by_contra hsect
    rw [Bool.not_eq_false, Bool.and_eq_true, decide_eq_true_iff, decide_eq_true_iff] at hsect
    exact hfirst j hj ⟨hsect.1, by omega, hsect.2⟩

theorem sectionsFail_none {it : Items} (hnone : ∀ i, ¬SectionFails it i) : sectionsFail it = none := by
  rw [sectionsFail, find?_from_one_eq_none]
  · rfl
  · intro j hlow hhigh
    by_contra hsect
    rw [Bool.not_eq_false, Bool.and_eq_true, decide_eq_true_iff, decide_eq_true_iff] at hsect
    exact hnone j ⟨hsect.1, by omega, hsect.2⟩

theorem bandTest_iff {it : Items} {b : Nat} :
    ((decide (2 ≤ b) && decide (itemGet it Item.bandBottom b ≤ itemGet it Item.bandBottom (b - 1))) ||
      itemGet it Item.bandBottom b % itemGet it Item.intervalLength 0 != 0) = true ↔
    (2 ≤ b ∧ itemGet it Item.bandBottom b ≤ itemGet it Item.bandBottom (b - 1)) ∨
      itemGet it Item.bandBottom b % itemGet it Item.intervalLength 0 ≠ 0 := by
  rw [Bool.or_eq_true, Bool.and_eq_true, decide_eq_true_iff, decide_eq_true_iff, bne_iff_ne]

theorem bandsFail_first {it : Items} {b : Nat} (hb : BandFails it b) (hfirst : ∀ j, j < b → ¬BandFails it j) :
    bandsFail it = some (Item.bandBottom, b) := by
  obtain ⟨hlow, hhigh, htest⟩ := hb
  rw [bandsFail, find?_from_one (i := b) hlow hhigh (bandTest_iff.mpr htest)]
  · rfl
  · intro j hone hj
    by_contra htestj
    rw [Bool.not_eq_false] at htestj
    exact hfirst j hj ⟨hone, by omega, bandTest_iff.mp htestj⟩

theorem bandsFail_none {it : Items} (hnone : ∀ b, ¬BandFails it b) : bandsFail it = none := by
  rw [bandsFail, find?_from_one_eq_none]
  · rfl
  · intro j hlow hhigh
    by_contra htest
    rw [Bool.not_eq_false] at htest
    exact hnone j ⟨hlow, hhigh, bandTest_iff.mp htest⟩

/-! ## The tests in their order -/

/-- No section or band fails (the first tests of R26). -/
def BandsPass (it : Items) : Prop := (∀ i, ¬SectionFails it i) ∧ ∀ b, ¬BandFails it b

/-- No section, band, or figure of the log and the collar fails. -/
def DepthsPass (it : Items) : Prop :=
  BandsPass it ∧
    itemGet it Item.bandBottom (itemGet it Item.bandCount 0) = itemGet it Item.depthLimit 0 ∧
    itemGet it Item.depthLimit 0 ≤ itemGet it Item.intervalLength 0 * 1024 ∧
    itemGet it Item.collarDepth 0 % itemGet it Item.intervalLength 0 = 0 ∧
    itemGet it Item.collarDepth 0 < itemGet it Item.depthLimit 0

theorem lockFails_of_section {it : Items} {i : Nat} (hi : SectionFails it i)
    (hfirst : ∀ j, j < i → ¬SectionFails it j) : lockFails it = some (Item.sectionBottom, i) := by
  rw [lockFails, sectionsFail_first hi hfirst, Option.some_or]

theorem lockFails_of_band {it : Items} {b : Nat} (hsect : ∀ i, ¬SectionFails it i) (hb : BandFails it b)
    (hfirst : ∀ j, j < b → ¬BandFails it j) : lockFails it = some (Item.bandBottom, b) := by
  rw [lockFails, sectionsFail_none hsect, Option.none_or, bandsFail_first hb hfirst, Option.some_or]

theorem lockFails_of_bandsPass {it : Items} (hpass : BandsPass it) :
    lockFails it = ((lastBandFails it).or <| (logReachFails it).or <| (collarFails it).or <|
      (inventoryFails it [] (inventory it)).or <| (rackUnknown it).or (rackRepeats [] (initialRack it))) := by
  rw [lockFails, sectionsFail_none hpass.1, bandsFail_none hpass.2, Option.none_or, Option.none_or]

theorem lockFails_of_depthsPass {it : Items} (hpass : DepthsPass it) :
    lockFails it = ((inventoryFails it [] (inventory it)).or <| (rackUnknown it).or
      (rackRepeats [] (initialRack it))) := by
  obtain ⟨hbands, hends, hreach, hstarts⟩ := hpass
  have hlast : lastBandFails it = none := if_pos hends
  have hlog : logReachFails it = none := if_pos hreach
  have hcollar : collarFails it = none := if_pos hstarts
  rw [lockFails_of_bandsPass hbands, hlast, hlog, hcollar, Option.none_or, Option.none_or, Option.none_or]

theorem seenBefore_one (it : Items) : SeenBefore it 1 [] := by
  intro id
  simp only [List.not_mem_nil, false_iff, not_exists]
  rintro j ⟨hj, hlow, -⟩
  omega

theorem rackedBefore_zero (it : Items) : RackedBefore it 0 [] := by
  intro id
  simp

end Sys2Proof.Machine

namespace Sys2Proof

open Machine Host

/-- Settles O37: each test of the lock is a search for the first entry that fails it, and the tests are made in order. -/
theorem lockNamesTheFirstFailingItem : Obligations.LockNamesTheFirstFailingItem := by
  unfold Obligations.LockNamesTheFirstFailingItem
  intro items it limit length collar bands first sect band used rpt entry filled unknown twice ends reaches starts
    fails
  refine ⟨fun i ⟨hi, hfirst⟩ => lockFails_of_section hi hfirst, fun hsect => ⟨fun b ⟨hb, hfirst⟩ =>
    lockFails_of_band hsect hb hfirst, fun hband => ?_⟩⟩
  have hbands : BandsPass items := ⟨hsect, hband⟩
  refine ⟨fun hends => ?_, fun hends hreach => ?_, fun hends hreach hstarts => ?_, fun hends hreach hstarts => ?_⟩
  · have hfail : lastBandFails items = some (Item.bandBottom, bands) := if_neg hends
    exact (lockFails_of_bandsPass hbands).trans (by rw [hfail, Option.some_or])
  · have hpass : lastBandFails items = none := if_pos hends
    have hfail : logReachFails items = some (Item.intervalLength, 0) := if_neg hreach
    exact (lockFails_of_bandsPass hbands).trans (by rw [hpass, hfail, Option.none_or, Option.some_or])
  · have hpass : lastBandFails items = none := if_pos hends
    have hlog : logReachFails items = none := if_pos hreach
    have hfail : collarFails items = some (Item.collarDepth, 0) := if_neg hstarts
    exact (lockFails_of_bandsPass hbands).trans
      (by rw [hpass, hlog, hfail, Option.none_or, Option.none_or, Option.some_or])
  have hdepths := lockFails_of_depthsPass ⟨hbands, hends, hreach, hstarts⟩
  have hearlier : ∀ k, (∀ j, j < k → ¬entry j) → used k →
      ∀ j, 1 ≤ j → j < k → ¬Repeats items j ∧ ¬Untyped items j := fun k hfirst hused j hlow hj => by
    have hnot := hfirst j hj
    have husedj : used j := ⟨hlow, le_trans hj.le hused.2⟩
    exact ⟨fun h => hnot ⟨husedj, .inl h⟩, fun h => hnot ⟨husedj, .inr h⟩⟩
  refine ⟨fun k ⟨⟨hused, _⟩, hfirst⟩ hrep => ?_, fun k ⟨⟨hused, hfails⟩, hfirst⟩ hrep => ?_, fun hentry => ?_⟩
  · have hfail := (inventoryFails_first (it := items) _ le_rfl (seenBefore_one items) hused.1
      (Nat.lt_one_add_iff.mpr hused.2) (hearlier k hfirst hused)).1 hrep
    exact hdepths.trans (by rw [inventory_eq, hfail, Option.some_or])
  · have hfail := (inventoryFails_first (it := items) _ le_rfl (seenBefore_one items) hused.1
      (Nat.lt_one_add_iff.mpr hused.2) (hearlier k hfirst hused)).2 hrep (hfails.resolve_left hrep)
    exact hdepths.trans (by rw [inventory_eq, hfail, Option.some_or])
  have hinventory : inventoryFails items [] (inventory items) = none := by
    rw [inventory_eq]
    refine inventoryFails_none _ le_rfl (seenBefore_one items) fun j hlow hhigh => ?_
    have husedj : used j := ⟨hlow, Nat.lt_one_add_iff.mp hhigh⟩
    exact ⟨fun h => hentry j ⟨husedj, .inl h⟩, fun h => hentry j ⟨husedj, .inr h⟩⟩
  rw [hinventory, Option.none_or] at hdepths
  have hknown : ∀ j, j < 64 → ¬unknown j →
      itemGet items Item.rackSlot j = 0 ∨ itemGet items Item.rackSlot j ∈ (inventory items).map (·.2) := by
    intro j hj hnot
    by_contra hneither
    rw [not_or, mem_inventory] at hneither
    exact hnot ⟨⟨hj, hneither.1⟩, fun k hk hlow heq => hneither.2 ⟨k, hk, hlow, heq⟩⟩
  refine ⟨fun n ⟨⟨⟨hn, hfull⟩, hunknown⟩, hfirst⟩ => ?_, fun hall => ?_⟩
  · have hmem : itemGet items Item.rackSlot n ∉ (inventory items).map (·.2) := by
      rw [mem_inventory]
      exact fun ⟨k, hk, hlow, heq⟩ => hunknown k hk hlow heq
    rw [rackUnknown_first hn hfull hmem fun j hj => hknown j (by omega) (hfirst j hj), Option.some_or] at hdepths
    exact hdepths
  rw [rackUnknown_none fun j hj => hknown j hj (hall j), Option.none_or, initialRack_eq] at hdepths
  refine ⟨fun n ⟨⟨⟨hn, hfull⟩, htwice⟩, hfirst⟩ => ?_, fun hnone => ?_⟩
  · exact hdepths.trans (rackRepeats_first 64 (rackedBefore_zero items) (Nat.zero_le n) (by omega) ⟨hfull, htwice⟩
      fun j _ hj hbefore => hfirst j hj ⟨⟨by omega, hbefore.1⟩, hbefore.2⟩)
  · exact hdepths.trans (rackRepeats_none 64 (rackedBefore_zero items)
      fun j _ hj hbefore => hnone j ⟨⟨by omega, hbefore.1⟩, hbefore.2⟩)

end Sys2Proof

namespace Sys2Proof.Machine

open Host

/-! ## Commands of a station in RUN -/

section
variable {c : Instr} {s w : State} {f : State → State}

theorem inRunDo_eq (hrun : s.mode = .run) (hw : f s = w) : s.inRunDo f = s.finish w := by
  have hin := (inRun_iff s).mpr hrun
  have hp : s.powered = true := by
    unfold State.powered
    rw [hrun]
    rfl
  unfold State.inRunDo State.poweredDo
  rw [if_pos hp]
  exact congrArg _ ((if_pos hin).trans hw)

theorem run_settles (hrun : s.mode = .run) (hexec : exec c s = .next (s.inRunDo f)) (hw : f s = w)
    (hpending : w.pending = s.pending) : ∃ t, exec c s = .next t ∧ Settles s w t :=
  ⟨_, hexec.trans (congrArg _ (inRunDo_eq hrun hw)), finish_settles s w hpending⟩

theorem run_leaves (hrun : s.mode = .run) (hexec : exec c s = .next (s.inRunDo f)) (hw : f s = w)
    (hpending : w.pending = s.pending) (hsettled : w.AlarmsSettled) : ∃ t, exec c s = .next t ∧ Leaves [] s w t :=
  ⟨_, hexec.trans (congrArg _ (inRunDo_eq hrun hw)), finish_leaves s w hpending hsettled⟩

theorem LeavesOther.after {p q r : List Part} {s t u : State} (h : LeavesOther p s t) (k : LeavesOther q t u)
    (hp : p ⊆ r) (hq : q ⊆ r) : LeavesOther r s u :=
  (h.trans k).mono (List.append_subset.mpr ⟨hp, hq⟩)

theorem Settles.changes {p r : List Part} {t : State} (h : Settles s w t) (hw : LeavesOther p s w) (hp : p ⊆ r)
    (hr : [Part.alarm, Part.link] ⊆ r) : ChangesOnly r s t :=
  ⟨hw.after h.rest.other hp hr, h.rest.images, h.rest.outs⟩

/-- The parts no alarm condition reads. -/
abbrev quietParts : List Part := [.clock, .pins, .claims, .thresholds, .circ, .depth, .spin, .strata]

theorem settled_of_conds (hs : s.AlarmsSettled) (hmode : w.mode = s.mode) (halarm : w.alarm = s.alarm)
    (hcond : ∀ d, w.alarmCond d = s.alarmCond d) : w.AlarmsSettled := by
  intro hrun d
  rw [halarm, hcond]
  exact hs (by rwa [inRun_iff, ← hmode, ← inRun_iff]) d

/-- A change of parts that no condition reads leaves the flags as their conditions stand. -/
theorem settled_of_quiet (hs : s.AlarmsSettled) (h : LeavesOther quietParts s w) : w.AlarmsSettled := by
  refine settled_of_conds hs h.mode (h.alarm (by decide)) fun d => ?_
  have hr := h.ret (by decide)
  have hl := h.link (by decide)
  have hp := h.peers (by decide)
  have hu := h.pumps (by decide)
  have hq := h.seq (by decide)
  have ho := h.rod (by decide)
  have hb := h.billing (by decide)
  have hst := h.straps
  have hd : w.digestDiffers = s.digestDiffers := funext fun m => by simp only [State.digestDiffers, hr]
  cases d
  case configMismatch => simp only [State.alarmCond, hp, hd]
  case depthLimit => simp only [State.alarmCond, State.cfg, hst, hr]; rfl
  all_goals simp only [State.alarmCond, State.isPit, State.inConflict, State.claimActive, State.otherClaims,
    State.claimView, State.viewSure, State.lastClosedUntracked, hr, hl, hp, hu, hq, ho, hb, hst]

/-- A change of the pump channels that neither stalls one, nor sets or clears a pressure-high flag. -/
theorem settled_of_pumps {v : Pumps} (hs : s.AlarmsSettled)
    (hhigh : (v.a.pressureHigh || v.b.pressureHigh) = (s.pumps.a.pressureHigh || s.pumps.b.pressureHigh))
    (hstall : (v.a.state == .stalled || v.b.state == .stalled) =
      (s.pumps.a.state == .stalled || s.pumps.b.state == .stalled)) :
    ({ s with pumps := v } : State).AlarmsSettled := by
  refine settled_of_conds hs rfl rfl fun d => ?_
  cases d
  case pressureHigh => exact hhigh
  case pumpStall => exact hstall
  all_goals rfl

end

/-! ## Threshold samples (R45, R46) -/

theorem thresholdReading_steady (n : Nat) : thresholdReading n n n n = min 15 n := by
  unfold thresholdReading
  dsimp only
  split_ifs <;> omega

theorem take_eq (t : Threshold) (reading : Nat) :
    t.take reading =
      ⟨some reading, if decide (t.last = some reading) = true then reading else t.accepted,
        t.known || decide (t.last = some reading), some 100⟩ := by
  unfold Threshold.take
  by_cases h : t.last = some reading
  · rw [if_pos h, if_pos (decide_eq_true h), decide_eq_true h, Bool.or_true]
  · rw [if_neg h, if_neg (by simpa using h), decide_eq_false h, Bool.or_false]

section
variable {s : State} {c : ThresholdId} {reading : Nat}

theorem sampleTaken_of_stopped (h : (s.thresholds.get c).timer = none) : s.sampleTaken c reading = s := by
  unfold State.sampleTaken
  dsimp only
  rw [h]
  rfl

/-- The state once the filter of a channel has taken a reading. -/
def State.sampled (s : State) (c : ThresholdId) (reading : Nat) : State :=
  { s with thresholds := s.thresholds.set c ((s.thresholds.get c).take reading) }

theorem sampleTaken_of_same (htimer : (s.thresholds.get c).timer.isSome = true)
    (haccepted : ((s.thresholds.get c).take reading).accepted = (s.thresholds.get c).accepted)
    (hknown : ((s.thresholds.get c).take reading).known = (s.thresholds.get c).known) :
    s.sampleTaken c reading = s.sampled c reading := by
  unfold State.sampleTaken
  dsimp only
  exact (if_pos htimer).trans (if_pos ⟨haccepted, hknown⟩)

theorem sampleTaken_of_told (htimer : (s.thresholds.get c).timer.isSome = true)
    (htold : ((s.thresholds.get c).take reading).accepted ≠ (s.thresholds.get c).accepted ∨
      ((s.thresholds.get c).take reading).known ≠ (s.thresholds.get c).known) :
    s.sampleTaken c reading = (s.sampled c reading).thresholdTold c := by
  unfold State.sampleTaken
  dsimp only
  refine (if_pos htimer).trans (if_neg fun h => ?_)
  exact htold.elim (· h.1) (· h.2)

theorem sampled_other (s : State) (c : ThresholdId) (reading : Nat) :
    LeavesOther [.thresholds] s (s.sampled c reading) := (moves_thresholds s _).other

end

/-! ## The heard balance record (R70) -/

/-- What the strata and billing units do at a change of the heard balance record. -/
theorem moves_heardTold (s : State) (old : Heard) (rise : Nat) :
    Moves [.ret, .billing, .pumps] s (((s.strataHeard old).billWater rise).completionTest) :=
  (moves_completionTest _).last (by decide) <| (moves_billWater _ _).last (by decide) <|
    (moves_strataHeard s old).mono (by decide)

/-- The heard balance record takes its values, with or without a reader of the change. -/
theorem heardUpdate_circ (s : State) (n : Heard) :
    (s.heardUpdate n).circ =
      { s.circ with heardReturn := n.ret, heardSource := n.source, heardStale := n.stale } := by
  unfold State.heardUpdate
  dsimp only
  split
  · rename_i h
    subst h
    rfl
  · split
    · exact ((moves_heardTold (s.setHeard n) s.heard _).other.circ (by decide)).trans rfl
    · rfl

theorem heardUpdate_of_strataOff {s : State} (h : s.strataOn = false) (n : Heard) :
    s.heardUpdate n = s.setHeard n := by
  unfold State.heardUpdate
  dsimp only
  split
  · rename_i hn
    subst hn
    rfl
  · exact if_neg (by rw [show (s.setHeard n).strataOn = s.strataOn from rfl, h]; decide)

end Sys2Proof.Machine

namespace Sys2Proof

open Machine Host

/-- Settles O50: the filter takes the reading, and the channel's reader is told of a new accepted step. -/
theorem thresholdSampleIsTaken : Obligations.ThresholdSampleIsTaken := by
  unfold Obligations.ThresholdSampleIsTaken
  intro c first second third fourth s hrun hs b3 b2 b1 reading old agrees new told w step
  have hnew : old.take reading = new := take_eq old reading
  have hw : s.sampled c reading = w := congrArg (fun v => { s with thresholds := s.thresholds.set c v }) hnew
  have hexec : step = .next (s.inRunDo fun s => s.sampleTaken c reading) := rfl
  refine ⟨?_, fun hstop => ?_, fun htimer hquiet => ?_, fun htimer htold hc => ?_, fun htimer htold hc => ?_⟩
  · rintro rfl rfl rfl
    exact thresholdReading_steady _
  · exact run_leaves hrun hexec (sampleTaken_of_stopped hstop) rfl hs
  · have htaken : s.sampleTaken c reading = w := by
      by_cases htold : told
      · rw [sampleTaken_of_told htimer (by rwa [hnew]), hw, hquiet.resolve_right (not_not.mpr htold)]
        rfl
      · have hsame := not_or.mp htold
        rw [sampleTaken_of_same htimer (by rw [hnew]; exact not_not.mp hsame.1)
          (by rw [hnew]; exact not_not.mp hsame.2), hw]
    exact run_leaves hrun hexec htaken rfl (settled_of_quiet hs (hw ▸ (sampled_other s c reading).mono (q := quietParts) (by decide)))
  · subst hc
    refine run_settles hrun hexec ?_ rfl
    rw [sampleTaken_of_told htimer (by rwa [hnew]), hw]
    rfl
  · subst hc
    have hagrees : agrees = true := by
      by_contra hdiffer
      rw [Bool.not_eq_true] at hdiffer
      have hkeeps : new = ⟨some reading, old.accepted, old.known, some 100⟩ := by
        change Threshold.mk _ _ _ _ = _
        rw [hdiffer, Bool.or_false]
        rfl
      exact htold.elim (· (congrArg Threshold.accepted hkeeps :)) (· (congrArg Threshold.known hkeeps :))
    have hreturn : w.ownReturn = some reading := by
      change (if new.known = true then some new.accepted else none) = some reading
      rw [show new = ⟨some reading, reading, true, some 100⟩ by
        change Threshold.mk _ _ _ _ = _
        rw [hagrees, Bool.or_true]
        rfl]
      rfl
    have htaken : s.sampleTaken .ret reading = w.heardUpdate { w.heard with ret := some reading } := by
      rw [sampleTaken_of_told htimer (by rwa [hnew]), hw, ← hreturn]
      rfl
    have hmoves := moves_heardUpdate w { w.heard with ret := some reading }
    have hpending : (w.heardUpdate { w.heard with ret := some reading }).pending = s.pending := hmoves.other.pending
    obtain ⟨t, ht, hsettles⟩ := run_settles hrun hexec htaken hpending
    have hrest := hsettles.rest.other
    refine ⟨t, ht, (hrest.thresholds (by decide)).trans (hmoves.other.thresholds (by decide)),
      (hrest.circ (by decide)).trans (heardUpdate_circ w _), fun hoff => ?_, ?_⟩
    · have hset := heardUpdate_of_strataOff (s := w) hoff { w.heard with ret := some reading }
      rw [hset] at hsettles
      exact hsettles
    · exact hsettles.changes ((moves_thresholds s _).other.after hmoves.other (r := [.thresholds, .circ, .ret, .billing,
        .pumps]) (by decide) (by decide)) (by decide) (by decide)

end Sys2Proof

namespace Sys2Proof.Machine

open Host

/-! What the sequencer keeps as far as it goes at once. A relation that is kept by every change outside the link unit
and the pumps, by a frame handed and by the pumps' hold and release, is kept by every operation of the sequencer. -/

/-- The parts but the link unit and the pumps. -/
abbrev stillParts : List Part :=
  [.clock, .pins, .ret, .peers, .claims, .thresholds, .circ, .depth, .rod, .seq, .spin, .strata, .billing, .alarm]

structure Walk (R : State → State → Prop) : Prop where
  trans : ∀ {s t u}, R s t → R t u → R s u
  still : ∀ {s t}, LeavesOther stillParts s t → R s t
  hand : ∀ s q f, R s (s.hand q f)
  issue : ∀ s dest code args, R s (s.onLink fun e => Link.issue e s.clockMs dest code args)
  claimed : ∀ s, R s s.pumpsClaimed
  freed : ∀ s, R s s.pumpsFreed

section
variable {R : State → State → Prop} (hR : Walk R)
include hR

theorem Walk.refl (s : State) : R s s := hR.still (.refl _ s)

/-- The last of several operations, taken off first. -/
theorem Walk.last {s t u : State} (k : R t u) (h : R s t) : R s u := hR.trans h k

omit hR in
theorem Walk.ite {s t u : State} {c : Prop} [Decidable c] (h : c → R s t) (k : ¬c → R s u) :
    R s (if c then t else u) := by
  split
  · exact h ‹_›
  · exact k ‹_›

/-- An operation known to move parts outside the link unit and the pumps only. -/
theorem Walk.moved {p : List Part} {s t : State} (h : Moves p s t) (hp : p ⊆ stillParts) : R s t :=
  hR.still (h.other.mono hp)

theorem Walk.setSeq (s : State) (v : Sequencer) : R s { s with seq := v } := hR.moved (moves_seq s v) (by decide)

theorem Walk.setClaims (s : State) (v : ClaimUnit) : R s { s with claims := v } :=
  hR.moved (moves_claims s v) (by decide)

theorem Walk.setSpin (s : State) (v : SpinService) : R s { s with spin := v } := hR.moved (moves_spin s v) (by decide)

theorem Walk.setDepth (s : State) (v : DepthUnit) : R s { s with depth := v } :=
  hR.moved (moves_depth s v) (by decide)

theorem Walk.setRet (s : State) (v : Retained) : R s { s with ret := v } :=
  hR.still (by constructor <;> first | exact rfl | exact fun h => absurd (by decide) h | exact fun _ => rfl)

theorem Walk.setRetSeq (s : State) (r : Retained) (q : Sequencer) : R s { s with ret := r, seq := q } :=
  hR.last (hR.setSeq { s with ret := r } q) (hR.setRet s r)

/-! ## Frames and reports -/

theorem Walk.report (s : State) (c : AlarmCond) (holds : Bool) : R s (s.report c holds) := by
  have hflag : R s (s.flagged c holds) := hR.moved (moves_flagged s c holds) (by decide)
  exact Walk.ite (fun _ => hR.refl s) fun _ => Walk.ite (fun _ => hR.last (hR.hand _ _ _) hflag) fun _ => hflag

theorem Walk.handHead (s : State) : R s s.handHead := hR.last (hR.setDepth _ _) (hR.hand s _ _)

theorem Walk.headCall (s : State) : R s s.headCall :=
  Walk.ite (fun _ => Walk.ite (fun _ => hR.setDepth s _) fun _ => hR.handHead s) fun _ => hR.refl s

theorem Walk.reevalPermit (s : State) : R s s.reevalPermit :=
  Walk.ite (fun _ => hR.refl s) fun _ => hR.last (hR.headCall _) (hR.setSpin s _)

theorem Walk.spinEnd (s : State) (st : SpinState) : R s (s.spinEnd st) :=
  Walk.ite (fun _ => hR.last (hR.headCall _) (hR.last (hR.setSpin _ _) (hR.setSpin s _))) fun _ => hR.refl s

theorem Walk.spinOwnerCheck (s : State) : R s s.spinOwnerCheck :=
  Walk.ite (fun _ => hR.spinEnd s _) fun _ => hR.refl s

theorem Walk.spinBegin (s : State) (k : Nat) (kind : SpinKind) : R s (s.spinBegin k kind) :=
  hR.last (hR.headCall _) (hR.last (hR.setSpin _ _) (hR.setSpin s _))

theorem Walk.spinService (s : State) (k code : Nat) : R s (s.spinService k code).1 := by
  unfold State.spinService
  split
  · exact hR.refl s
  · split
    · exact hR.refl s
    · split
      · exact hR.refl s
      · exact hR.spinBegin s k _

theorem Walk.makeEvent (s : State) (kind : RodEventKind) (rod slot : Option Nat) (place : Option Place) :
    R s (s.makeEvent kind rod slot place) := hR.last (hR.hand _ _ _) (hR.setRet s _)

theorem Walk.rodChange (s : State) (r : Retained) (kind : RodEventKind) (rod slot : Option Nat) (place : Option Place) :
    R s (s.rodChange r kind rod slot place) := hR.last (hR.makeEvent _ _ _ _ _) (hR.setRet s r)

/-! ## Depth and intervals -/

theorem Walk.closeOne (s : State) (iv : Interval) : R s (s.closeOne iv) :=
  hR.last (hR.report _ _ _) (hR.moved (moves_closeRecord s iv) (by decide))

theorem Walk.closeRun (op : Interval) (n : Nat) : ∀ (k : Nat) (s : State), R s (s.closeRun op n k) := by
  induction n with
  | zero => exact fun _ s => hR.refl s
  | succ n ih => exact fun k s => hR.last (ih _ _) (hR.closeOne s _)

theorem Walk.holeRose (s : State) : R s s.holeRose := by
  unfold State.holeRose
  dsimp only
  split
  · exact hR.refl s
  · refine Walk.ite (fun _ => ?_) fun _ => hR.refl s
    have hrun := fun op n k v => hR.last (hR.closeRun op n k _) (hR.setRet s v)
    exact Walk.ite (fun _ => hR.last (hR.setRet _ _) (hrun _ _ _ _)) fun _ => hrun _ _ _ _

theorem Walk.recomputeDepth (s : State) : R s s.recomputeDepth := by
  unfold State.recomputeDepth
  dsimp only
  refine Walk.ite (fun _ => ?_) fun _ => hR.refl s
  have htake := fun d => hR.moved (moves_takeDepth s d) (by decide)
  have hrose : ∀ d (c : Prop) [Decidable c],
      R s (if c then (s.takeDepth d).holeRose else s.takeDepth d) := fun d c _ =>
    Walk.ite (fun _ => hR.last (hR.holeRose _) (htake d)) fun _ => htake d
  exact Walk.ite (fun _ => hR.last (hR.moved (moves_mapOpen _ _) (by decide)) (hrose _ _)) fun _ => hrose _ _

theorem Walk.depthFollows (s before : State) : R s (s.depthFollows before) :=
  Walk.ite (fun _ => hR.refl s) fun _ => hR.recomputeDepth s

/-! ## Claims -/

theorem Walk.viewChanged (b : Bool) (s : State) : R s (State.viewChanged b s) :=
  Walk.ite (fun _ => hR.refl s) fun _ => Walk.ite (fun _ => hR.last (hR.reevalPermit _) (hR.claimed s)) fun _ =>
    Walk.ite (fun _ => hR.last (hR.reevalPermit _) (hR.freed s)) fun _ => hR.refl s

theorem Walk.moveClaim (s : State) (phase : ClaimPhase) : R s (s.moveClaim phase) :=
  hR.last (hR.viewChanged _ _) <| hR.last (hR.spinOwnerCheck _) <| hR.last (hR.hand _ _ _) (hR.setRet s _)

theorem Walk.takeTest (s : State) : R s s.takeTest := by
  have hmove : R s (s.moveClaim .pending).startSettle := hR.last (hR.setClaims _ _) (hR.moveClaim s .pending)
  exact Walk.ite (fun _ => Walk.ite (fun _ => hR.last (hR.setSeq _ _) hmove) fun _ => hmove) fun _ => hR.refl s

theorem Walk.releaseClaim (s : State) : R s s.releaseClaim := by
  have hclear := hR.setClaims s { s.claims with takeRequest := false }
  exact Walk.ite (fun _ => hclear) fun _ => hR.last (hR.moveClaim _ _) (hR.last (hR.setClaims _ _) hclear)

/-! ## Steps and units -/

theorem Walk.seqStop (s : State) (st : SeqState) : R s (s.seqStop st) := hR.moved (moves_seqStop s st) (by decide)

theorem Walk.enterSelect (s : State) : R s s.enterSelect := hR.moved (moves_enterSelect s) (by decide)

theorem Walk.enterStore (s : State) : R s s.enterStore := hR.moved (moves_enterStore s) (by decide)

theorem Walk.enterSpin (s : State) (kind : SpinKind) : R s (s.enterSpin kind) := by
  unfold State.enterSpin
  split
  · exact hR.seqStop s _
  · rename_i d _
    have htimer := hR.moved (moves_startTimer s 20000) (by decide)
    dsimp only
    refine Walk.ite (fun _ => ?_) fun _ => Walk.ite (fun _ => ?_) fun _ => hR.last (hR.setSeq _ _) htimer
    · have hservice := hR.last (hR.spinService (s.startTimer 20000) d kind.code) htimer
      split
      · rename_i e
        rw [e] at hservice
        exact hR.last (hR.setSeq _ _) hservice
      · rename_i e
        rw [e] at hservice
        exact hR.last (hR.seqStop _ _) hservice
    · exact hR.last (hR.setSeq _ _) (hR.last (hR.issue _ _ _ _) htimer)

theorem Walk.enterStep (s : State) (n : Nat) : R s (s.enterStep n) := by
  unfold State.enterStep
  dsimp only
  have hfresh := hR.moved (moves_stepFresh s n) (by decide)
  have htimer := fun (t : State) ms => hR.moved (moves_startTimer t ms) (by decide)
  have hclamp := fun u b => hR.last (hR.moved (moves_driveClamp (s.stepFresh n) u b) (by decide)) hfresh
  split
  · exact hfresh
  · split
    · exact hfresh
    · exact hR.last (htimer _ _) (hR.last (hR.moved (moves_alignOutputs _) (by decide)) hfresh)
    · exact Walk.ite (fun _ => hR.last (hR.enterSelect _) hfresh) fun _ => hR.last (htimer _ _) hfresh
    · exact hR.last (htimer _ _) (hclamp _ _)
    · exact hR.last (htimer _ _) <| Walk.ite
        (fun _ => hR.last (hR.moved (moves_loaderBack _) (by decide)) (hclamp _ _)) fun _ => hclamp _ _
    · exact hR.last (htimer _ _) (hR.last (hR.setSeq _ _) hfresh)
    · exact hR.last (hR.enterSpin _ _) hfresh
    · exact hR.last (htimer _ _) (hR.last (hR.moved (moves_driveGrip _ _) (by decide)) hfresh)
    · exact hR.last (hR.enterStore _) hfresh

theorem Walk.seqIdle (s : State) : R s s.seqIdle := hR.moved (moves_seqIdle s) (by decide)

theorem Walk.setLastOp (s : State) (kind : OpKind) (r : OpResult) (e : Option OpEntry) : R s (s.setLastOp kind r e) :=
  hR.setSeq s _

theorem Walk.beginUnit (n : Nat) : ∀ s : State, R s (State.beginUnit n s) := by
  have hidle : ∀ s : State, R s s.seqIdle.releaseClaim := fun s => hR.last (hR.releaseClaim _) (hR.seqIdle s)
  induction n with
  | zero => exact hidle
  | succ n ih =>
    intro s
    unfold State.beginUnit
    split
    · exact hidle s
    · refine Walk.ite (fun _ => hR.last (ih _) (hR.last (hR.setLastOp _ _ _ _) (hR.setSeq s _))) fun _ => ?_
      dsimp only
      have hunit := fun v => hR.last (hR.setRet s.seqIdle v) (hR.seqIdle s)
      exact Walk.ite (fun _ => hR.last (hR.enterStep _ _) (hunit _)) fun _ =>
        hR.last (hR.takeTest _) <| hR.last (hR.setClaims _ _) <| hR.last (hR.setSeq _ _)
          (hunit { s.seqIdle.ret with unit := some ⟨_, 1, none, none, false⟩ })

theorem Walk.unitEnd (s : State) (u : UnitRec) : R s (s.unitEnd u) := by
  unfold State.unitEnd
  split
  · exact hR.last (hR.beginUnit _ _) (hR.setLastOp s _ _ _)
  · exact hR.last (hR.beginUnit _ _) <|
      Walk.ite (fun _ => hR.last (hR.setLastOp _ _ _ _) (hR.setSeq s _)) fun _ => hR.setSeq s _

theorem Walk.unitOver (s : State) : R s s.unitOver :=
  hR.last (hR.beginUnit _ _) (hR.last (hR.releaseClaim _) (hR.seqIdle s))

theorem Walk.unitAborted (s : State) (u : UnitRec) (e : Option OpEntry) : R s (s.unitAborted u e) :=
  hR.last (hR.unitOver _) (hR.setLastOp s _ _ _)

theorem Walk.stepEnds (s : State) : R s s.stepEnds := by
  unfold State.stepEnds
  split
  · exact hR.seqIdle s
  · exact Walk.ite
      (fun _ => Walk.ite (fun _ => hR.unitAborted s _ _) fun _ =>
        hR.last (hR.seqStop _ _) (hR.setRetSeq s _ _))
      fun _ => Walk.ite (fun _ => hR.unitEnd s _) fun _ => hR.enterStep s _

theorem Walk.changeHold (s : State) (r : HoldRec) : R s (s.changeHold r) :=
  hR.last (hR.depthFollows _ _) (hR.rodChange s _ _ _ _ _)

theorem Walk.storeDone (s : State) (u : UnitRec) : R s (s.storeDone u) := by
  unfold State.storeDone
  dsimp only
  have hgrip := hR.setRetSeq s { s.ret with gripOut := false } { s.seq with store := false, timer := none }
  split
  · exact Walk.ite
      (fun _ => hR.last (hR.moved (moves_countRetired _ _) (by decide)) <|
        hR.last (hR.rodChange _ _ _ _ _ _) (hR.last (hR.rodChange _ _ _ _ _ _) hgrip))
      fun _ => hR.last (hR.rodChange _ _ _ _ _ _) hgrip
  · exact hgrip

theorem Walk.phaseDone (s : State) : R s s.phaseDone := by
  unfold State.phaseDone
  split
  · exact hR.refl s
  · split
    · exact hR.stepEnds s
    · exact hR.last (hR.setSeq _ _) (hR.changeHold s _)
    · exact hR.last (hR.setSeq _ _) (hR.last (hR.changeHold _ _) (hR.setSeq s _))
    · exact hR.setRetSeq s _ _
    · exact hR.last (hR.stepEnds _) (hR.moved (moves_fetchDone s _) (by decide))
    · exact hR.setRetSeq s _ _
    · exact hR.last (hR.setSeq _ _) (hR.storeDone s _)
    · exact hR.last (hR.stepEnds _) (hR.setSeq s _)

theorem Walk.seqRunFor (n : Nat) : ∀ s : State, R s (State.seqRunFor n s) := by
  induction n with
  | zero => exact hR.refl
  | succ n ih => exact fun s => Walk.ite (fun _ => hR.last (ih _) (hR.phaseDone s)) fun _ => hR.refl s

theorem Walk.seqRun (s : State) : R s s.seqRun := hR.seqRunFor 40 s

end

/-! ## A stopped pump stays stopped -/

/-- Stroke-stopped is set, with nothing measured (R50). -/
def PumpChannel.Still (c : PumpChannel) : Prop := c.strokeStopped = true ∧ c.spm = 0 ∧ c.stoppedTimer = none

theorem still_claimed {c : PumpChannel} (h : c.Still) : c.claimed.Still := by
  unfold PumpChannel.claimed
  split <;> exact h

theorem still_toStopping {c : PumpChannel} (h : c.Still) : c.toStopping.Still := by
  unfold PumpChannel.toStopping
  split <;> exact h

theorem still_freed (duty : Nat) {c : PumpChannel} (h : c.Still) : (c.freed duty).Still := by
  unfold PumpChannel.freed
  split
  · split
    · exact h
    · exact still_toStopping h
  · exact h

theorem walk_still : Walk fun s t => ∀ p, (s.chan p).Still → (t.chan p).Still where
  trans h k p hp := k p (h p hp)
  still h p hp := by rwa [chan_congr (h.pumps (by decide))]
  hand s q f p hp := hp
  issue s dest code args p hp := hp
  claimed s p hp := by cases p <;> exact still_claimed hp
  freed s p hp := by cases p <;> exact still_freed _ hp

theorem carriesOn_issue (e : LinkEnv) (now dest code : Nat) (args : List Byte) (l : Link) :
    l.CarriesOn (l.issue e now dest code args) := by
  have htable : l.CarriesOn { l with
      tagCounter := (l.nextTag + 1) % 256
      outstanding := l.outstanding ++ [OutEntry.mk dest l.nextTag code now] } :=
    .of_queues (fun _ h => h) (fun _ _ h => h) fun _ _ h => h
  exact htable.trans (carriesOn_handOver _ _ _ _)

theorem walk_carriesOn : Walk fun s t => s.link.CarriesOn t.link where
  trans h k := h.trans k
  still h := by rw [h.link (by decide)]; exact .refl _
  hand s q f := carriesOn_handOver _ _ _ _
  issue s dest code args := carriesOn_issue _ _ _ _ _ _
  claimed s := .refl _
  freed s := .refl _

end Sys2Proof.Machine

namespace Sys2Proof.Machine

open Host

/-! ## Channels and their timers (R50, R51, R55, R56, R62) -/

theorem seqRun_of_waiting {s : State} (h : s.seq.state ≠ .running ∨ s.phaseReady = false) : s.seqRun = s := by
  obtain h | h := h
  · exact seqRun_of_not_running h
  · unfold State.seqRun State.seqRunFor
    exact if_neg fun hready => by rw [h] at hready; exact absurd hready.2 (by decide)

@[simp] theorem setChan_chan (s : State) (p : PumpId) : s.setChan p (s.chan p) = s := by cases p <;> rfl

theorem chan_setChan_same (s : State) (p : PumpId) (c : PumpChannel) : (s.setChan p c).chan p = c := by cases p <;> rfl

/-- A channel changed to one that is as stalled and as high as it was. -/
theorem setChan_settled {s : State} {p : PumpId} {c : PumpChannel} (hs : s.AlarmsSettled)
    (hhigh : c.pressureHigh = (s.chan p).pressureHigh) (hstate : c.state = (s.chan p).state) :
    (s.setChan p c).AlarmsSettled := by
  cases p
  · refine settled_of_pumps hs ?_ ?_
    · change (c.pressureHigh || _) = _
      rw [hhigh]
      rfl
    · change (c.state == _ || _) = _
      rw [hstate]
      rfl
  · refine settled_of_pumps hs ?_ ?_
    · change (_ || c.pressureHigh) = _
      rw [hhigh]
      rfl
    · change (_ || c.state == _) = _
      rw [hstate]
      rfl

theorem isFitted_iff_fitted {s : State} (hrun : s.mode = .run) (p : PumpId) :
    s.isFitted p = true ↔ s.straps.pump = true ∧ s.cfg Item.fitted (pumpCode p) = 1 := by
  unfold State.isFitted
  rw [(inRun_iff s).mpr hrun, Bool.true_and, Bool.and_eq_true, beq_iff_eq]

theorem strokesEnd_eq (c : PumpChannel) :
    c.strokesEnd =
      let quiet := { c with strokeStopped := true, spm := 0, stoppedTimer := none }
      if c.state = .running then quiet.toStalled
      else if c.state = .stopping then quiet.toStopped
      else quiet := by
  cases c with
  | mk state => cases state <;> rfl

theorem still_strokesEnd (c : PumpChannel) : c.strokesEnd.Still := by
  rw [strokesEnd_eq]
  dsimp only
  split_ifs <;> exact ⟨rfl, rfl, rfl⟩

theorem startExpired_eq (c : PumpChannel) :
    c.startExpired = if c.state = .starting ∧ c.startTimer.isSome = true then c.toStalled else c := by
  unfold PumpChannel.startExpired
  split
  · rename_i h
    simp only [h, true_and]
  · rename_i h
    rw [if_neg fun k => h k.1]

theorem strokesHoldoffEnd_kept {s : State} {p : PumpId} (h : (s.chan p).callKept = true) :
    s.strokesHoldoffEnd p =
      (s.setChan p { s.chan p with holdoff := some 200, callKept := false }).broadcast .strokes (some p)
        (encodeStrokes ⟨p, s.strokes p, (s.chan p).effVolume, (s.chan p).spm⟩) := by
  unfold State.strokesHoldoffEnd
  dsimp only
  rw [if_pos h]
  cases p <;> rfl

theorem strokesHoldoffEnd_free {s : State} {p : PumpId} (h : (s.chan p).callKept = false) :
    s.strokesHoldoffEnd p = s.setChan p { s.chan p with holdoff := none } := by
  unfold State.strokesHoldoffEnd
  dsimp only
  rw [h, ← h]
  exact if_neg (by rw [h]; decide)

theorem headHoldoffEnd_kept {s : State} (h : s.depth.callKept = true) :
    s.headHoldoffEnd =
      ({ s with depth := { s.depth with holdoff := some 200, callKept := false, lastHanded := some s.depth.h } }
        : State).broadcast .head none (encodeHead s.headMsg) := by
  unfold State.headHoldoffEnd
  dsimp only
  rw [if_pos h]
  rfl

theorem headHoldoffEnd_free {s : State} (h : s.depth.callKept = false) :
    s.headHoldoffEnd = { s with depth := { s.depth with holdoff := none } } := by
  unfold State.headHoldoffEnd
  dsimp only
  rw [h, ← h]
  exact if_neg (by rw [h]; decide)

end Sys2Proof.Machine

namespace Sys2Proof

open Machine Host

/-- Settles O52: each timer's expiry is one change of a channel or of the head's call. -/
theorem pumpAndFrameTimersRunOut : Obligations.PumpAndFrameTimersRunOut := by
  unfold Obligations.PumpAndFrameTimersRunOut
  refine ⟨fun p s hrun hs => ?_, fun s hrun hs => ?_⟩
  · intro c put halted quiet fittedNow
    have hstopped : exec (.strokeStoppedExpiry p) s = .next (s.inRunDo fun s =>
        if (s.chan p).stoppedTimer.isSome then (s.setChan p (s.chan p).strokesEnd).seqRun else s) := rfl
    have hstart : exec (.startTimerExpiry p) s = .next (s.inRunDo fun s => s.setChan p (s.chan p).startExpired) := rfl
    have hpwm : exec (.pwmPeriod p) s = .next (s.inRunDo fun s =>
        if s.isFitted p then s.setChan p ((s.chan p).pwm (s.cfg Item.pwmPeriod (pumpCode p))) else s) := rfl
    have hholdoff : exec (.strokesHoldoffExpiry p) s = .next (s.inRunDo fun s =>
        if (s.chan p).holdoff.isSome then s.strokesHoldoffEnd p else s) := rfl
    refine ⟨fun hnone => ?_, fun hsome => ?_, ?_, ?_, fun hnone => ?_, fun hsome hfree => ?_, fun hsome hkept => ?_⟩
    · exact run_leaves hrun hstopped (if_neg (by rw [show (s.chan p).stoppedTimer = none from hnone]; decide)) rfl hs
    · intro w
      have hw : s.setChan p (s.chan p).strokesEnd = w := congrArg (s.setChan p) (strokesEnd_eq c)
      have hcommand := inRunDo_eq (f := fun s =>
        if (s.chan p).stoppedTimer.isSome then (s.setChan p (s.chan p).strokesEnd).seqRun else s)
        hrun ((if_pos hsome).trans (congrArg State.seqRun hw))
      have hmoves := moves_seqRun w
      have hpending : w.seqRun.pending = s.pending := hmoves.other.pending
      have hstill : (w.seqRun.chan p).Still := by
        refine walk_still.seqRun w p ?_
        rw [← hw, chan_setChan_same]
        exact still_strokesEnd c
      obtain ⟨hflag, hspm, htimer⟩ : ((s.finish w.seqRun).chan p).Still := by
        rwa [chan_congr ((finish_rest s w.seqRun hpending).pumps (by decide))]
      refine ⟨_, hstopped.trans (congrArg _ hcommand), hflag, hspm, htimer, fun hwait => ?_⟩
      rw [seqRun_of_waiting (s := w) hwait]
      exact finish_settles s w rfl
    · refine run_settles hrun hstart ?_ ?_
      · rw [startExpired_eq]
        split
        · rfl
        · exact setChan_chan s p
      · split <;> rfl
    · by_cases hfit : fittedNow
      · rw [if_pos hfit]
        exact run_leaves hrun hpwm (if_pos ((isFitted_iff_fitted hrun p).mpr hfit)) rfl (setChan_settled hs rfl rfl)
      · rw [if_neg hfit]
        exact run_leaves hrun hpwm (if_neg fun h => hfit ((isFitted_iff_fitted hrun p).mp h)) rfl hs
    · exact run_leaves hrun hholdoff (if_neg (by rw [show (s.chan p).holdoff = none from hnone]; decide)) rfl hs
    · exact run_leaves hrun hholdoff ((if_pos hsome).trans (strokesHoldoffEnd_free hfree)) rfl
        (setChan_settled hs rfl rfl)
    · exact run_settles hrun hholdoff ((if_pos hsome).trans (strokesHoldoffEnd_kept hkept)) rfl
  · intro d
    have hholdoff : exec .headHoldoffExpiry s = .next (s.inRunDo fun s =>
        if s.depth.holdoff.isSome then s.headHoldoffEnd else s) := rfl
    refine ⟨fun hnone => ?_, fun hsome hfree => ?_, fun hsome hkept => ?_⟩
    · exact run_leaves hrun hholdoff (if_neg (by rw [show s.depth.holdoff = none from hnone]; decide)) rfl hs
    · exact run_leaves hrun hholdoff ((if_pos hsome).trans (headHoldoffEnd_free hfree)) rfl
        (settled_of_quiet hs ((moves_depth s _).other.mono (by decide)))
    · exact run_settles hrun hholdoff ((if_pos hsome).trans (headHoldoffEnd_kept hkept)) rfl

end Sys2Proof

namespace Sys2Proof.Machine

open Host

/-! ## A stopped station (R19, R20) -/

theorem poweredDo_of_unpowered {s : State} (h : s.powered = false) (f : State → State) : s.poweredDo f = s := by
  unfold State.poweredDo
  exact if_neg (by rw [h]; decide)

/-- A command of a stopped station changes the level of a pin at most. -/
theorem exec_of_unpowered {c : Instr} {s : State} (h : s.powered = false) (hc : c.isSupply = false)
    (hb : c ≠ .backupSupplyExhausted) : ∃ p, exec c s = .next { s with pins := p } := by
  by_cases hl : ∃ rq, c = .configLock rq
  · obtain ⟨rq, rfl⟩ := hl
    exact ⟨s.pins, congrArg Outcome.next (poweredDo_of_unpowered h _)⟩
  by_cases hj : ∃ rq, c = .jobClear rq
  · obtain ⟨rq, rfl⟩ := hj
    exact ⟨s.pins, congrArg Outcome.next (poweredDo_of_unpowered h _)⟩
  obtain ⟨g, ⟨p, hexec⟩, -⟩ := exec_form c s hc hb (not_exists.mp hl) (not_exists.mp hj)
  exact ⟨p, hexec.trans (congrArg Outcome.next (poweredDo_of_unpowered (s := { s with pins := p }) h g))⟩

theorem exec_stop (s : State) (torn reset : Bool) (hreset : reset = true → s.mode ≠ .off) :
    exec (if reset then .resetAssert torn else .supplyLoss torn) s =
      .next (s.halt (if reset then .resetHeld else .off) torn) := by
  cases reset with
  | false => rfl
  | true => exact congrArg Outcome.next (if_neg (hreset rfl))

theorem halt_image (s : State) (m : Mode) (torn : Bool) (id : ImageId) :
    (if id = .first then (s.halt m torn).first else (s.halt m torn).second) =
      let image := if id = .first then s.first else s.second
      if torn = true ∧ s.lastWrite = some id then image.failed else image := by
  rw [halt_eq]
  have hcond : ∀ id, ((torn && s.lastWrite == some id) = true) = (torn = true ∧ s.lastWrite = some id) := fun id => by
    rw [Bool.and_eq_true, beq_iff_eq]
  cases id with
  | first =>
    rw [if_pos rfl, if_pos rfl]
    change (if (torn && s.lastWrite == some ImageId.first) = true then _ else _) = _
    simp only [hcond]
  | second =>
    rw [if_neg (show ¬ImageId.second = ImageId.first by decide), if_neg (show ¬ImageId.second = ImageId.first by decide)]
    change (if (torn && s.lastWrite == some ImageId.second) = true then _ else _) = _
    simp only [hcond]

/-! ## Starts without a job (R18, R19, R21) -/

section
variable {s : State} {straps : Straps} {src : StartSource}

theorem exec_start (hpin : src = .pin → s.mode ≠ .off) :
    exec (startCommand straps src) s = .next (s.check straps src) := by
  cases src with
  | power => rfl
  | pin => exact congrArg Outcome.next (if_neg (hpin rfl))

theorem not_goodNumber_iff : ¬straps.goodNumber ↔ straps.number = 0 ∨ 31 ≤ straps.number := by
  unfold Straps.goodNumber
  omega

theorem blank_retained (s : State) (straps : Straps) (src : StartSource) :
    (s.blank straps src).retainedImage = s.retainedImage := rfl

theorem blank_strapsMatch (r : Retained) :
    (s.blank straps src).strapsMatch r = true ↔ r.recorded = some straps.recorded := beq_iff_eq

theorem check_of_badNumber (h : ¬straps.goodNumber) : s.check straps src = (s.blank straps src).startFault :=
  if_pos (not_goodNumber_iff.mp h)

theorem check_of_goodNumber (h : straps.goodNumber) :
    s.check straps src =
      match s.retainedImage with
      | none => (s.blank straps src).coldStart
      | some r =>
        if r.job = .noJob then (s.blank straps src).coldStart
        else if (s.blank straps src).strapsMatch r then (s.blank straps src).warmStart r
        else (s.blank straps src).startFault := by
  exact if_neg fun hbad => not_goodNumber_iff.mpr hbad h

theorem check_of_otherStraps {r : Retained} (h : straps.goodNumber) (hr : s.retainedImage = some r)
    (hjob : r.job ≠ .noJob) (hother : r.recorded ≠ some straps.recorded) :
    s.check straps src = (s.blank straps src).startFault := by
  rw [check_of_goodNumber h, hr]
  exact (if_neg hjob).trans (if_neg fun hmatch => hother ((blank_strapsMatch r).mp hmatch))

theorem check_of_noJob (h : straps.goodNumber) (hnone : ∀ r, s.retainedImage = some r → r.job = .noJob) :
    s.check straps src = (s.blank straps src).coldStart := by
  rw [check_of_goodNumber h]
  cases hr : s.retainedImage with
  | none => rfl
  | some r => exact if_pos (hnone r hr)

theorem coldStart_heardSource (s : State) (straps : Straps) (src : StartSource) :
    (s.blank straps src).coldStart.circ =
      { CircUnit.start with
        heardSource := if straps.pump = true ∧ straps.pitSensor = true then some straps.number else none } := by
  change CircUnit.config (straps.pump && straps.pitSensor) straps.number = _
  unfold CircUnit.config
  simp only [Bool.and_eq_true]

end

end Sys2Proof.Machine

namespace Sys2Proof

open Machine Host

/-- Settles O13. -/
theorem stoppedStationDoesNothing : Obligations.StoppedStationDoesNothing := by
  unfold Obligations.StoppedStationDoesNothing
  refine ⟨fun s => ⟨fun torn reset hreset => ?_, fun hoff torn straps => ⟨?_, ?_, ?_⟩, fun hon => ?_, ?_, ?_⟩,
    fun c s hp hc hb => ?_⟩
  · refine ⟨_, exec_stop s torn reset hreset, ?_, rfl, rfl, fun p => ?_, fun id => halt_image s _ torn id, rfl⟩
    · cases reset <;> rfl
    · cases p <;> rfl
  · exact congrArg Outcome.next (if_pos hoff)
  · exact congrArg Outcome.next (if_pos hoff)
  · exact congrArg Outcome.next (if_pos hoff)
  · exact congrArg Outcome.next (if_neg hon)
  · exact good_failed s.first
  · exact good_failed s.second
  · obtain ⟨p, hexec⟩ := exec_of_unpowered hp hc hb
    exact ⟨_, hexec, (moves_pins s p).other, rfl, rfl, rfl⟩

/-- Settles O11: CHECK in its three cases. -/
theorem startWithoutAJob : Obligations.StartWithoutAJob := by
  unfold Obligations.StartWithoutAJob
  intro src straps s hpin
  refine ⟨fun hfault => ?_, fun hgood hnone => ?_⟩
  · have hcheck : s.check straps src = (s.blank straps src).startFault := by
      by_cases hgood : straps.goodNumber
      · obtain ⟨r, hr, hjob, hother⟩ := hfault.resolve_left (not_not.mpr hgood)
        exact check_of_otherStraps hgood hr hjob hother
      · exact check_of_badNumber hgood
    exact ⟨_, (exec_start hpin).trans (congrArg _ hcheck), rfl, rfl, rfl, rfl, rfl, rfl, rfl⟩
  · refine ⟨_, (exec_start hpin).trans (congrArg _ (check_of_noJob hgood hnone)), rfl, rfl, rfl, rfl, rfl, rfl, rfl,
      rfl, rfl, good_written _ _, good_written _ _, rfl, rfl, fun _ _ => rfl, rfl, rfl, rfl, rfl, rfl,
      coldStart_heardSource s straps src, rfl, rfl, rfl, rfl, rfl, rfl, rfl⟩

end Sys2Proof

namespace Sys2Proof.Machine

open Host

/-! ## The count of DUPLICATE_STATION faults (R16) -/

/-- The number of DUPLICATE_STATION faults counted. -/
abbrev Link.duplicates (l : Link) : Nat := l.counts.duplicateStation

@[simp] theorem setQueue_counts (l : Link) (q : QueueId) (fs : List TxFrame) :
    (l.setQueue q fs).counts = l.counts := by cases q <;> rfl

@[simp] theorem take_counts (e : LinkEnv) (q : QueueId) (f : TxFrame) (l : Link) : (l.take e q f).counts = l.counts := rfl

@[simp] theorem arbitrate_counts (e : LinkEnv) (l : Link) : (l.arbitrate e).counts = l.counts := by
  unfold Link.arbitrate Link.arbitrate.next
  repeat' split
  all_goals simp

@[simp] theorem putBack_counts (h : InHand) (l : Link) : (l.putBack h).counts = l.counts := by
  unfold Link.putBack; simp

@[simp] theorem preempt_counts (l : Link) : l.preempt.counts = l.counts := by
  unfold Link.preempt
  repeat' split
  all_goals simp

@[simp] theorem settle_counts (e : LinkEnv) (l : Link) : (l.settle e).counts = l.counts := by
  unfold Link.settle; simp

theorem record_duplicates_other {kind : FaultKind} (hkind : kind ≠ .duplicateStation) (e : LinkEnv) (peer : Option Nat)
    (frame : Option FrameKind) (seqTag : Option Nat) (l : Link) :
    (l.record e kind peer frame seqTag).duplicates = l.duplicates := by
  rw [record_eq, bump_eq, Link.duplicates]
  dsimp only
  rw [if_neg hkind.symm]

theorem record_duplicates (e : LinkEnv) (peer : Option Nat) (frame : Option FrameKind) (seqTag : Option Nat) (l : Link) :
    (l.record e .duplicateStation peer frame seqTag).duplicates = min 255 (l.duplicates + 1) := by
  rw [record_eq, bump_eq, Link.duplicates]
  dsimp only
  rw [if_pos rfl]

theorem defer_duplicates (e : LinkEnv) (h : InHand) (l : Link) : (l.defer e h).duplicates = l.duplicates := by
  by_cases hdrop : e.drops h.frame.attempts
  · rw [defer_of_dropped hdrop, Link.duplicates, arbitrate_counts]
    exact record_duplicates_other (by decide) e _ _ _ l
  · rw [defer_of_kept hdrop]

theorem goBusy_duplicates (e : LinkEnv) (l : Link) : (l.goBusy e).duplicates = l.duplicates := by
  unfold Link.goBusy
  dsimp only
  split
  · split
    · exact defer_duplicates e _ _
    · rfl
  · rfl

theorem collide_duplicates (e : LinkEnv) (h : InHand) (l : Link) : (l.collide e h).duplicates = l.duplicates := by
  unfold Link.collide
  dsimp only
  rw [Link.duplicates, settle_counts]
  exact (defer_duplicates e _ _).trans (record_duplicates_other (by decide) e _ _ _ l)

/-! ## LISTEN_ONLY (R4, R58, R123) -/

/-- In LISTEN_ONLY the flags follow without a frame. -/
theorem alarmsFollow_link_of_silent {s : State} (h : s.link.listenOnly = true) : s.alarmsFollow.link = s.link := by
  have hsend : ∀ (t : State) c b, t.link = s.link → (t.sendAlarm c b).link = s.link := fun t c b ht => by
    unfold State.sendAlarm State.hand State.onLink
    dsimp only
    rw [ht, handOver_silent h]
  have hreport : ∀ (t : State) c b, t.link = s.link → (t.report c b).link = s.link := fun t c b ht => by
    unfold State.report
    split
    · exact ht
    · split
      · exact hsend _ c b ht
      · exact ht
  have hfold : ∀ (l : List AlarmCond) (t : State), t.link = s.link → (l.foldl State.follow t).link = s.link := by
    intro l
    induction l with
    | nil => exact fun t ht => ht
    | cons c l ih => exact fun t ht => ih _ (hreport t c _ ht)
  unfold State.alarmsFollow
  split
  · exact hreport _ _ _ (hfold _ s rfl)
  · rfl

theorem seqSilenced_seq (s : State) :
    s.seqSilenced.seq.queue = [] ∧
      s.seqSilenced.seq.state = if s.seq.state = .hold .claimConflict then s.seq.state else .hold .silenced := by
  unfold State.seqSilenced
  dsimp only
  by_cases hconflict : s.seq.state = .hold .claimConflict
  · rw [if_pos hconflict, if_pos hconflict]
    exact ⟨rfl, rfl⟩
  · rw [if_neg hconflict, if_neg hconflict]
    exact ⟨rfl, rfl⟩

section
variable {s v : State}

theorem listenOnlyNow_link (h : s.link.listenOnly = false) : s.listenOnlyNow.link = s.link.silence := by
  have hsilenced : ∀ t : State, t.seqSilenced.link = t.link := fun t => (moves_seqSilenced t).other.link (by decide)
  unfold State.listenOnlyNow
  rw [if_neg (by rw [h]; decide)]
  dsimp only
  split
  · split
    · exact hsilenced _
    · rfl
  · rfl

/-- What entering LISTEN_ONLY makes of the pumps, the claim unit and the sequencer of a station in RUN. -/
theorem listenOnlyNow_of_run (h : s.link.listenOnly = false) (hrun : s.inRun = true) :
    s.listenOnlyNow.pumps = ⟨s.pumps.a.silenced, s.pumps.b.silenced⟩ ∧ s.listenOnlyNow.claims.settle = none ∧
      (s.straps.rod = true → s.listenOnlyNow.seq.queue = [] ∧
        s.listenOnlyNow.seq.state = if s.seq.state = .hold .claimConflict then s.seq.state else .hold .silenced) := by
  unfold State.listenOnlyNow
  rw [if_neg (by rw [h]; decide)]
  dsimp only
  rw [if_pos (show ({ s with link := s.link.silence } : State).inRun = true from hrun)]
  have hsilenced : ∀ t : State, t.seqSilenced.pumps = t.pumps ∧ t.seqSilenced.claims = t.claims := fun t =>
    ⟨(moves_seqSilenced t).other.pumps (by decide), (moves_seqSilenced t).other.claims (by decide)⟩
  split
  · refine ⟨(hsilenced _).1, congrArg ClaimUnit.settle (hsilenced _).2, fun _ => ?_⟩
    exact seqSilenced_seq _
  · rename_i hrod
    exact ⟨rfl, rfl, fun hrod' => absurd hrod' hrod⟩

/-- A DUPLICATE_STATION fault recorded at a station that has changed in its link unit only, and LISTEN_ONLY entered. -/
theorem silenced_outcome {peer : Option Nat} {frame : Option FrameKind} {seqTag : Option Nat}
    (hv : LeavesOther [.link] s v) (hlisten : v.link.listenOnly = false)
    (hcount : v.link.duplicates = s.link.duplicates) :
    let t := s.finish (v.recordFault .duplicateStation peer frame seqTag).listenOnlyNow
    t.link.listenOnly = true ∧ t.link.inHand = none ∧ t.link.urgent = [] ∧ t.link.rig = [] ∧
      t.link.exchange = [] ∧ t.link.bulk = [] ∧ t.link.rodWait = [] ∧
      t.link.counts.duplicateStation = min 255 (s.link.counts.duplicateStation + 1) ∧
      t.link.fault.isSome = true ∧ t.peers = s.peers ∧
      (s.mode = .run →
        (∀ p, (t.chan p).state = .stopped ∧ (t.chan p).target = 0 ∧ (t.chan p).staged = 0) ∧
        t.claims.settle = none ∧
        (s.straps.rod = true →
          t.seq.queue = [] ∧
          t.seq.state = if s.seq.state = .hold .claimConflict then s.seq.state else .hold .silenced)) ∧
      ChangesOnly [.link, .pumps, .claims, .seq, .ret, .alarm] s t := by
  intro t
  have hrecord := (moves_recordFault v .duplicateStation peer frame seqTag).other
  have hlisten' : (v.recordFault .duplicateStation peer frame seqTag).link.listenOnly = false := by
    change (v.link.record _ _ _ _ _).listenOnly = false
    rw [record_listenOnly, hlisten]
  have hmoves : LeavesOther [.link, .pumps, .claims, .seq, .ret] s
      (v.recordFault .duplicateStation peer frame seqTag).listenOnlyNow :=
    (hv.after hrecord (r := [.link]) (by decide) (by decide)).after (moves_listenOnlyNow _).other (by decide) (by decide)
  have hsilent := listenOnlyNow_link hlisten'
  have hlink : t.link = (v.recordFault .duplicateStation peer frame seqTag).link.silence := by
    change (s.finish _).link = _
    rw [finish_link, alarmsFollow_link_of_silent (by rw [hsilent]; rfl), hsilent]
  have hrest := finish_rest s _ hmoves.pending
  have hcounted : (v.link.record v.linkEnv .duplicateStation peer frame seqTag).duplicates =
      min 255 (s.link.duplicates + 1) := by rw [record_duplicates, hcount]
  have hfault : (v.link.record v.linkEnv .duplicateStation peer frame seqTag).fault.isSome = true :=
    record_fault _ _ _ _ _ _
  refine ⟨?_, ?_, ?_, ?_, ?_, ?_, ?_, ?_, ?_, (hrest.peers (by decide)).trans (hmoves.peers (by decide)),
    fun hrun => ?_, hmoves.after hrest (by decide) (by decide), finish_images s _, finish_outputs s _⟩
  · rw [hlink]; rfl
  · rw [hlink]; rfl
  · rw [hlink]; rfl
  · rw [hlink]; rfl
  · rw [hlink]; rfl
  · rw [hlink]; rfl
  · rw [hlink]; rfl
  · rw [hlink]; exact hcounted
  · rw [hlink]; exact hfault
  · have hsame : LeavesOther [.link] s (v.recordFault .duplicateStation peer frame seqTag) :=
      hv.after hrecord (by decide) (by decide)
    have hin : (v.recordFault .duplicateStation peer frame seqTag).inRun = true := by
      rw [inRun_iff, hsame.mode]
      exact hrun
    obtain ⟨hpumps, hsettle, hseq⟩ := listenOnlyNow_of_run hlisten' hin
    refine ⟨fun p => ?_, ?_, fun hrod => ?_⟩
    · have hchan : t.pumps = _ := (hrest.pumps (by decide)).trans hpumps
      rw [State.chan, hchan]
      cases p <;> exact ⟨rfl, rfl, rfl⟩
    · exact (congrArg ClaimUnit.settle (hrest.claims (by decide))).trans hsettle
    · rw [show t.seq = _ from hrest.seq (by decide), ← hsame.seq (by decide)]
      exact hseq (by rw [hsame.straps]; exact hrod)

end

end Sys2Proof.Machine

namespace Sys2Proof

open Machine Host

/-- Settles O16: both ways end in a recorded DUPLICATE_STATION and the entry to LISTEN_ONLY. -/
theorem duplicateStationSilencesTheStation : Obligations.DuplicateStationSilencesTheStation := by
  unfold Obligations.DuplicateStationSilencesTheStation
  rintro c s hp hlisten (⟨rfl, h, hand, hsending, hcollisions⟩ | ⟨bytes, f, rfl, hsend, hrx, hgood, hsource⟩)
  · have hcommand : exec .collision s = .next (s.finish ((s.onLink fun e => Link.collide e h).recordFault
        .duplicateStation (some s.straps.number) (some h.frame.kind) h.frame.seq).listenOnlyNow) := by
      have heffect : exec .collision s = .next (s.poweredDo fun s =>
        match s.link.inHand with
        | some h => if h.sending then s.collide h else s
        | none => s) := rfl
      rw [heffect, State.poweredDo, if_pos hp, hand]
      exact congrArg (fun w => Outcome.next (s.finish w)) ((if_pos hsending).trans (if_pos (by omega)))
    refine ⟨_, hcommand, silenced_outcome (moves_onLink s _ (by simp)).other ?_ ?_⟩
    · exact (collide_listenOnly _ h s.link).trans hlisten
    · exact collide_duplicates _ h s.link
  · let v : State := if s.link.lineBusy then s else s.onLink fun e => Link.goBusy e
    have hv : LeavesOther [.link] s v ∧ v.link.listenOnly = false ∧ v.link.duplicates = s.link.duplicates := by
      by_cases hbusy : s.link.lineBusy = true
      · rw [show v = s from if_pos hbusy]
        exact ⟨.refl _ s, hlisten, rfl⟩
      · rw [show v = s.onLink fun e => Link.goBusy e from if_neg hbusy]
        exact ⟨(moves_onLink s _ (by simp)).other, (goBusy_listenOnly _ _).trans hlisten, goBusy_duplicates _ s.link⟩
    obtain ⟨hother, hlisten', hcount⟩ := hv
    have hstraps : v.straps = s.straps := hother.straps
    have hreceived : s.frameReceived bytes = v.heardEnd.goodFrame f := by
      unfold State.frameReceived
      have hended : s.link.rx.ended = false := by obtain h | h := hrx <;> rw [h] <;> rfl
      rw [if_neg (by rw [hsend]; decide), if_neg (fun h => absurd h.2 (by rw [hended]; decide)), hgood]
      rfl
    have hcommand : exec (.frameReceived bytes) s = .next (s.finish (v.heardEnd.recordFault .duplicateStation
        (some v.straps.number) (some f.kind) (some f.seq)).listenOnlyNow) := by
      have heffect : exec (.frameReceived bytes) s = .next (s.poweredDo fun s => s.frameReceived bytes) := rfl
      rw [heffect, State.poweredDo, if_pos hp, hreceived]
      exact congrArg (fun w => Outcome.next (s.finish w)) (if_pos (by rw [hsource, ← hstraps]; rfl))
    refine ⟨_, hcommand, silenced_outcome (v := v.heardEnd) (hother.after (leavesOther_link v _) (by decide) (by decide))
      hlisten' hcount⟩

end Sys2Proof

namespace Sys2Proof.Machine

open Host

/-! ## Fields of bytes read back (R172) -/

theorem byteOf_value (n : Nat) : (byteOf n).toNat = n % 256 := BitVec.toNat_ofNat n 8

theorem natAt_length {l : List Byte} (r : List Byte) (i k : Nat) : natAt (l ++ r) (l.length + i) k = natAt r i k := by
  unfold natAt
  rw [List.drop_append, List.drop_of_length_le (Nat.le_add_right _ _), List.nil_append, Nat.add_sub_cancel_left]

theorem natAt_leBytes (k n : Nat) (r : List Byte) : natAt (leBytes k n ++ r) 0 k = n % 256 ^ k := by
  unfold natAt
  rw [List.drop_zero, List.take_append_of_le_length (leBytes_length k n).ge,
    List.take_of_length_le (leBytes_length k n).le, leNat_leBytes]

theorem byteAt_of {l : List Byte} {i n : Nat} (h : l[i]? = some (byteOf n)) (hn : n < 256) : byteAt l i = n := by
  unfold byteAt
  rw [h]
  exact (byteOf_value n).trans (Nat.mod_eq_of_lt hn)

theorem natAt_of {l : List Byte} {i k n : Nat} (h : (l.drop i).take k = leBytes k n) (hn : n < 256 ^ k) :
    natAt l i k = n := by
  unfold natAt
  rw [h, leNat_leBytes, Nat.mod_eq_of_lt hn]

/-! ## The check of a frame (R6) -/

theorem crcBit_lt {crc : Nat} (h : crc < 65536) : crcBit crc < 65536 := by
  unfold crcBit
  split
  · omega
  · exact Nat.xor_lt_two_pow (n := 16) (Nat.mod_lt _ (by decide)) (by decide)

theorem crcByte_lt {crc : Nat} (h : crc < 65536) {b : Nat} (hb : b < 256) : crcByte crc b < 65536 := by
  have hxor : crc ^^^ (b * 256) < 65536 := Nat.xor_lt_two_pow (n := 16) h (by omega)
  exact crcBit_lt <| crcBit_lt <| crcBit_lt <| crcBit_lt <| crcBit_lt <| crcBit_lt <| crcBit_lt <| crcBit_lt hxor

theorem crcOver_lt (bytes : List Byte) : ∀ {crc : Nat}, crc < 65536 → crcOver crc bytes < 65536 := by
  induction bytes with
  | nil => exact id
  | cons b rest ih =>
    intro crc h
    rw [crcOver_eq, List.foldl_cons, ← crcOver_eq]
    exact ih (crcByte_lt h b.isLt)

theorem crc16_lt (bytes : List Byte) : crc16 bytes < 65536 := crcOver_lt bytes (by decide)

/-! ## Codes read back -/

theorem startKind_ofCode_code (k : StartKind) : StartKind.ofCode k.code = k := by cases k <;> rfl

theorem startSource_ofCode_code (k : StartSource) : StartSource.ofCode k.code = k := by cases k <;> rfl

theorem jobState_ofCode_code (j : JobState) : JobState.ofCode j.code = some j := by cases j <;> rfl

theorem roles_ofCode_code (r : Roles) : Roles.ofCode r.code = r := by
  obtain ⟨p, h, o, c⟩ := r
  cases p <;> cases h <;> cases o <;> cases c <;> rfl

theorem holdRec_ofCode_code (r : HoldRec) : HoldRec.ofCode r.code = r := by
  obtain ⟨h, l, a⟩ := r
  cases h <;> cases l <;> cases a <;> rfl

theorem pumpState_ofCode_code (p : PumpState) : PumpState.ofCode p.code = some p := by cases p <;> rfl

theorem balState_ofCode_code (b : BalState) : BalState.ofCode b.code = some b := by cases b <;> rfl

theorem spinState_ofCode_code (k : SpinState) : SpinState.ofCode k.code = some k := by cases k <;> rfl

theorem spinKind_ofCode_code (k : SpinKind) : SpinKind.ofCode k.code = some k := by cases k <;> rfl

theorem opKind_ofCode_code (k : OpKind) : OpKind.ofCode k.code = some k := by cases k <;> rfl

theorem opResult_ofCode_code (r : OpResult) : OpResult.ofCode r.code = some r := by cases r <;> rfl

theorem stopCause_ofCode_code (c : StopCause) : StopCause.ofCode c.code = some c := by cases c <;> rfl

theorem seqShown_ofCode_code (q : SeqShown) : SeqShown.ofCode q.code = some q := by cases q <;> rfl

theorem eventKind_ofCode_code (k : RodEventKind) : RodEventKind.ofCode k.code = some k := by cases k <;> rfl

theorem place_ofCode_code (p : Place) : Place.ofCode p.code = some p := by cases p <;> rfl

theorem claimKind_ofCode_code (k : ClaimKind) : ClaimKind.ofCode k.code = some k := by cases k <;> rfl

theorem claimPhase_ofCode_code (p : ClaimPhase) : ClaimPhase.ofCode p.code = some p := by cases p <;> rfl

theorem frameKind_ofCode_code (k : FrameKind) : FrameKind.ofCode k.code = some k := by cases k <;> rfl

theorem bit_lt (b : Bool) : bit b < 2 := by cases b <;> decide

theorem bit_beq_one (b : Bool) : (bit b == 1) = b := by cases b <;> rfl

theorem roles_code_lt (r : Roles) : r.code < 16 := by
  have := bit_lt r.pump; have := bit_lt r.head; have := bit_lt r.rod; have := bit_lt r.record
  unfold Roles.code
  omega

theorem holdRec_code_lt (r : HoldRec) : r.code < 8 := by
  obtain ⟨h, l, a⟩ := r
  cases h <;> cases l <;> cases a <;> decide

theorem startKind_code_lt (k : StartKind) : k.code < 2 := by cases k <;> decide

theorem startSource_code_lt (k : StartSource) : k.code < 2 := by cases k <;> decide

theorem jobState_code_lt (j : JobState) : j.code < 4 := by cases j <;> decide

theorem pumpState_code_lt (p : PumpState) : p.code < 8 := by cases p <;> decide

theorem spinState_code_lt (k : SpinState) : k.code < 8 := by cases k <;> decide

theorem seqShown_code_lt (q : SeqShown) : q.code < 16 := by cases q <;> decide

theorem claimPhase_code_lt (p : ClaimPhase) : p.code < 4 := by cases p <;> decide

theorem claimKind_code_lt (k : ClaimKind) : k.code < 2 := by cases k <;> decide

theorem balState_code_lt (b : BalState) : b.code < 7 := by cases b <;> decide

theorem opResult_code_lt (r : OpResult) : r.code < 7 := by cases r <;> decide

theorem opKind_code_lt (k : OpKind) : k.code < 2 := by cases k <;> decide

theorem stopCause_code_lt (c : StopCause) : c.code < 15 := by cases c <;> decide

theorem spinKind_code_lt (k : SpinKind) : k.code < 255 := by cases k <;> decide

theorem place_code_lt (p : Place) : p.code < 255 := by cases p <;> decide

theorem frameKind_code_lt (k : FrameKind) : k.code < 256 := by cases k <;> decide

theorem eventKind_code_lt (k : RodEventKind) : k.code < 256 := by cases k <;> decide

/-! ## STROKES, HEAD, ROD_EVENT and CLAIM (section 11.3) -/

theorem decodeStrokes_encode {m : StrokesMsg} (h : m.Fits) : decodeStrokes (encodeStrokes m) = some m := by
  obtain ⟨hcount, hvolume, hspm⟩ := h
  have hpump : byteAt (encodeStrokes m) 0 = pumpCode m.pump :=
    (byteOf_value _).trans (Nat.mod_eq_of_lt (by cases m.pump <;> decide))
  have hnat : natAt (encodeStrokes m) 1 4 = m.count := (leNat_leBytes 4 _).trans (Nat.mod_eq_of_lt (by omega))
  have hvol : natAt (encodeStrokes m) 5 2 = m.volume := (leNat_leBytes 2 _).trans (Nat.mod_eq_of_lt (by omega))
  have hrate : byteAt (encodeStrokes m) 7 = m.spm := (byteOf_value _).trans (Nat.mod_eq_of_lt hspm)
  have hpresent : ¬((encodeStrokes m).length ≠ 8 ∨ natAt (encodeStrokes m) 5 2 = 65535) := by
    rw [hvol]
    rintro (hlen | hall)
    · exact hlen rfl
    · omega
  unfold decodeStrokes
  rw [if_neg hpresent, hpump, hnat, hvol, hrate, pumpOfCode_pumpCode]
  rfl

theorem decodeSpinKind_of {spin : SpinState} {kind : Option SpinKind} (h : kind = none ↔ spin = .idle) :
    decodeSpinKind spin ((kind.map (·.code)).getD 255) = some kind := by
  cases kind with
  | none => exact (if_pos rfl).trans (if_pos (h.mp rfl))
  | some k =>
    refine (if_neg (spinKind_code_lt k).ne).trans ?_
    change (SpinKind.ofCode k.code).map _ = _
    rw [spinKind_ofCode_code, Option.map_some, if_neg fun hidle => absurd (h.mpr hidle) (Option.some_ne_none k)]

theorem decodeHead_encode {m : HeadMsg} (h : m.Fits) : decodeHead (encodeHead m) = some m := by
  obtain ⟨hposition, ⟨hturns, hspins⟩, ⟨hrpm, hnumber⟩, howner, hkind⟩ := h
  have hown : m.owner.getD 31 < 32 := by
    cases ho : m.owner with
    | none => decide
    | some k => exact (howner k ho).trans (by decide)
  have hcode : (m.kind.map (·.code)).getD 255 < 256 := by
    cases m.kind with
    | none => decide
    | some k => exact (spinKind_code_lt k).trans (by decide)
  have hh : natAt (encodeHead m) 0 2 = m.h := (leNat_leBytes 2 _).trans (Nat.mod_eq_of_lt (by omega))
  have hflags : byteAt (encodeHead m) 2 = bit m.known + 2 * bit m.permit + 4 * m.spin.code := by
    have := bit_lt m.known; have := bit_lt m.permit; have := spinState_code_lt m.spin
    exact (byteOf_value _).trans (Nat.mod_eq_of_lt (by omega))
  have ht : natAt (encodeHead m) 3 4 = m.turns := (leNat_leBytes 4 _).trans (Nat.mod_eq_of_lt (by omega))
  have hs : natAt (encodeHead m) 7 4 = m.spinTurns := (leNat_leBytes 4 _).trans (Nat.mod_eq_of_lt (by omega))
  have hr : byteAt (encodeHead m) 11 = m.rpm := (byteOf_value _).trans (Nat.mod_eq_of_lt (by omega))
  have hn : byteAt (encodeHead m) 12 = m.number := (byteOf_value _).trans (Nat.mod_eq_of_lt hnumber)
  have ho : byteAt (encodeHead m) 13 = m.owner.getD 31 := (byteOf_value _).trans (Nat.mod_eq_of_lt (by omega))
  have hk : byteAt (encodeHead m) 14 = (m.kind.map (·.code)).getD 255 :=
    (byteOf_value _).trans (Nat.mod_eq_of_lt hcode)
  have hfields : field 0 1 (byteAt (encodeHead m) 2) = bit m.known ∧
      field 1 1 (byteAt (encodeHead m) 2) = bit m.permit ∧ field 2 3 (byteAt (encodeHead m) 2) = m.spin.code := by
    have := bit_lt m.known; have := bit_lt m.permit; have := spinState_code_lt m.spin
    rw [hflags]
    unfold field
    omega
  have hpresent : ¬((encodeHead m).length ≠ 15 ∨ natAt (encodeHead m) 0 2 = 65535 ∨ byteAt (encodeHead m) 11 = 255 ∨
      byteAt (encodeHead m) 13 = 255) := by
    rw [hh, hr, ho]
    rintro (hlen | hall | hall | hall)
    · exact hlen rfl
    all_goals omega
  have hownerRead : (if m.owner.getD 31 = 31 then none else some (m.owner.getD 31)) = m.owner := by
    cases ho : m.owner with
    | none => rfl
    | some k => exact if_neg (howner k ho).ne
  obtain ⟨hknown, hpermit, hspin⟩ := hfields
  unfold decodeHead
  rw [if_neg hpresent, hh, ht, hs, hr, hn, ho, hk, hknown, hpermit, hspin, spinState_ofCode_code]
  simp only [Option.bind_eq_bind, Option.bind_some, decodeSpinKind_of hkind, hownerRead, bit_beq_one]
  rfl

theorem decodePlace_of {kind : RodEventKind} {rod : Option Nat} {place : Option Place}
    (hother : kind ≠ .confirmed → place = none) (hconfirmed : kind = .confirmed → rod.isSome = true → place.isSome = true) :
    decodePlace kind rod ((place.map (·.code)).getD 255) = some place := by
  cases place with
  | none =>
    refine (if_pos rfl).trans (if_neg ?_)
    rintro ⟨hkind, hrod⟩
    exact absurd (hconfirmed hkind hrod) (by decide)
  | some p =>
    have hkind : kind = .confirmed := by
      by_contra hkind
      exact absurd (hother hkind) (Option.some_ne_none p)
    refine (if_neg (place_code_lt p).ne).trans ?_
    change (Place.ofCode p.code).map _ = _
    rw [place_ofCode_code, Option.map_some, if_pos hkind]

theorem decodeRodEvent_encode {m : RodEventMsg} (h : m.Fits) : decodeRodEvent (encodeRodEvent m) = some m := by
  obtain ⟨hnumber, hrod, hslot, ⟨hother, hconfirmed⟩, hfields, ⟨hcount, hlength⟩⟩ := h
  have hrodBound : m.rod.getD 65535 < 65536 := by
    cases ho : m.rod with
    | none => decide
    | some k => exact (hrod k ho).trans (by decide)
  have hslotBound : m.slot.getD 255 < 256 := by
    cases ho : m.slot with
    | none => decide
    | some k => exact (hslot k ho).trans (by decide)
  have hplaceBound : (m.place.map (·.code)).getD 255 < 256 := by
    cases m.place with
    | none => decide
    | some p => exact (place_code_lt p).trans (by decide)
  have hn : natAt (encodeRodEvent m) 0 2 = m.number := (leNat_leBytes 2 _).trans (Nat.mod_eq_of_lt (by omega))
  have hk : byteAt (encodeRodEvent m) 2 = m.kind.code :=
    (byteOf_value _).trans (Nat.mod_eq_of_lt (eventKind_code_lt _))
  have hr : natAt (encodeRodEvent m) 3 2 = m.rod.getD 65535 := (leNat_leBytes 2 _).trans (Nat.mod_eq_of_lt hrodBound)
  have hs : byteAt (encodeRodEvent m) 5 = m.slot.getD 255 := (byteOf_value _).trans (Nat.mod_eq_of_lt hslotBound)
  have hp : byteAt (encodeRodEvent m) 6 = (m.place.map (·.code)).getD 255 :=
    (byteOf_value _).trans (Nat.mod_eq_of_lt hplaceBound)
  have hc : byteAt (encodeRodEvent m) 7 = m.count := (byteOf_value _).trans (Nat.mod_eq_of_lt (by omega))
  have hl : natAt (encodeRodEvent m) 8 3 = m.length := (leNat_leBytes 3 _).trans (Nat.mod_eq_of_lt (by omega))
  have hh : field 0 3 (byteAt (encodeRodEvent m) 11) = m.hold.code := by
    have := holdRec_code_lt m.hold
    rw [show byteAt (encodeRodEvent m) 11 = m.hold.code from (byteOf_value _).trans (Nat.mod_eq_of_lt (by omega))]
    unfold field
    omega
  have hrodRead : (if m.rod.getD 65535 = 65535 then none else some (m.rod.getD 65535)) = m.rod := by
    cases ho : m.rod with
    | none => rfl
    | some k => exact if_neg (hrod k ho).ne
  have hslotRead : (if m.slot.getD 255 = 255 then none else some (m.slot.getD 255)) = m.slot := by
    cases ho : m.slot with
    | none => rfl
    | some k => exact if_neg (hslot k ho).ne
  have hpresent : ¬((encodeRodEvent m).length ≠ 12 ∨ byteAt (encodeRodEvent m) 7 = 255 ∨
      natAt (encodeRodEvent m) 8 3 = 16777215) := by
    rw [hc, hl]
    rintro (hlen | hall | hall)
    · exact hlen rfl
    all_goals omega
  unfold decodeRodEvent
  rw [if_neg hpresent, hn, hk, hr, hs, hp, hc, hl, hh, eventKind_ofCode_code, holdRec_ofCode_code]
  simp only [Option.bind_eq_bind, Option.bind_some, hrodRead, hslotRead, decodePlace_of hother hconfirmed,
    if_pos hfields]
  rfl

theorem decodeClaim_encode (c : Claim) : decodeClaim (encodeClaim c) = some c := by
  obtain ⟨kind, phase⟩ := c
  cases kind <;> cases phase <;> rfl

end Sys2Proof.Machine

namespace Sys2Proof

open Machine Host

/-- Settles O21: each byte of the header, the payload and the check stands where it is read. -/
theorem wireFrameIsAGoodFrame : Obligations.WireFrameIsAGoodFrame := by
  unfold Obligations.WireFrameIsAGoodFrame
  intro source f seq body hsource hsource' hdest hdest' hseq hlen hbody
  let head := [byteOf (if f.urgent then 0 else 1), byteOf source, byteOf f.dest, byteOf f.kind.code, byteOf seq,
    byteOf f.payload.length]
  have hwire : wireFrame source f seq = (head ++ f.payload) ++ leBytes 2 (crc16 (head ++ f.payload)) := rfl
  have hbyte : ∀ n, n < 256 → (byteOf n).toNat = n := fun n hn => (byteOf_value n).trans (Nat.mod_eq_of_lt hn)
  have h1 : byteAt (wireFrame source f seq) 1 = source := hbyte source (by omega)
  have h2 : byteAt (wireFrame source f seq) 2 = f.dest := hbyte f.dest (by omega)
  have h3 : byteAt (wireFrame source f seq) 3 = f.kind.code := hbyte f.kind.code (frameKind_code_lt f.kind)
  have h4 : byteAt (wireFrame source f seq) 4 = seq := hbyte seq hseq
  have h5 : byteAt (wireFrame source f seq) 5 = f.payload.length := hbyte f.payload.length (by omega)
  have hbodyLength : (head ++ f.payload).length = f.payload.length + 6 := by
    rw [List.length_append]
    exact Nat.add_comm 6 _
  have hlength : (wireFrame source f seq).length = f.payload.length + 8 := by
    rw [hwire, List.length_append, hbodyLength, leBytes_length]
  have htake : (wireFrame source f seq).take (f.payload.length + 6) = head ++ f.payload := by
    rw [hwire, ← hbodyLength, List.take_left]
  have hcheck : natAt (wireFrame source f seq) (f.payload.length + 6) 2 = crc16 (head ++ f.payload) := by
    rw [hwire, ← hbodyLength, ← Nat.add_zero (head ++ f.payload).length, natAt_length,
      ← List.append_nil (leBytes 2 _), natAt_leBytes]
    exact Nat.mod_eq_of_lt (crc16_lt _)
  have hpayload : ((wireFrame source f seq).drop 6).take f.payload.length = f.payload := by
    rw [hwire, List.append_assoc]
    exact List.take_left
  have hgood : ¬(byteAt (wireFrame source f seq) 5 > 40 ∨
      (wireFrame source f seq).length ≠ byteAt (wireFrame source f seq) 5 + 8 ∨
      natAt (wireFrame source f seq) (byteAt (wireFrame source f seq) 5 + 6) 2 ≠
        crc16 ((wireFrame source f seq).take (byteAt (wireFrame source f seq) 5 + 6)) ∨
      byteAt (wireFrame source f seq) 1 = 0 ∨ byteAt (wireFrame source f seq) 1 > 30 ∨
      byteAt (wireFrame source f seq) 2 = 0 ∨ byteAt (wireFrame source f seq) 2 > 31) := by
    rw [h5, hlength, hcheck, htake, h1, h2]
    omega
  unfold decodeFrame
  dsimp only
  rw [if_neg hgood, h1, h2, h3, h4, h5, hpayload, frameKind_ofCode_code]
  simp only [Option.bind_eq_bind, Option.bind_some, hbody]
  rfl

end Sys2Proof

namespace Sys2Proof.Machine

open Host

/-! ## STATUS (section 11.2) -/

theorem pumpBits_lt (p : PumpSummary) : p.bits < 32 := by
  have := pumpState_code_lt p.state; have := bit_lt p.fitted; have := bit_lt p.stopped
  unfold PumpSummary.bits
  omega

theorem pumpSummary_ofBits_bits (p : PumpSummary) : PumpSummary.ofBits p.bits p.target p.spm = some p := by
  have hfields : field 0 3 p.bits = p.state.code ∧ field 3 1 p.bits = bit p.fitted ∧
      field 4 1 p.bits = bit p.stopped := by
    have := pumpState_code_lt p.state; have := bit_lt p.fitted; have := bit_lt p.stopped
    unfold PumpSummary.bits field
    omega
  obtain ⟨hstate, hfitted, hstopped⟩ := hfields
  unfold PumpSummary.ofBits
  rw [hstate, hfitted, hstopped, pumpState_ofCode_code, bit_beq_one, bit_beq_one]
  rfl

theorem getD_lt {o : Option Nat} {n d : Nat} (hd : d < n) (h : ∀ v, o = some v → v < n) : o.getD d < n := by
  cases ho : o with
  | none => exact hd
  | some v => exact h v ho

/-- The numbers that STATUS spells its optional fields with, each in the room of its field. -/
structure StatusMsg.Codes (m : StatusMsg) : Prop where
  result : (m.lastOp.map (·.result.code)).getD 7 < 8
  kind : (m.lastOp.map (·.kind.code)).getD 1 < 2
  requester : (m.lastOp.bind (·.requester)).getD 31 < 32
  queued : (m.lastOp.bind (·.queued)).getD 4294967295 < 4294967296
  balance : (m.balance.map (·.state.code)).getD 7 < 8
  ret : (m.balance.bind (·.ret)).getD 31 < 32
  lost : (m.balance.map (·.lost)).getD 4294967295 < 4294967296
  gained : (m.balance.map (·.gained)).getD 4294967295 < 4294967296
  step : m.step.getD 15 < 16
  cause : (m.cause.map (·.code)).getD 15 < 16
  count : (m.headEntry.map (·.count)).getD 63 < 64
  head : (m.headEntry.map (·.requester)).getD 31 < 32
  unitKind : (m.unitKind.map (·.code)).getD 1 < 2

theorem StatusMsg.Fits.codes {m : StatusMsg} (h : m.Fits) : m.Codes := by
  obtain ⟨-, -, hop, hbal, ⟨-, -, hstep⟩, -, -, -, hhead, -, -, -⟩ := h
  constructor
  · cases m.lastOp with
    | none => decide
    | some o => exact (opResult_code_lt o.result).trans (by decide)
  · cases m.lastOp with
    | none => decide
    | some o => exact opKind_code_lt o.kind
  · refine getD_lt (by decide) fun v hv => ?_
    obtain ⟨o, ho, hr⟩ := Option.bind_eq_some_iff.mp hv
    exact ((hop o ho).2.1 v hr).trans (by decide)
  · refine getD_lt (by decide) fun v hv => ?_
    obtain ⟨o, ho, hq⟩ := Option.bind_eq_some_iff.mp hv
    exact (hop o ho).2.2 v hq
  · cases m.balance with
    | none => decide
    | some b => exact (balState_code_lt b.state).trans (by decide)
  · refine getD_lt (by decide) fun v hv => ?_
    obtain ⟨b, hb, hr⟩ := Option.bind_eq_some_iff.mp hv
    exact ((hbal b hb).1 v hr).trans (by decide)
  · refine getD_lt (by decide) fun v hv => ?_
    obtain ⟨b, hb, rfl⟩ := Option.map_eq_some_iff.mp hv
    exact (hbal b hb).2.1
  · refine getD_lt (by decide) fun v hv => ?_
    obtain ⟨b, hb, rfl⟩ := Option.map_eq_some_iff.mp hv
    exact (hbal b hb).2.2
  · exact getD_lt (by decide) fun v hv => (hstep v hv).trans (by decide)
  · cases m.cause with
    | none => decide
    | some c => exact (stopCause_code_lt c).trans (by decide)
  · refine getD_lt (by decide) fun v hv => ?_
    obtain ⟨e, he, rfl⟩ := Option.map_eq_some_iff.mp hv
    exact (hhead e he).1.trans (by decide)
  · refine getD_lt (by decide) fun v hv => ?_
    obtain ⟨e, he, rfl⟩ := Option.map_eq_some_iff.mp hv
    exact (hhead e he).2.trans (by decide)
  · cases m.unitKind with
    | none => decide
    | some k => exact opKind_code_lt k

theorem decodeLastOp_encode {m : StatusMsg} {p : List Byte}
    (hop : ∀ o, m.lastOp = some o →
      o.requester.isSome = o.queued.isSome ∧ (∀ r, o.requester = some r → r < 31) ∧
        ∀ q, o.queued = some q → q < 4294967296)
    (hresult : field 5 3 (byteAt p 3) = (m.lastOp.map (·.result.code)).getD 7)
    (hrequester : field 11 5 (natAt p 11 3) = (m.lastOp.bind (·.requester)).getD 31)
    (hkind : field 15 1 (natAt p 38 2) = (m.lastOp.map (·.kind.code)).getD 1)
    (hqueued : natAt p 14 4 = (m.lastOp.bind (·.queued)).getD 4294967295) : decodeLastOp p = some m.lastOp := by
  unfold decodeLastOp
  dsimp only
  rw [hresult, hrequester, hkind, hqueued]
  cases ho : m.lastOp with
  | none => rfl
  | some o =>
    obtain ⟨hboth, hr, -⟩ := hop o ho
    obtain ⟨kind, result, requester, queued⟩ := o
    refine (if_neg (opResult_code_lt result).ne).trans ?_
    change (match OpResult.ofCode result.code, OpKind.ofCode kind.code with
      | some r, some k => _
      | _, _ => _) = _
    rw [opResult_ofCode_code, opKind_ofCode_code]
    cases requester with
    | none =>
      cases queued with
      | none => rfl
      | some q => exact absurd hboth Bool.false_ne_true
    | some r =>
      cases queued with
      | none => exact absurd hboth.symm Bool.false_ne_true
      | some q => exact if_neg (hr r rfl).ne

theorem decodeBalance_encode {m : StatusMsg} {p : List Byte}
    (hbal : ∀ b, m.balance = some b →
      (∀ r, b.ret = some r → r < 31) ∧ b.lost < 4294967296 ∧ b.gained < 4294967296)
    (hstate : field 5 3 (byteAt p 6) = (m.balance.map (·.state.code)).getD 7)
    (hret : field 16 5 (natAt p 11 3) = (m.balance.bind (·.ret)).getD 31)
    (hlost : natAt p 24 4 = (m.balance.map (·.lost)).getD 4294967295)
    (hgained : natAt p 28 4 = (m.balance.map (·.gained)).getD 4294967295) : decodeBalance p = some m.balance := by
  unfold decodeBalance
  dsimp only
  rw [hstate, hret, hlost, hgained]
  cases hb : m.balance with
  | none => rfl
  | some b =>
    obtain ⟨hr, -, -⟩ := hbal b hb
    obtain ⟨state, ret, lost, gained⟩ := b
    refine (if_neg (balState_code_lt state).ne).trans ?_
    change (BalState.ofCode state.code).map _ = _
    rw [balState_ofCode_code, Option.map_some]
    cases ret with
    | none => rfl
    | some r =>
      have hread : (if r = 31 then none else some r) = some r := if_neg (hr r rfl).ne
      exact congrArg (fun ret => some (some (BalanceFigures.mk state ret lost gained))) hread

theorem decodeStep_encode {seq : SeqShown} {step : Option Nat}
    (h : (seq = .idle → step = none) ∧ (seq ≠ .idle → seq ≠ .hold → step.isSome = true) ∧
      ∀ n, step = some n → n < 15) : decodeStep seq (step.getD 15) = some step := by
  obtain ⟨hidle, hrunning, hbound⟩ := h
  unfold decodeStep
  by_cases hseq : seq = .idle
  · rw [if_pos hseq, hidle hseq]
  · rw [if_neg hseq]
    cases step with
    | none =>
      have hhold : seq = .hold := by
        by_contra hhold
        exact absurd (hrunning hseq hhold) (by decide)
      exact (if_pos rfl).trans (if_pos hhold)
    | some n => exact if_neg (hbound n rfl).ne

theorem decodeCause_encode {seq : SeqShown} {cause : Option StopCause}
    (h : cause.isSome = true ↔ seq = .hold ∨ seq = .fault) :
    decodeCause seq ((cause.map (·.code)).getD 15) = some cause := by
  unfold decodeCause
  cases cause with
  | none => exact (if_neg fun hstop => absurd (h.mpr hstop) (by decide)).trans (if_pos (.inl rfl))
  | some c =>
    refine (if_pos (h.mp rfl)).trans ?_
    change (StopCause.ofCode c.code).map some = _
    rw [stopCause_ofCode_code, Option.map_some]

theorem decodeHeadEntry_encode {entries : Nat} {head : Option HeadEntry}
    (hentries : entries < 15 ∧ (head = none ↔ entries = 0)) (hhead : ∀ e, head = some e → e.count < 63 ∧ e.requester < 31) :
    decodeHeadEntry entries ((head.map (·.count)).getD 63) ((head.map (·.requester)).getD 31) = some head := by
  obtain ⟨hbound, hnone⟩ := hentries
  unfold decodeHeadEntry
  cases head with
  | none => exact if_pos (hnone.mp rfl)
  | some e =>
    obtain ⟨hcount, hrequester⟩ := hhead e rfl
    refine (if_neg fun hzero => absurd (hnone.mpr hzero) (Option.some_ne_none e)).trans (if_neg ?_)
    rintro (hall | hall | hall)
    · omega
    · exact absurd hall hcount.ne
    · exact absurd hall hrequester.ne

section
variable {m : StatusMsg} (hc : m.Codes)
include hc

theorem encodeStatus_bits11 :
    field 0 6 m.bits11 = (m.headEntry.map (·.count)).getD 63 ∧
    field 6 5 m.bits11 = (m.headEntry.map (·.requester)).getD 31 ∧
    field 11 5 m.bits11 = (m.lastOp.bind (·.requester)).getD 31 ∧
    field 16 5 m.bits11 = (m.balance.bind (·.ret)).getD 31 ∧
    field 21 2 m.bits11 = m.claim.phase.code ∧ field 23 1 m.bits11 = m.claim.kind.code ∧ m.bits11 < 16777216 := by
  have hcount := hc.count
  have hhead := hc.head
  have hrequester := hc.requester
  have hret := hc.ret
  have hphase := claimPhase_code_lt m.claim.phase
  have hkind := claimKind_code_lt m.claim.kind
  unfold StatusMsg.bits11
  generalize (m.headEntry.map (·.count)).getD 63 = a at *
  generalize (m.headEntry.map (·.requester)).getD 31 = b at *
  generalize (m.lastOp.bind (·.requester)).getD 31 = c at *
  generalize (m.balance.bind (·.ret)).getD 31 = d at *
  unfold field
  omega

end

section
variable {m : StatusMsg} (hc : m.Codes)
include hc

omit hc in
/-- The first byte's roles, start kind and source, and job state. -/
theorem encodeStatus_byte0 :
    field 0 4 (byteAt (encodeStatus m) 0) = m.roles.code ∧ field 4 1 (byteAt (encodeStatus m) 0) = m.startKind.code ∧
    field 5 1 (byteAt (encodeStatus m) 0) = m.startSource.code ∧
    field 6 2 (byteAt (encodeStatus m) 0) = m.job.code := by
  have hroles := roles_code_lt m.roles
  have hkind := startKind_code_lt m.startKind
  have hsource := startSource_code_lt m.startSource
  have hjob := jobState_code_lt m.job
  have hread : byteAt (encodeStatus m) 0 =
      m.roles.code + 16 * m.startKind.code + 32 * m.startSource.code + 64 * m.job.code := byteAt_of rfl (by omega)
  rw [hread]
  unfold field
  omega

/-- The pump summaries with the last-op result and the balance state. -/
theorem encodeStatus_pumps (h : m.Fits) :
    field 0 5 (byteAt (encodeStatus m) 3) = m.pumpA.bits ∧
    field 5 3 (byteAt (encodeStatus m) 3) = (m.lastOp.map (·.result.code)).getD 7 ∧
    byteAt (encodeStatus m) 4 = m.pumpA.target ∧ byteAt (encodeStatus m) 5 = m.pumpA.spm ∧
    field 0 5 (byteAt (encodeStatus m) 6) = m.pumpB.bits ∧
    field 5 3 (byteAt (encodeStatus m) 6) = (m.balance.map (·.state.code)).getD 7 ∧
    byteAt (encodeStatus m) 7 = m.pumpB.target ∧ byteAt (encodeStatus m) 8 = m.pumpB.spm := by
  obtain ⟨⟨hta, hsa⟩, ⟨htb, hsb⟩⟩ := h.pumps
  have ha := pumpBits_lt m.pumpA
  have hb := pumpBits_lt m.pumpB
  have hresult := hc.result
  have hbalance := hc.balance
  have h3 : byteAt (encodeStatus m) 3 = m.pumpA.bits + 32 * (m.lastOp.map (·.result.code)).getD 7 :=
    byteAt_of rfl (by omega)
  have h6 : byteAt (encodeStatus m) 6 = m.pumpB.bits + 32 * (m.balance.map (·.state.code)).getD 7 :=
    byteAt_of rfl (by omega)
  refine ⟨?_, ?_, byteAt_of rfl (by omega), byteAt_of rfl hsa, ?_, ?_, byteAt_of rfl (by omega), byteAt_of rfl hsb⟩
  · rw [h3]; unfold field; omega
  · rw [h3]; unfold field; omega
  · rw [h6]; unfold field; omega
  · rw [h6]; unfold field; omega

/-- The sequencer's state and step, the cause, and the number of entries. -/
theorem encodeStatus_sequencer (h : m.Fits) :
    field 0 4 (byteAt (encodeStatus m) 9) = m.seq.code ∧ field 4 4 (byteAt (encodeStatus m) 9) = m.step.getD 15 ∧
    field 0 4 (byteAt (encodeStatus m) 10) = (m.cause.map (·.code)).getD 15 ∧
    field 4 4 (byteAt (encodeStatus m) 10) = m.entries ∧ natAt (encodeStatus m) 11 3 = m.bits11 := by
  have hseq := seqShown_code_lt m.seq
  have hstep := hc.step
  have hcause := hc.cause
  have hentries := h.entries.1
  have h9 : byteAt (encodeStatus m) 9 = m.seq.code + 16 * m.step.getD 15 := byteAt_of rfl (by omega)
  have h10 : byteAt (encodeStatus m) 10 = (m.cause.map (·.code)).getD 15 + 16 * m.entries := byteAt_of rfl (by omega)
  refine ⟨?_, ?_, ?_, ?_, natAt_of rfl (encodeStatus_bits11 hc).2.2.2.2.2.2⟩
  · rw [h9]; unfold field; omega
  · rw [h9]; unfold field; omega
  · rw [h10]; unfold field; omega
  · rw [h10]; unfold field; omega

/-- The last-op time, the string and the hold record. -/
theorem encodeStatus_string (h : m.Fits) :
    natAt (encodeStatus m) 1 2 = m.digest ∧
    natAt (encodeStatus m) 14 4 = (m.lastOp.bind (·.queued)).getD 4294967295 ∧
    natAt (encodeStatus m) 18 2 = m.eventNo ∧ byteAt (encodeStatus m) 20 = m.stringCount ∧
    field 0 21 (natAt (encodeStatus m) 21 3) = m.stringLength ∧
    field 21 3 (natAt (encodeStatus m) 21 3) = m.hold.code := by
  obtain ⟨hevent, hcount, hlength⟩ := h.string
  have hhold := holdRec_code_lt m.hold
  have h21 : natAt (encodeStatus m) 21 3 = m.stringLength + 2 ^ 21 * m.hold.code := natAt_of rfl (by omega)
  refine ⟨natAt_of rfl h.digest, natAt_of rfl hc.queued, natAt_of rfl hevent, byteAt_of rfl (by omega), ?_, ?_⟩
  · rw [h21]; unfold field; omega
  · rw [h21]; unfold field; omega

/-- The totals, the alarm flags, and the unit and last-op kinds beside them. -/
theorem encodeStatus_totals (h : m.Fits) :
    natAt (encodeStatus m) 24 4 = (m.balance.map (·.lost)).getD 4294967295 ∧
    natAt (encodeStatus m) 28 4 = (m.balance.map (·.gained)).getD 4294967295 ∧
    natAt (encodeStatus m) 32 4 = m.water ∧
    field 0 15 (natAt (encodeStatus m) 36 2) = m.active ∧
    field 15 1 (natAt (encodeStatus m) 36 2) = (m.unitKind.map (·.code)).getD 1 ∧
    field 0 15 (natAt (encodeStatus m) 38 2) = m.pending ∧
    field 15 1 (natAt (encodeStatus m) 38 2) = (m.lastOp.map (·.kind.code)).getD 1 := by
  obtain ⟨hactive, hpending⟩ := h.alarms
  have hunit := hc.unitKind
  have hkind := hc.kind
  have h36 : natAt (encodeStatus m) 36 2 = m.active + 2 ^ 15 * (m.unitKind.map (·.code)).getD 1 :=
    natAt_of rfl (by omega)
  have h38 : natAt (encodeStatus m) 38 2 = m.pending + 2 ^ 15 * (m.lastOp.map (·.kind.code)).getD 1 :=
    natAt_of rfl (by omega)
  refine ⟨natAt_of rfl hc.lost, natAt_of rfl hc.gained, natAt_of rfl h.water, ?_, ?_, ?_, ?_⟩
  · rw [h36]; unfold field; omega
  · rw [h36]; unfold field; omega
  · rw [h38]; unfold field; omega
  · rw [h38]; unfold field; omega

end

theorem encodeStatus_length (m : StatusMsg) : (encodeStatus m).length = 40 := rfl

theorem unitKind_read {step : Option Nat} {unitKind : Option OpKind} (h : unitKind.isSome = step.isSome) :
    ∃ k, OpKind.ofCode ((unitKind.map (·.code)).getD 1) = some k ∧ (if step.isSome then some k else none) = unitKind := by
  cases unitKind with
  | none => exact ⟨.breakOut, rfl, if_neg (by rw [← h]; decide)⟩
  | some k => exact ⟨k, opKind_ofCode_code k, if_pos h.symm⟩

theorem decodeStatus_encode {m : StatusMsg} (h : m.Fits) : decodeStatus (encodeStatus m) = some m := by
  have hc := h.codes
  obtain ⟨hcount6, hhead5, hrequester, hret, hphase, hkind, -⟩ := encodeStatus_bits11 hc
  obtain ⟨hroles, hstart, hsource, hjob⟩ := encodeStatus_byte0 (m := m)
  obtain ⟨hbitsA, hresult, htargetA, hspmA, hbitsB, hstate, htargetB, hspmB⟩ := encodeStatus_pumps hc h
  obtain ⟨hseq, hstep, hcause, hentries, hb11⟩ := encodeStatus_sequencer hc h
  obtain ⟨hdigest, hqueued, hevent, hcount, hlength, hhold⟩ := encodeStatus_string hc h
  obtain ⟨hlost, hgained, hwater, hactive, hunit, hpending, hlastKind⟩ := encodeStatus_totals hc h
  obtain ⟨⟨hta, -⟩, ⟨htb, -⟩⟩ := h.pumps
  obtain ⟨-, hcountBound, hlengthBound⟩ := h.string
  rw [← hb11] at hcount6 hhead5 hrequester hret hphase hkind
  obtain ⟨unitKind, hunitCode, hunitRead⟩ := unitKind_read h.unitKind
  have hpresent : ¬((encodeStatus m).length ≠ 40 ∨ byteAt (encodeStatus m) 4 = 255 ∨ byteAt (encodeStatus m) 7 = 255 ∨
      byteAt (encodeStatus m) 20 = 255 ∨ field 0 21 (natAt (encodeStatus m) 21 3) = 2097151) := by
    rw [encodeStatus_length, htargetA, htargetB, hcount, hlength]
    omega
  have hlastOp := decodeLastOp_encode h.lastOp hresult hrequester hlastKind hqueued
  have hbalance := decodeBalance_encode h.balance hstate hret hlost hgained
  unfold decodeStatus
  rw [if_neg hpresent, hlastOp, hbalance, hjob, hbitsA, htargetA, hspmA, hbitsB, htargetB, hspmB, hseq, hstep, hcause,
    hentries, hcount6, hhead5, hphase, hkind, hunit, hroles, hstart, hsource, hdigest, hevent, hcount, hlength, hhold,
    hwater, hactive, hpending, pumpSummary_ofBits_bits, pumpSummary_ofBits_bits, jobState_ofCode_code,
    seqShown_ofCode_code, claimPhase_ofCode_code, claimKind_ofCode_code, hunitCode, roles_ofCode_code,
    startKind_ofCode_code, startSource_ofCode_code, holdRec_ofCode_code]
  simp only [Option.bind_eq_bind, Option.bind_some, decodeStep_encode h.step, decodeCause_encode h.cause,
    decodeHeadEntry_encode h.entries h.headEntry, hunitRead]
  rfl

end Sys2Proof.Machine

namespace Sys2Proof

open Machine Host

/-- Settles O20: each payload kind's fields are read where they were written. -/
theorem payloadsReadBack : Obligations.PayloadsReadBack := by
  unfold Obligations.PayloadsReadBack
  exact ⟨fun m h => ⟨encodeStatus_length m, decodeStatus_encode h⟩, fun _ => decodeStrokes_encode,
    fun _ => decodeHead_encode, fun _ => decodeRodEvent_encode, decodeClaim_encode⟩

end Sys2Proof

namespace Sys2Proof.Machine

open Host

/-! ## Bytes of records (sections 11.5 and 11.6) -/

theorem natAt_spelled {l : List Byte} {i k n : Nat} (h : (l.drop i).take k = leBytes k n) :
    natAt l i k = n % 256 ^ k := by
  unfold natAt
  rw [h, leNat_leBytes]

theorem natAt_option {l : List Byte} {i k : Nat} {v : Option Nat} (h : (l.drop i).take k = leOption k v) :
    natAt l i k = (v.map (· % 256 ^ k)).getD (256 ^ k - 1) := by
  refine (natAt_spelled h).trans ?_
  cases v with
  | none => exact Nat.mod_eq_of_lt (Nat.sub_lt (Nat.pow_pos (by decide)) (by decide))
  | some n => rfl

theorem natAt_byte {l : List Byte} {i n : Nat} (h : (l.drop i).take 1 = [byteOf n]) (hn : n < 256) : natAt l i 1 = n :=
  (natAt_spelled (h.trans rfl)).trans (Nat.mod_eq_of_lt hn)

theorem natAt_literal {l : List Byte} {i : Nat} {b : Byte} (h : (l.drop i).take 1 = [b]) : natAt l i 1 = b.toNat := by
  unfold natAt
  rw [h]
  exact Nat.add_zero _

/-- Numbers spelled one after another. -/
theorem natAt_each {n : Nat} (r : List Byte) (l : List Nat) : ∀ {k : Nat}, k < l.length →
    natAt (l.flatMap (leBytes n) ++ r) (n * k) n = l.getD k 0 % 256 ^ n := by
  induction l with
  | nil => intro k hk; exact absurd hk (Nat.not_lt_zero k)
  | cons a rest ih =>
    intro k hk
    rw [List.flatMap_cons, List.append_assoc]
    cases k with
    | zero => exact natAt_leBytes n a _
    | succ k =>
      have hskip : n * (k + 1) = (leBytes n a).length + n * k := by rw [leBytes_length, Nat.mul_succ, Nat.add_comm]
      rw [hskip, natAt_length, ih (Nat.lt_of_succ_lt_succ hk)]
      rfl

theorem natAt_each_after {n : Nat} (p r : List Byte) {l : List Nat} {k : Nat} (hk : k < l.length) :
    natAt (p ++ (l.flatMap (leBytes n) ++ r)) (p.length + n * k) n = l.getD k 0 % 256 ^ n := by
  rw [natAt_length, natAt_each r l hk]

theorem exists_of_length_eight {α : Type} {l : List α} (h : l.length = 8) :
    ∃ a b c d e f g i, l = [a, b, c, d, e, f, g, i] :=
  match l, h with
  | [a, b, c, d, e, f, g, i], _ => ⟨a, b, c, d, e, f, g, i, rfl⟩

theorem exists_of_length_four {α : Type} {l : List α} (h : l.length = 4) : ∃ a b c d, l = [a, b, c, d] :=
  match l, h with
  | [a, b, c, d], _ => ⟨a, b, c, d, rfl⟩

theorem intervalFlags_code_eq (f : IntervalFlags) :
    f.code = (if f.inLoss then 1 else 0) + (if f.totalLoss then 2 else 0) + (if f.water then 4 else 0) +
      (if f.gap then 8 else 0) + (if f.coarse then 16 else 0) + (if f.afterWarm then 32 else 0) +
      if f.depthUnsure then 64 else 0 := by
  unfold IntervalFlags.code
  simp only [mul_bit]
  rfl

theorem intervalFlags_code_lt (f : IntervalFlags) : f.code < 256 := by
  have := bit_lt f.inLoss; have := bit_lt f.totalLoss; have := bit_lt f.water; have := bit_lt f.gap
  have := bit_lt f.coarse; have := bit_lt f.afterWarm; have := bit_lt f.depthUnsure
  unfold IntervalFlags.code
  omega

theorem sampleState_code_lt (p : SampleState) : p.code < 8 := by cases p <;> decide

theorem descSource_code_lt (d : Option DescSource) : (d.map (·.code)).getD 3 < 4 := by
  cases d with
  | none => decide
  | some k => cases k <;> decide

theorem natAt_interval_sample {iv : Interval} (hcls : iv.cls.getD 7 < 8) :
    natAt iv.data 26 1 =
      (match iv.sample with
        | .none => 0
        | .inTransit => 1
        | .surfaced => 2
        | .lost => 3
        | .untracked => 4) + 8 * iv.cls.getD 7 +
        (match iv.source with
        | some .driller => 0
        | some .sample => 64
        | none => 192) := by
  have hsample := sampleState_code_lt iv.sample
  have hsource := descSource_code_lt iv.source
  refine (natAt_byte (n := iv.sample.code + 8 * iv.cls.getD 7 + 64 * (iv.source.map (·.code)).getD 3) rfl
    (by omega)).trans ?_
  have hsampleCode : iv.sample.code =
      (match iv.sample with
        | .none => 0
        | .inTransit => 1
        | .surfaced => 2
        | .lost => 3
        | .untracked => 4) := by cases iv.sample <;> rfl
  have hsourceCode : 64 * (iv.source.map (·.code)).getD 3 =
      (match iv.source with
        | some .driller => 0
        | some .sample => 64
        | none => 192) := by
    obtain _ | k := iv.source
    · rfl
    · cases k <;> rfl
  exact congrArg₂ (fun a b => a + 8 * iv.cls.getD 7 + b) hsampleCode hsourceCode

theorem interval_head (iv : Interval) :
    let opt := fun (i n : Nat) (v : Option Nat) => natAt iv.data i n = (v.map (· % 256 ^ n)).getD (256 ^ n - 1)
    natAt iv.data 0 2 = iv.index % 65536 ∧ opt 2 4 iv.closedTime ∧ natAt iv.data 6 2 = iv.seconds % 65536 ∧
      natAt iv.data 8 4 = iv.turns % 4294967296 ∧ opt 12 3 iv.rop ∧ opt 15 2 iv.meanRpm := by
  have hclosed : (iv.data.drop 2).take 4 = leOption 4 iv.closedTime := rfl
  have hrop : (iv.data.drop 12).take 3 = leOption 3 iv.rop := rfl
  have hrpm : (iv.data.drop 15).take 2 = leOption 2 iv.meanRpm := rfl
  exact ⟨natAt_spelled rfl, natAt_option hclosed, natAt_spelled rfl, natAt_spelled rfl, natAt_option hrop,
    natAt_option hrpm⟩

theorem interval_middle (iv : Interval) :
    natAt iv.data 17 4 = iv.loss % 4294967296 ∧ natAt iv.data 21 4 = iv.gain % 4294967296 ∧
      natAt iv.data 25 1 = iv.flags.code := by
  have hloss : (iv.data.drop 17).take 4 = leBytes 4 iv.loss := rfl
  have hgain : (iv.data.drop 21).take 4 = leBytes 4 iv.gain := rfl
  have hflags : (iv.data.drop 25).take 1 = [byteOf iv.flags.code] := rfl
  exact ⟨natAt_spelled hloss, natAt_spelled hgain, natAt_byte hflags (intervalFlags_code_lt iv.flags)⟩

/-- The fields of an interval record behind its first 27 bytes. -/
theorem interval_tail (iv : Interval) :
    let opt := fun (i n : Nat) (v : Option Nat) => natAt iv.data i n = (v.map (· % 256 ^ n)).getD (256 ^ n - 1)
    opt 27 1 iv.lithology ∧ opt 28 4 iv.sampleTime ∧ opt 32 4 iv.provisional ∧ opt 36 4 iv.current := by
  intro opt
  let first := leBytes 2 iv.index ++ leOption 4 iv.closedTime ++ leBytes 2 iv.seconds ++ leBytes 4 iv.turns ++
    leOption 3 iv.rop ++ leOption 2 iv.meanRpm ++ leBytes 4 iv.loss ++ leBytes 4 iv.gain ++
    [byteOf iv.flags.code,
     byteOf (iv.sample.code + 8 * iv.cls.getD 7 + 64 * (iv.source.map (·.code)).getD 3)]
  let tail := leOption 1 iv.lithology ++ leOption 4 iv.sampleTime ++ leOption 4 iv.provisional ++ leOption 4 iv.current
  have hdata : iv.data = first ++ tail := by
    unfold Interval.data
    simp only [first, tail, List.append_assoc]
  have hlength : first.length = 27 := rfl
  have hskip : ∀ i k, natAt iv.data (27 + i) k = natAt tail i k := fun i k => by
    rw [hdata, ← hlength, natAt_length]
  exact ⟨(hskip 0 1).trans (natAt_option rfl), (hskip 1 4).trans (natAt_option rfl),
    (hskip 5 4).trans (natAt_option rfl), (hskip 9 4).trans (natAt_option rfl)⟩

theorem interval_layout (iv : Interval) :
    let d := iv.data
    let opt := fun (i n : Nat) (v : Option Nat) => natAt d i n = (v.map (· % 256 ^ n)).getD (256 ^ n - 1)
    let flag := fun (b : Bool) (n : Nat) => if b then n else 0
    d.length = 40 ∧ natAt d 0 2 = iv.index % 65536 ∧ opt 2 4 iv.closedTime ∧ natAt d 6 2 = iv.seconds % 65536 ∧
      natAt d 8 4 = iv.turns % 4294967296 ∧ opt 12 3 iv.rop ∧ opt 15 2 iv.meanRpm ∧
      natAt d 17 4 = iv.loss % 4294967296 ∧ natAt d 21 4 = iv.gain % 4294967296 ∧
      natAt d 25 1 = flag iv.flags.inLoss 1 + flag iv.flags.totalLoss 2 + flag iv.flags.water 4 +
        flag iv.flags.gap 8 + flag iv.flags.coarse 16 + flag iv.flags.afterWarm 32 + flag iv.flags.depthUnsure 64 ∧
      (iv.cls.getD 7 < 8 → natAt d 26 1 =
        (match iv.sample with
          | .none => 0
          | .inTransit => 1
          | .surfaced => 2
          | .lost => 3
          | .untracked => 4) + 8 * iv.cls.getD 7 +
          (match iv.source with
          | some .driller => 0
          | some .sample => 64
          | none => 192)) ∧
      opt 27 1 iv.lithology ∧ opt 28 4 iv.sampleTime ∧ opt 32 4 iv.provisional ∧ opt 36 4 iv.current := by
  intro d opt flag
  obtain ⟨hlithology, hsample, hprovisional, hcurrent⟩ := interval_tail iv
  obtain ⟨hindex, hclosed, hseconds, hturns, hrop, hrpm⟩ := interval_head iv
  obtain ⟨hloss, hgain, hflags⟩ := interval_middle iv
  exact ⟨rfl, hindex, hclosed, hseconds, hturns, hrop, hrpm, hloss, hgain, hflags.trans (intervalFlags_code_eq iv.flags),
    natAt_interval_sample, hlithology, hsample, hprovisional, hcurrent⟩

theorem markKind_code_lt (k : MarkKind) : k.code < 256 := by cases k <;> decide

theorem zoneKind_code_lt (k : ZoneKind) : k.code < 256 := by cases k <;> decide

theorem natAt_zone_open (s : State) (position : Nat) {kind : ZoneKind} {top opened volume : Nat}
    {bottom closed : Option Nat} :
    natAt (s.zoneData position (.zone kind top bottom opened closed volume)) 5 1 = if bottom = none then 1 else 0 := by
  refine (natAt_byte (n := bit bottom.isNone) rfl ((bit_lt _).trans (by decide))).trans ?_
  cases bottom <;> rfl

/-! ## The statement (R163) -/

section
variable (s : State)

theorem statementData_zero :
    s.statementData 0 = [byteOf (bit (s.ret.job == .closed))] ++ (leBytes 2 s.statement.jobNumber ++
      [byteOf (s.statement.job.code + 4 * s.statement.close.code + 16 * (s.statement.closeKind.map (·.code)).getD 3 +
        64 * bit s.statement.down)] ++
      leBytes 2 s.statement.closingSeconds ++ leBytes 4 s.statement.jobTime ++
      s.statement.meters.flatMap (leBytes 4) ++ leBytes 4 s.statement.unsure) := rfl

theorem statementData_one :
    s.statementData 1 = [byteOf (bit (s.ret.job == .closed))] ++ (s.statement.timeCharges.flatMap (leBytes 4) ++
      leBytes 4 (moneySum s.statement.timeCharges)) := rfl

theorem statementData_three :
    s.statementData 3 = [byteOf (bit (s.ret.job == .closed))] ++ (s.statement.units.flatMap (leBytes 4) ++
      leBytes 4 s.statement.additiveCharge ++ leBytes 4 s.statement.billedWater ++
      leBytes 4 s.statement.waterCharge ++ s.statement.retirements.flatMap (leBytes 2) ++
      leBytes 4 s.statement.retirementCharge ++ leBytes 4 s.statement.total ++ leBytes 4 s.statement.ceiling ++
      [byteOf (bit s.statement.near + 2 * bit s.statement.reached + 4 * bit s.statement.overCeiling)]) := rfl

theorem closeState_code_lt (c : CloseState) : c.code < 3 := by cases c <;> decide

theorem closeKind_code_lt (c : Option CloseKind) : (c.map (·.code)).getD 3 < 4 := by
  cases c with
  | none => decide
  | some k => cases k <;> decide

theorem statement_state (f : Statement) :
    (f.job.code + 4 * f.close.code + 16 * (f.closeKind.map (·.code)).getD 3 + 64 * bit f.down) % 256 ^ 1 =
      ((match f.job with
          | .noJob => 0
          | .opened => 1
          | .closing => 2
          | .closed => 3) + (match f.close with
          | .noClose => 0
          | .processing => 4
          | .complete => 8) + (match f.closeKind with
          | some .normal => 0
          | some .abrupt => 16
          | some .timedOut => 32
          | none => 48) + if f.down then 64 else 0) % 256 ^ 1 := by
  have hjob : f.job.code =
      (match f.job with
        | .noJob => 0
        | .opened => 1
        | .closing => 2
        | .closed => 3) := by cases f.job <;> rfl
  have hclose : 4 * f.close.code =
      (match f.close with
        | .noClose => 0
        | .processing => 4
        | .complete => 8) := by cases f.close <;> rfl
  have hkind : 16 * (f.closeKind.map (·.code)).getD 3 =
      (match f.closeKind with
        | some .normal => 0
        | some .abrupt => 16
        | some .timedOut => 32
        | none => 48) := by
    obtain _ | k := f.closeKind
    · rfl
    · cases k <;> rfl
  exact congrArg (· % 256 ^ 1) (congrArg₂ (· + ·) (congrArg₂ (· + ·) (congrArg₂ (· + ·) hjob hclose) hkind)
    (mul_bit 64 f.down))

theorem statement_first (h : s.statement.meters.length = 8) :
    (s.statementData 0).length = 46 ∧ natAt (s.statementData 0) 1 2 = s.statement.jobNumber % 256 ^ 2 ∧
    natAt (s.statementData 0) 3 1 = (s.statement.job.code + 4 * s.statement.close.code +
      16 * (s.statement.closeKind.map (·.code)).getD 3 + 64 * bit s.statement.down) % 256 ^ 1 ∧
    natAt (s.statementData 0) 4 2 = s.statement.closingSeconds % 256 ^ 2 ∧
    natAt (s.statementData 0) 6 4 = s.statement.jobTime % 256 ^ 4 ∧
    (∀ k, k < s.statement.meters.length →
      natAt (s.statementData 0) (10 + 4 * k) 4 = s.statement.meters.getD k 0 % 256 ^ 4) ∧
    natAt (s.statementData 0) 42 4 = s.statement.unsure % 256 ^ 4 := by
  refine ⟨?_, natAt_spelled rfl, natAt_spelled rfl, natAt_spelled rfl, natAt_spelled rfl, fun k hk => ?_, ?_⟩
  · obtain ⟨a, b, c, d, e, f, g, i, hm⟩ := exists_of_length_eight h
    rw [statementData_zero, hm]
    rfl
  · rw [statementData_zero, List.append_assoc _ (s.statement.meters.flatMap (leBytes 4)), ← List.append_assoc]
    exact natAt_each_after _ _ hk
  · obtain ⟨a, b, c, d, e, f, g, i, hm⟩ := exists_of_length_eight h
    rw [statementData_zero, hm]
    exact natAt_spelled rfl

theorem statement_second (h : s.statement.timeCharges.length = 8) :
    (s.statementData 1).length = 37 ∧
    (∀ k, k < s.statement.timeCharges.length →
      natAt (s.statementData 1) (1 + 4 * k) 4 = s.statement.timeCharges.getD k 0 % 256 ^ 4) ∧
    natAt (s.statementData 1) 33 4 = min 4294967295 s.statement.timeCharges.sum % 256 ^ 4 := by
  refine ⟨?_, fun k hk => ?_, ?_⟩
  · obtain ⟨a, b, c, d, e, f, g, i, hm⟩ := exists_of_length_eight h
    rw [statementData_one, hm]
    rfl
  · rw [statementData_one]
    exact natAt_each_after _ _ hk
  · obtain ⟨a, b, c, d, e, f, g, i, hm⟩ := exists_of_length_eight h
    rw [statementData_one, hm]
    exact natAt_spelled rfl

/-- The fields of the fourth part behind the units and the retirements. -/
theorem statement_totals (hu : s.statement.units.length = 8) (hr : s.statement.retirements.length = 4) :
    natAt (s.statementData 3) 53 4 = s.statement.retirementCharge % 256 ^ 4 ∧
    natAt (s.statementData 3) 57 4 = s.statement.total % 256 ^ 4 ∧
    natAt (s.statementData 3) 61 4 = s.statement.ceiling % 256 ^ 4 ∧
    natAt (s.statementData 3) 65 1 =
      (bit s.statement.near + 2 * bit s.statement.reached + 4 * bit s.statement.overCeiling) % 256 ^ 1 := by
  let first := [byteOf (bit (s.ret.job == .closed))] ++ s.statement.units.flatMap (leBytes 4) ++
    leBytes 4 s.statement.additiveCharge ++ leBytes 4 s.statement.billedWater ++ leBytes 4 s.statement.waterCharge ++
    s.statement.retirements.flatMap (leBytes 2)
  let tail := leBytes 4 s.statement.retirementCharge ++ leBytes 4 s.statement.total ++ leBytes 4 s.statement.ceiling ++
    [byteOf (bit s.statement.near + 2 * bit s.statement.reached + 4 * bit s.statement.overCeiling)]
  have hdata : s.statementData 3 = first ++ tail := by
    rw [statementData_three]
    simp only [first, tail, List.append_assoc]
  have hlength : first.length = 53 := by
    obtain ⟨a, b, c, d, e, f, g, i, hm⟩ := exists_of_length_eight hu
    obtain ⟨j, k, l, o, hn⟩ := exists_of_length_four hr
    simp only [first, hm, hn]
    rfl
  have hskip : ∀ i k, natAt (s.statementData 3) (53 + i) k = natAt tail i k := fun i k => by
    rw [hdata, ← hlength, natAt_length]
  exact ⟨(hskip 0 4).trans (natAt_spelled rfl), (hskip 4 4).trans (natAt_spelled rfl),
    (hskip 8 4).trans (natAt_spelled rfl), (hskip 12 1).trans (natAt_spelled rfl)⟩

theorem statement_fourth (hu : s.statement.units.length = 8) (hr : s.statement.retirements.length = 4) :
    (s.statementData 3).length = 66 ∧
    (∀ k, k < s.statement.units.length →
      natAt (s.statementData 3) (1 + 4 * k) 4 = s.statement.units.getD k 0 % 256 ^ 4) ∧
    natAt (s.statementData 3) 33 4 = s.statement.additiveCharge % 256 ^ 4 ∧
    natAt (s.statementData 3) 37 4 = s.statement.billedWater % 256 ^ 4 ∧
    natAt (s.statementData 3) 41 4 = s.statement.waterCharge % 256 ^ 4 ∧
    (∀ k, k < s.statement.retirements.length →
      natAt (s.statementData 3) (45 + 2 * k) 2 = s.statement.retirements.getD k 0 % 256 ^ 2) ∧
    natAt (s.statementData 3) 53 4 = s.statement.retirementCharge % 256 ^ 4 ∧
    natAt (s.statementData 3) 57 4 = s.statement.total % 256 ^ 4 ∧
    natAt (s.statementData 3) 61 4 = s.statement.ceiling % 256 ^ 4 ∧
    natAt (s.statementData 3) 65 1 =
      (bit s.statement.near + 2 * bit s.statement.reached + 4 * bit s.statement.overCeiling) % 256 ^ 1 := by
  obtain ⟨a, b, c, d, e, f, g, i, hm⟩ := exists_of_length_eight hu
  obtain ⟨j, k, l, o, hn⟩ := exists_of_length_four hr
  have htotals := statement_totals s hu hr
  refine ⟨?_, fun n hk => ?_, ?_, ?_, ?_, fun n hk => ?_, ?_, ?_, ?_, ?_⟩
  · rw [statementData_three, hm, hn]; rfl
  · rw [statementData_three]
    simp only [List.append_assoc]
    exact natAt_each_after _ _ hk
  · rw [statementData_three, hm]; exact natAt_spelled rfl
  · rw [statementData_three, hm]; exact natAt_spelled rfl
  · rw [statementData_three, hm]; exact natAt_spelled rfl
  · have hsplit : s.statementData 3 = ([byteOf (bit (s.ret.job == .closed))] ++ s.statement.units.flatMap (leBytes 4) ++
        leBytes 4 s.statement.additiveCharge ++ leBytes 4 s.statement.billedWater ++ leBytes 4 s.statement.waterCharge) ++
        (s.statement.retirements.flatMap (leBytes 2) ++ (leBytes 4 s.statement.retirementCharge ++
        leBytes 4 s.statement.total ++ leBytes 4 s.statement.ceiling ++
        [byteOf (bit s.statement.near + 2 * bit s.statement.reached + 4 * bit s.statement.overCeiling)])) := by
      rw [statementData_three]
      simp only [List.append_assoc]
    rw [hsplit, hm]
    exact natAt_each_after _ _ hk
  · exact htotals.1
  · exact htotals.2.1
  · exact htotals.2.2.1
  · exact htotals.2.2.2

theorem statement_live (h : s.ret.job ≠ .closed) : s.statement = s.liveStatement := by
  unfold State.statement
  split
  · rename_i hjob _
    exact absurd hjob h
  · rfl

theorem statement_frozen {g : Statement} (h : s.ret.job = .closed) (hg : s.ret.frozen = some g) : s.statement = g := by
  unfold State.statement
  rw [h, hg]

end

end Sys2Proof.Machine

namespace Sys2Proof

open Machine Host

/-- Settles O34: each field of the records stands where section 11.5 or 11.6 puts it. -/
theorem recordsReadByTheirLayouts : Obligations.RecordsReadByTheirLayouts := by
  unfold Obligations.RecordsReadByTheirLayouts
  intro s flag money
  refine ⟨fun iv => ?_, fun position z => ?_, fun position a hold hnew => ?_, ?_⟩
  · exact interval_layout iv
  · cases z with
    | zone kind top bottom opened closed volume =>
      refine ⟨rfl, natAt_spelled rfl, natAt_spelled rfl, natAt_spelled rfl, natAt_literal (b := 0) rfl, ?_, natAt_zone_open s _,
        natAt_spelled rfl, natAt_spelled rfl, natAt_option rfl, natAt_option rfl, natAt_spelled rfl⟩
      refine (natAt_byte rfl (zoneKind_code_lt kind)).trans ?_
      cases kind <;> rfl
    | mark kind depth time code =>
      refine ⟨rfl, natAt_spelled rfl, natAt_spelled rfl, natAt_spelled rfl, natAt_literal (b := 0) rfl, ?_,
        natAt_literal (b := 255) rfl, natAt_spelled rfl, natAt_spelled rfl, natAt_option rfl, natAt_option rfl,
        natAt_spelled rfl⟩
      refine (natAt_byte rfl (markKind_code_lt kind)).trans ?_
      cases kind <;> rfl
  · refine ⟨rfl, natAt_spelled rfl, natAt_spelled rfl, natAt_spelled rfl, ?_, natAt_spelled rfl, natAt_spelled rfl,
      natAt_spelled rfl, natAt_spelled rfl⟩
    have hlate := bit_lt a.afterClose
    exact (natAt_byte (n := a.oldClass + 8 * a.newClass + 64 * bit a.afterClose) rfl (by omega)).trans
      (congrArg _ (mul_bit 64 a.afterClose))
  · intro f
    refine ⟨fun hmeters hcharges hunits hretired => ?_, fun g hjob hg => statement_frozen s hjob hg, fun hjob => ?_⟩
    · intro at' each
      obtain ⟨hlen0, hnumber, hstate, hseconds, htime, hmeter, hunsure⟩ := statement_first s hmeters
      obtain ⟨hlen1, hcharge, hsum⟩ := statement_second s hcharges
      obtain ⟨hlen3, hunit, hadditive, hwater, hwaterCharge, hretire, hretireCharge, htotal, hceiling, hflags⟩ :=
        statement_fourth s hunits hretired
      refine ⟨fun part hpart => ?_, hlen0, hnumber, hstate.trans (statement_state f), hseconds, htime, hmeter, hunsure,
        hlen1, hcharge, hsum, rfl, natAt_spelled rfl, natAt_spelled rfl, natAt_spelled rfl, natAt_spelled rfl,
        natAt_spelled rfl, natAt_spelled rfl, natAt_spelled rfl, natAt_spelled rfl, natAt_spelled rfl,
        hlen3, hunit, hadditive, hwater, hwaterCharge, hretire, hretireCharge, htotal, hceiling, hflags.trans ?_⟩
      · refine (natAt_byte (n := bit (s.ret.job == .closed)) rfl ((bit_lt _).trans (by decide))).trans ?_
        unfold bit
        simp only [beq_iff_eq]
      · rw [mul_bit, mul_bit]
        rfl
    · rw [show f = s.liveStatement from statement_live s hjob]
      exact ⟨rfl, rfl, rfl, rfl, rfl, rfl, rfl, rfl, rfl, rfl, rfl, rfl, rfl, rfl, rfl, rfl, rfl, rfl, rfl, rfl, rfl,
        rfl, rfl, rfl, rfl, rfl⟩

end Sys2Proof

/-! The RECORD requests (O46): descriptions with their adjustments, down time and additives. -/

namespace Sys2Proof.Machine

open Host

/-! ## A request served in RUN (R12) -/

section Served

variable {i : Instr} {s w : State} {rq : ReqHead} {code : Nat} {args : List Byte} {k : QueueId} {g : State → Gate}
  {f : Request → State → Served} {result : ResultCode} {data : List Byte}

theorem exec_served
    (hdo : exec i s = .next (s.poweredDo fun s => s.present (requestOf rq code args) fun q s => s.serve k (g s) q f))
    (h : s.Serves (requestOf rq code args)) (hrun : s.mode = .run) (hrole : (g s.taken).role = true)
    (hbytes : (g s.taken).bytes ≤ args.length) (hr : f (requestOf rq code args) s.taken = ⟨w, result, data⟩) :
    exec i s = .next (s.finish (w.replied k rq result data)) :=
  exec_of_gate_open (r := ⟨w, result, data⟩) hdo h hrole hbytes (.inl (inRun_of_mode hrun)) hr

theorem served_settles
    (hdo : exec i s = .next (s.poweredDo fun s => s.present (requestOf rq code args) fun q s => s.serve k (g s) q f))
    (h : s.Serves (requestOf rq code args)) (hrun : s.mode = .run) (hrole : (g s.taken).role = true)
    (hbytes : (g s.taken).bytes ≤ args.length) (hw : w.pending = s.pending)
    (hr : f (requestOf rq code args) s.taken = ⟨w, result, data⟩) :
    ∃ t, exec i s = .next t ∧ Settles s (w.replied k rq result data) t :=
  answered_settles hw (exec_served hdo h hrun hrole hbytes hr)

theorem served_refused
    (hdo : exec i s = .next (s.poweredDo fun s => s.present (requestOf rq code args) fun q s => s.serve k (g s) q f))
    (h : s.Serves (requestOf rq code args)) (hrun : s.mode = .run) (hrole : (g s.taken).role = true)
    (hbytes : (g s.taken).bytes ≤ args.length) (hs : s.AlarmsSettled)
    (hr : f (requestOf rq code args) s.taken = s.taken.refuse result) :
    ∃ t, exec i s = .next t ∧ Leaves [] s (s.taken.replied k rq result []) t :=
  taken_answered hs (exec_served hdo h hrun hrole hbytes hr)

end Served

/-! ## Marks (R138) -/

theorem appendMark_eq (s : State) (k : MarkKind) (code : Nat) :
    s.appendMark k code =
      { s with ret := { s.ret with
          zones :=
            if s.ret.zones.length < 96 then s.ret.zones ++ [ZoneEntry.mark k s.ret.hole s.ret.jobTime code]
            else s.ret.zones
          unrecorded := if s.ret.zones.length < 96 then s.ret.unrecorded else min 65535 (s.ret.unrecorded + 1) } } := by
  unfold State.appendMark State.appendZone
  by_cases h : s.ret.zones.length < 96
  · exact (if_pos h).trans (by simp only [if_pos h])
  · exact (if_neg h).trans (by simp only [if_neg h]; rfl)

/-! ## Descriptions (R136, R137, R153) -/

theorem descSource_ofCode (n : Nat) :
    DescSource.ofCode n = if n ≤ 1 then some (if n = 0 then .driller else .sample) else none := by
  match n with
  | 0 => rfl
  | 1 => rfl
  | n + 2 => exact (if_neg (by omega)).symm

section Describe

variable {rq : ReqHead} {interval : BitVec 16} {lithology cls source : Byte} {s : State}

theorem describe_args (rq : ReqHead) (interval : BitVec 16) (lithology cls source : Byte) :
    let q := requestOf rq 16 (leBytes 2 interval.toNat ++ [lithology, cls, source])
    q.arg2 0 = interval.toNat ∧ q.arg 2 = lithology.toNat ∧ q.arg 3 = cls.toNat ∧ q.arg 4 = source.toNat ∧
      q.source = rq.source :=
  ⟨(natAt_leBytes 2 _ _).trans (Nat.mod_eq_of_lt interval.isLt), rfl, rfl, rfl, rfl⟩

/-- The tests of DESCRIBE on its arguments (R136). -/
theorem serveDescribe_eq (rq : ReqHead) (interval : BitVec 16) (lithology cls source : Byte) (s : State) :
    serveDescribe (requestOf rq 16 (leBytes 2 interval.toNat ++ [lithology, cls, source])) s =
      if lithology.toNat ≤ 63 ∧ 1 ≤ cls.toNat ∧ cls.toNat ≤ 4 ∧ source.toNat ≤ 1 then
        (s.ret.intervals.find? fun iv => iv.index == interval.toNat).elim (s.refuse .notFound) fun iv =>
          if iv.closedTime = none ∨ (source.toNat = 1 ∧ iv.sample = .inTransit) ∨
              (source.toNat = 0 ∧ iv.source = some .sample) then s.refuse .state
          else (s.describe iv lithology.toNat cls.toNat (if source.toNat = 0 then .driller else .sample)
            rq.source).done
      else s.refuse .range := by
  obtain ⟨hindex, hlithology, hcls, hsource, hsender⟩ := describe_args rq interval lithology cls source
  unfold serveDescribe
  rw [hindex, hlithology, hcls, hsource, hsender, descSource_ofCode]
  by_cases hs : source.toNat ≤ 1
  case neg => rw [if_neg hs, if_neg fun h => hs h.2.2.2]
  rw [if_pos hs]
  by_cases hrange : 63 < lithology.toNat ∨ cls.toNat < 1 ∨ 4 < cls.toNat
  · exact (if_pos hrange).trans (if_neg (by omega)).symm
  refine (if_neg hrange).trans (Eq.trans ?_ (if_pos (by omega)).symm)
  unfold State.intervalAt
  cases (s.ret.intervals.find? fun iv => iv.index == interval.toNat) with
  | none => rfl
  | some iv =>
    have hcode : source.toNat = 0 ∨ source.toNat = 1 := by omega
    obtain h | h := hcode <;> rw [h] <;> simp only [Option.elim_some] <;> split_ifs <;> simp_all

/-- A description of the class in force (R137), and of another class with its adjustment (R153). -/
theorem describe_eq {iv : Interval} (s : State) (hindex : iv.index = interval.toNat) (src : DescSource) (l c d : Nat) :
    let i := interval.toNat
    let described := fun iv : Interval => { iv with lithology := some l, cls := some c, source := some src }
    let old := iv.cls.getD (s.cfg Item.defaultClass 0)
    let n := s.cfg Item.intervalLength 0
    let charge := min 4294967295
      ((n * s.cfg Item.bandRate (s.bandOf ((i + 1) * n)) * s.cfg Item.classPercent c + 50000) / 100000)
    let was := iv.current.getD 0
    let full := 128 ≤ s.ret.adjustments.length
    let late := s.ret.job = .closed
    s.describe iv l c src d =
      if old = c then
        { s with ret := { s.ret with
          intervals := s.ret.intervals.map fun iv : Interval => if iv.index = i then described iv else iv } }
      else
        { s with ret := { s.ret with
          intervals := s.ret.intervals.map fun iv : Interval =>
            if iv.index = i then { described iv with current := some charge } else iv
          sumCurrent :=
            if was ≤ charge then min 4294967295 (s.ret.sumCurrent + (charge - was))
            else s.ret.sumCurrent - (was - charge)
          adjustments := (if full then s.ret.adjustments.drop 1 else s.ret.adjustments) ++
            [Adjustment.mk i old c was charge s.ret.jobTime d (decide late)]
          droppedAdj := if full then min 65535 (s.ret.droppedAdj + 1) else s.ret.droppedAdj
          additions := if late then min 4294967295 (s.ret.additions + (charge - was)) else s.ret.additions
          reductions := if late then min 4294967295 (s.ret.reductions + (was - charge)) else s.ret.reductions } } := by
  intro i described old n charge was full late
  have hmap : (s.ret.intervals.map fun iv : Interval => if iv.index = i then described iv else iv).map
      (fun iv : Interval => if iv.index = i then { iv with current := some charge } else iv) =
      s.ret.intervals.map fun iv : Interval =>
        if iv.index = i then { described iv with current := some charge } else iv := by
    rw [List.map_map]
    refine List.map_congr_left fun jv _ => ?_
    by_cases hj : jv.index = i
    · simp only [Function.comp, if_pos hj]
      exact if_pos hj
    · simp only [Function.comp, if_neg hj]
  unfold State.describe
  dsimp only
  rw [hindex]
  by_cases hold : old = c
  · rw [if_pos hold]
    exact if_pos hold
  · rw [if_neg hold]
    refine (if_neg hold).trans ?_
    rw [← hmap]
    unfold State.adjust
    simp only [hindex, beq_iff_eq, decide_eq_true_eq]
    rfl

end Describe

/-! ## Additives (R154) -/

/-- The units of a kind raised. -/
def State.additive (s : State) (kind units : Nat) : State :=
  { s with ret := { s.ret with units := countAdd top32 s.ret.units kind units } }

theorem serveAdditive_eq (rq : ReqHead) (kind : Byte) (units : BitVec 16) (s : State) :
    serveAdditive (requestOf rq 20 (kind :: leBytes 2 units.toNat)) s =
      if kind.toNat ≤ 7 ∧ 1 ≤ units.toNat ∧ units.toNat ≤ 1000 then
        if s.ret.job = .closed then s.refuse .state else (s.additive kind.toNat units.toNat).done
      else s.refuse .range := by
  unfold serveAdditive
  rw [arg_zero_requestOf, arg2_leBytes]
  by_cases h : kind.toNat ≤ 7 ∧ 1 ≤ units.toNat ∧ units.toNat ≤ 1000
  · exact (if_neg (by omega)).trans (if_pos h).symm
  · exact (if_pos (by omega)).trans (if_neg h).symm

theorem leavesOther_additive (s : State) (kind units : Nat) : LeavesOther [.ret] s (s.additive kind units) :=
  (moves_ret s { s.ret with units := countAdd top32 s.ret.units kind units } (.of_eq rfl rfl rfl rfl)).other

theorem countAdd_getD {l : List Nat} {i k top n : Nat} (hk : k < l.length) :
    (countAdd top l i n).getD k 0 = if k = i then min top (l.getD k 0 + n) else l.getD k 0 := by
  unfold countAdd
  rw [List.getD_eq_getElem?_getD, List.getElem?_set]
  by_cases h : k = i
  · subst h
    rw [if_pos rfl, if_pos hk, if_pos rfl]
    rfl
  · rw [if_neg (Ne.symm h), if_neg h, List.getD_eq_getElem?_getD]

end Sys2Proof.Machine

namespace Sys2Proof

open Machine Host

/-- DESCRIBE's part of O46. -/
theorem describe_taken (rq : ReqHead) (interval : BitVec 16) (lithology cls source : Byte) (s : State)
    (hrun : s.mode = .run) (hrole : s.straps.record = true)
    (hserves : s.Serves (requestOf rq 16 (leBytes 2 interval.toNat ++ [lithology, cls, source]))) {w : State}
    {result : ResultCode}
    (hr : serveDescribe (requestOf rq 16 (leBytes 2 interval.toNat ++ [lithology, cls, source])) s.taken =
      ⟨w, result, []⟩) :
    exec (.describe rq interval lithology cls source) s = .next (s.finish (w.replied .exchange rq result [])) :=
  exec_served (g := fun s => ⟨s.straps.record, 5, false⟩) (f := serveDescribe) rfl hserves hrun hrole (by simp) hr

/-- Settles O46: each request's tests in order, then the record it makes. -/
theorem recordRequestsAreTaken : Obligations.RecordRequestsAreTaken := by
  unfold Obligations.RecordRequestsAreTaken
  refine ⟨fun rq interval lithology cls source s hrun hrole hs hserves => ?_, fun rq s hrun hrole hs => ?_⟩
  · intro refused i found ranged
    have hserve := serveDescribe_eq rq interval lithology cls source s.taken
    have answered := fun {w result} => describe_taken (w := w) (result := result) rq interval lithology cls source s
      hrun hrole hserves
    have refuse : ∀ code, serveDescribe (requestOf rq 16 (leBytes 2 interval.toNat ++ [lithology, cls, source])) s.taken =
        s.taken.refuse code → refused code := fun code h => taken_answered hs (answered h)
    refine ⟨fun hn => refuse _ (hserve.trans (if_neg hn)), fun hr hf => ?_, fun iv hr hf => ?_⟩
    · refine refuse _ (hserve.trans ((if_pos hr).trans ?_))
      exact congrArg (Option.elim · _ _) hf
    · intro barred src described old l band charge was full late
      have hfound := hserve.trans ((if_pos hr).trans (congrArg (Option.elim · _ _) hf))
      have hindex : iv.index = interval.toNat := beq_iff_eq.1 (List.find?_some hf :)
      have hdescribe := describe_eq s.taken hindex src lithology.toNat cls.toNat rq.source
      refine ⟨fun hb => refuse _ (hfound.trans (if_pos hb)), fun hb hsame => ?_, fun hb hnew => ?_⟩
      · refine answered_settles rfl (answered (hfound.trans ((if_neg hb).trans (congrArg State.done ?_))))
        exact hdescribe.trans (if_pos hsame)
      · refine answered_settles rfl (answered (hfound.trans ((if_neg hb).trans (congrArg State.done ?_))))
        exact hdescribe.trans (if_neg hnew)
  · intro closed marked
    refine ⟨fun cause hserves => ?_, fun hserves => ?_, fun kind units hserves => ?_⟩
    · have answered := fun {w result} => exec_served (g := fun s => ⟨s.straps.record, 1, false⟩) (f := serveDownBegin)
        (i := .downBegin rq cause) (w := w) (result := result) (data := []) rfl hserves hrun hrole (by simp)
      refine ⟨fun h => taken_answered hs (answered (if_pos h)), fun hopen hdown => ?_⟩
      refine answered_settles (w := { s.taken with ret := _ }) rfl (answered ((if_neg ?_).trans (congrArg State.done ?_)))
      · exact not_or.mpr ⟨hopen, Bool.eq_false_iff.1 hdown⟩
      · exact appendMark_eq (s.taken.setDown true) .downBegin cause.toNat
    · have answered := fun {w result} => exec_served (g := fun s => ⟨s.straps.record, 0, false⟩) (f := serveDownEnd)
        (i := .downEnd rq) (w := w) (result := result) (data := []) rfl hserves hrun hrole (by simp)
      refine ⟨fun h => taken_answered hs (answered (if_pos ?_)), fun hopen hdown => ?_⟩
      · exact h.imp id fun h => by rw [show s.taken.ret.down = s.ret.down from rfl, h]; rfl
      refine answered_settles (w := { s.taken with ret := _ }) rfl (answered ((if_neg ?_).trans (congrArg State.done ?_)))
      · refine not_or.mpr ⟨hopen, ?_⟩
        rw [show s.taken.ret.down = s.ret.down from rfl, hdown]
        decide
      · exact appendMark_eq (s.taken.setDown false) .downEnd 0
    · intro ranged
      have answered := fun {w result} => exec_served (g := fun s => ⟨s.straps.record, 3, false⟩) (f := serveAdditive)
        (i := .additive rq kind units) (w := w) (result := result) (data := []) rfl hserves hrun hrole (by simp)
      have hserve := serveAdditive_eq rq kind units s.taken
      refine ⟨fun h => taken_answered hs (answered (hserve.trans (if_neg h))),
        fun h hc => taken_answered hs (answered (hserve.trans ((if_pos h).trans (if_pos hc)))), fun h hc hlen => ?_⟩
      obtain ⟨t, ht, hsettles⟩ := answered_settles (w := s.taken.additive kind.toNat units.toNat) (s := s) rfl
        (answered (hserve.trans ((if_pos h).trans (if_neg hc))))
      have hpop : LeavesOther [.link] s s.taken := leavesOther_link s s.link.popIntake
      have hmoves := (hpop.trans (leavesOther_additive s.taken kind.toNat units.toNat)).trans
        (moves_answer (s.taken.additive kind.toNat units.toNat) .exchange (requestOf rq 0 []) .done []).other
      have hret : t.ret = { s.ret with units := countAdd top32 s.ret.units kind.toNat units.toNat } :=
        (hsettles.rest.other.ret (by decide)).trans
          ((moves_answer (s.taken.additive kind.toNat units.toNat) .exchange (requestOf rq 0 []) .done []).other.ret
            (by decide))
      refine ⟨t, ht, ?_, fun k hk => ?_, ?_, hsettles.changes hmoves (by decide) (by decide)⟩
      · rw [hret]
        exact List.length_set.trans hlen
      · rw [hret]
        exact countAdd_getD (hlen ▸ hk)
      · rw [hret]

end Sys2Proof

/-! CONFIG_SET (O35): any item in CONFIG, and in RUN the service items under the key. -/

namespace Sys2Proof.Machine

open Host

theorem exists_and_of {α : Sort*} {p q : α → Prop} {r : Prop} (h : ∃ t, p t ∧ q t) (hr : r) : ∃ t, p t ∧ q t ∧ r :=
  h.imp fun _ h => ⟨h.1, h.2, hr⟩

/-! ## The items that the digest reads (R25) -/

/-- The digest reads the items marked D alone. -/
theorem configDigest_congr {a b : Items}
    (h : ∀ code row, itemRow code = some row → row.digest = true → ∀ i, itemGet a code i = itemGet b code i) :
    configDigest a = configDigest b := by
  have count : ∀ code row i, itemRow code = some row → row.digest = true → itemGet a code i = itemGet b code i :=
    fun code row i hrow hd => h code row hrow hd i
  have huse : ∀ code row, indicesInUse a code row = indicesInUse b code row := fun code row => by
    unfold indicesInUse
    rw [count Item.sectionCount _ 0 rfl rfl, count Item.typeCount _ 0 rfl rfl, count Item.inventoryCount _ 0 rfl rfl]
  have hbytes : ∀ code, itemBytes a code = itemBytes b code := fun code => by
    unfold itemBytes
    cases hrow : itemRow code with
    | none => rfl
    | some row =>
      cases hd : row.digest with
      | false => simp only [hd]; rfl
      | true =>
        simp only [hd, huse, h code row hrow hd]
  unfold configDigest
  simp only [hbytes]

/-- The items of the service key are not marked D (R24, R28). -/
theorem configDigest_service {code : Nat} (h : serviceItem code = true) (items : Items) (i v : Nat) :
    configDigest (itemSet items code i v) = configDigest items := by
  refine configDigest_congr fun c row hrow hd j => ?_
  rw [itemGet_set, if_neg]
  rintro ⟨rfl, -⟩
  have hplain : ∀ c row, c ∈ [29, 30, 32] → itemRow c = some row → row.digest = false := by
    rintro c row hc hrow
    simp only [List.mem_cons, List.not_mem_nil, or_false] at hc
    obtain rfl | rfl | rfl := hc <;> obtain rfl := Option.some.inj hrow <;> rfl
  have hc : c ∈ [29, 30, 32] := by simpa [serviceItem, or_assoc] using h
  exact Bool.false_ne_true ((hplain c row hc hrow).symm.trans hd)

theorem itemCheck_eq (code index value : Nat) :
    itemCheck code index value =
      (itemRow code).elim .unknown fun r =>
        if index < r.indexLo ∨ r.indexHi < index ∨ value < r.lo ∨ r.hi < value then .outside else .taken := by
  unfold itemCheck
  cases itemRow code with
  | none => rfl
  | some r =>
    by_cases h : index < r.indexLo ∨ r.indexHi < index ∨ value < r.lo ∨ r.hi < value
    · exact (if_neg (by omega)).trans (if_pos h).symm
    · exact (if_pos (by omega)).trans (if_neg h).symm

/-! ## The service items in RUN (R28, R141) -/

theorem Pumps.set_get (v : Pumps) (p : PumpId) : v.set p (v.get p) = v := by cases p <;> rfl

/-- The effective volume computed again: the channel takes it, and a change at a RECORD station whose job runs is
marked. -/
theorem serviceChange_eq (s : State) (p : PumpId) {marked : Prop} [Decidable marked]
    (hmarked : marked ↔ s.effectiveVolume p ≠ (s.chan p).effVolume ∧ s.strataOn = true) :
    s.serviceChange p =
      { s with
        ret := { s.ret with
          zones :=
            if marked ∧ s.ret.zones.length < 96 then
              s.ret.zones ++ [ZoneEntry.mark .service s.ret.hole s.ret.jobTime (serviceCode s.straps.number p)]
            else s.ret.zones
          unrecorded :=
            if marked ∧ 96 ≤ s.ret.zones.length then min 65535 (s.ret.unrecorded + 1) else s.ret.unrecorded }
        pumps := s.pumps.set p { s.chan p with effVolume := s.effectiveVolume p } } := by
  unfold State.serviceChange
  by_cases hv : s.effectiveVolume p = (s.chan p).effVolume
  · have hm : ¬marked := fun h => (hmarked.mp h).1 hv
    have hset : s.pumps.set p { s.chan p with effVolume := s.effectiveVolume p } = s.pumps := by
      rw [hv]
      exact s.pumps.set_get p
    refine (if_pos hv).trans ?_
    rw [if_neg (not_and_of_not_left (s.ret.zones.length < 96) hm),
      if_neg (not_and_of_not_left (96 ≤ s.ret.zones.length) hm), hset]
  refine (if_neg hv).trans ?_
  by_cases hon : s.strataOn = true
  · have hm : marked := hmarked.mpr ⟨hv, hon⟩
    by_cases hroom : s.ret.zones.length < 96
    · rw [if_pos (And.intro hm hroom), if_neg fun h : marked ∧ 96 ≤ s.ret.zones.length => absurd h.2 hroom.not_ge]
      exact (if_pos hon).trans (if_pos hroom)
    · rw [if_neg fun h : marked ∧ s.ret.zones.length < 96 => hroom h.2, if_pos (And.intro hm (not_lt.mp hroom))]
      exact (if_pos hon).trans (if_neg hroom)
  · have hm : ¬marked := fun h => hon (hmarked.mp h).2
    rw [if_neg fun h : marked ∧ s.ret.zones.length < 96 => hm h.1, if_neg fun h : marked ∧ 96 ≤ s.ret.zones.length => hm h.1]
    exact if_neg hon

/-- The station with other items and another digest. -/
def State.itemed (s : State) (items : Items) (digest : Nat) : State :=
  { s with ret := { s.ret with items := items, digest := digest } }

/-- The effective volume computed again from other items. -/
theorem serviceChange_itemed (s : State) (p : PumpId) (items : Items) (digest : Nat) {volume code : Nat} {marked : Prop}
    [Decidable marked] (hvolume : (s.itemed items digest).effectiveVolume p = volume) (hcode : code = pumpCode p)
    (hmarked : marked ↔ volume ≠ (s.chan p).effVolume ∧ s.strataOn = true) :
    (s.itemed items digest).serviceChange p =
      { s with
        ret := { s.ret with
          items := items
          digest := digest
          zones :=
            if marked ∧ s.ret.zones.length < 96 then
              s.ret.zones ++ [ZoneEntry.mark .service s.ret.hole s.ret.jobTime (s.straps.number + 256 * code)]
            else s.ret.zones
          unrecorded :=
            if marked ∧ 96 ≤ s.ret.zones.length then min 65535 (s.ret.unrecorded + 1) else s.ret.unrecorded }
        pumps := s.pumps.set p { s.chan p with effVolume := volume } } := by
  have hm : marked ↔ (s.itemed items digest).effectiveVolume p ≠ ((s.itemed items digest).chan p).effVolume ∧
      (s.itemed items digest).strataOn = true := by
    rw [hvolume]
    exact hmarked
  rw [serviceChange_eq _ p hm, hvolume, serviceCode, ← hcode]
  rfl

/-! ## The request -/

section ConfigSet

variable (rq : ReqHead) (item index : Byte) (value : BitVec 32) (s : State)

theorem configSet_args :
    let q := requestOf rq 2 ([item, index] ++ leBytes 4 value.toNat)
    q.arg 0 = item.toNat ∧ q.arg 1 = index.toNat ∧ q.arg4 2 = value.toNat := by
  refine ⟨rfl, rfl, ?_⟩
  have hread := natAt_leBytes 4 value.toNat []
  rw [List.append_nil] at hread
  exact hread.trans (Nat.mod_eq_of_lt value.isLt)

theorem serveConfigSet_locked (h : (s.inRun && !(s.pins.serviceKey && serviceItem item.toNat)) = true) :
    serveConfigSet (requestOf rq 2 ([item, index] ++ leBytes 4 value.toNat)) s = s.refuse .locked := by
  obtain ⟨hitem, -, -⟩ := configSet_args rq item index value
  unfold serveConfigSet
  rw [hitem]
  exact if_pos h

/-- The tests of CONFIG_SET on an item that is not locked (R23). -/
theorem serveConfigSet_eq (h : (s.inRun && !(s.pins.serviceKey && serviceItem item.toNat)) = false) :
    serveConfigSet (requestOf rq 2 ([item, index] ++ leBytes 4 value.toNat)) s =
      (itemRow item.toNat).elim (s.refuse .notFound) fun r =>
        if index.toNat < r.indexLo ∨ r.indexHi < index.toNat ∨ value.toNat < r.lo ∨ r.hi < value.toNat then
          s.refuse .range
        else
          State.done (if s.inRun then
            (pumpOfCode index.toNat).elim (s.setItem item.toNat index.toNat value.toNat)
              (s.setItem item.toNat index.toNat value.toNat).serviceChange
          else s.setItem item.toNat index.toNat value.toNat) := by
  obtain ⟨hitem, hindex, hvalue⟩ := configSet_args rq item index value
  unfold serveConfigSet
  rw [hitem, hindex, hvalue]
  dsimp only
  rw [itemCheck_eq]
  refine (if_neg (by rw [h]; decide)).trans ?_
  cases itemRow item.toNat with
  | none => rfl
  | some r =>
    simp only [Option.elim_some]
    by_cases hout : index.toNat < r.indexLo ∨ r.indexHi < index.toNat ∨ value.toNat < r.lo ∨ r.hi < value.toNat
    · rw [if_pos hout, if_pos hout]
    · rw [if_neg hout, if_neg hout]
      cases pumpOfCode index.toNat <;> rfl

theorem exec_configSet {s : State} (key : Bool) {w : State} {result : ResultCode}
    (hserves : s.Serves (requestOf rq 2 ([item, index] ++ leBytes 4 value.toNat)))
    (hr : serveConfigSet (requestOf rq 2 ([item, index] ++ leBytes 4 value.toNat))
      { s.taken with pins := { s.pins with serviceKey := key } } = ⟨w, result, []⟩) :
    exec (.configSet rq key item index value) s = .next (s.finish (w.replied .exchange rq result [])) := by
  have hdo : exec (.configSet rq key item index value) s = .next (s.poweredDo fun s =>
      ({ s with pins := { s.pins with serviceKey := key } } : State).present
        (requestOf rq 2 ([item, index] ++ leBytes 4 value.toNat)) fun q s =>
          s.serve .exchange ⟨true, 6, true⟩ q serveConfigSet) := rfl
  rw [hdo, State.poweredDo, if_pos hserves.1,
    present_of_serves (s := { s with pins := { s.pins with serviceKey := key } }) hserves]
  refine congrArg (fun w => Outcome.next (s.finish w)) ((serve_of_open rfl (by simp [requestOf]) (.inr rfl) _ _).trans ?_)
  exact congrArg (fun r : Served => r.state.answer .exchange (requestOf rq 0 []) r.code r.data) hr

end ConfigSet

end Sys2Proof.Machine

namespace Sys2Proof

open Machine Host

/-- Settles O35: in CONFIG every item, in RUN the service items under the key, each with R23's tests. -/
theorem configSetTakesItems : Obligations.ConfigSetTakesItems := by
  unfold Obligations.ConfigSetTakesItems
  refine ⟨fun rq key item index value s hmode hserves => ?_, fun rq key item index value s hrun hs hserves => ?_⟩
  · intro w items
    have hw : w.inRun = false := by simp [State.inRun, w, State.taken, hmode]
    have hserve := serveConfigSet_eq rq item index value w (by rw [hw]; rfl)
    have answered := fun {v result} => exec_configSet (w := v) (result := result) rq item index value key hserves
    have settled : ∀ v : State, v.mode = s.mode → v.AlarmsSettled := fun v hv hin => by
      rw [inRun_iff, hv, hmode] at hin
      cases hin
    have leaves : ∀ {v result}, v.pending = s.pending → v.mode = s.mode →
        serveConfigSet (requestOf rq 2 ([item, index] ++ leBytes 4 value.toNat)) w = ⟨v, result, []⟩ →
        Leaves [] s (v.replied .exchange rq result []) (s.finish (v.replied .exchange rq result [])) := fun hp hm _ =>
      finish_leaves s _ ((replied_pending _ _ _ _ _).trans hp) (replied_settled (settled _ hm) _ _ _ _)
    have hget : ∀ code i, itemGet items code i =
        if code = item.toNat ∧ i = index.toNat then value.toNat else itemGet s.ret.items code i :=
      itemGet_set s.ret.items item.toNat index.toNat value.toNat
    cases hrow : itemRow item.toNat with
    | none =>
      rw [hrow] at hserve
      exact ⟨_, answered hserve, leaves rfl rfl hserve, hget⟩
    | some row =>
      rw [hrow] at hserve
      by_cases hout : index.toNat < row.indexLo ∨ row.indexHi < index.toNat ∨ value.toNat < row.lo ∨ row.hi < value.toNat
      · have hserved := hserve.trans (if_pos hout)
        refine ⟨_, answered hserved, ?_, hget⟩
        simp only [if_pos hout]
        exact leaves rfl rfl hserved
      · have hserved := hserve.trans ((if_neg hout).trans
          (congrArg State.done (if_neg (by rw [hw]; decide) : _ = w.setItem item.toNat index.toNat value.toNat)))
        refine ⟨_, answered hserved, ?_, hget⟩
        simp only [if_neg hout]
        exact leaves rfl rfl hserved
  · intro w items
    have hw : w.inRun = true := inRun_of_mode hrun
    have answered := fun {v result} => exec_configSet (w := v) (result := result) rq item index value key hserves
    have refused : ∀ {result}, serveConfigSet (requestOf rq 2 ([item, index] ++ leBytes 4 value.toNat)) w =
        w.refuse result → ∃ t, exec (.configSet rq key item index value) s = .next t ∧
          Leaves [] s (w.replied .exchange rq result []) t := fun h =>
      answered_leaves (w := w) rfl (pins_settled (taken_settled hs) _) (answered h)
    refine ⟨fun hlocked => refused (serveConfigSet_locked rq item index value w ?_), fun row hkey hitem hrow => ?_⟩
    · rw [hw]
      obtain rfl | ⟨h29, h30, h32⟩ := hlocked
      · rfl
      · have hservice : serviceItem item.toNat = false := by
          have hne : ∀ n, n < 256 → item ≠ BitVec.ofNat 8 n → item.toNat ≠ n := fun n hn h hv =>
            h (BitVec.eq_of_toNat_eq (hv.trans (Nat.mod_eq_of_lt hn).symm))
          simp only [serviceItem, Bool.or_eq_false_iff, beq_eq_false_iff_ne]
          exact ⟨⟨hne 29 (by omega) h29, hne 30 (by omega) h30⟩, hne 32 (by omega) h32⟩
        rw [hservice, Bool.and_false]
        rfl
    have hservice : serviceItem item.toNat = true := by
      obtain rfl | rfl | rfl := hitem <;> rfl
    have hindex : row.indexLo = 0 ∧ row.indexHi = 1 := by
      obtain rfl | rfl | rfl := hitem <;> obtain rfl := Option.some.inj hrow <;> exact ⟨rfl, rfl⟩
    have hopen : (w.inRun && !(w.pins.serviceKey && serviceItem item.toNat)) = false := by
      rw [hservice, show w.pins.serviceKey = key from rfl, hkey]
      exact Bool.and_false _
    have hserve := serveConfigSet_eq rq item index value w hopen
    rw [hrow] at hserve
    refine ⟨fun hout => refused (hserve.trans (if_pos (by omega))), fun hlo hhi p hp => ?_⟩
    intro volume marked
    have hcode : index.toNat = pumpCode p := by cases p <;> exact hp
    have hserved := hserve.trans ((if_neg (by cases p <;> simp at hp <;> omega)).trans (congrArg State.done (if_pos hw)))
    have hpump : pumpOfCode index.toNat = some p := by rw [hcode, pumpOfCode_pumpCode]
    have hvolume : (w.itemed items (configDigest items)).effectiveVolume p = volume := by
      unfold State.effectiveVolume
      rw [← hcode]
      rfl
    have hmarked : marked ↔ volume ≠ (w.chan p).effVolume ∧ w.strataOn = true := by
      simp only [State.strataOn, hw, Bool.true_and, Bool.and_eq_true, Bool.or_eq_true, beq_iff_eq]
      exact Iff.rfl
    have htaken := serviceChange_itemed w p items (configDigest items) hvolume hcode hmarked
    have hset : w.setItem item.toNat index.toNat value.toNat = w.itemed items (configDigest items) := rfl
    rw [hpump, Option.elim_some, hset, htaken] at hserved
    exact exists_and_of (answered_settles rfl (answered hserved)) (configDigest_service hservice _ _ _)

end Sys2Proof

/-! The status period (O19): what it hands, in order, and the page request that may follow. -/

namespace Sys2Proof.Machine

open Host

/-! ## The contents of STATUS (R7, R63, R83, R124) -/

/-- A pump is fitted at a station with the PUMP role in RUN (R48). -/
abbrev State.Fitted (s : State) (p : PumpId) : Prop :=
  s.mode = .run ∧ s.straps.pump = true ∧ s.cfg Item.fitted (pumpCode p) = 1

theorem isFitted_true_iff (s : State) (p : PumpId) : s.isFitted p = true ↔ s.Fitted p := by
  simp only [State.isFitted, State.inRun, Bool.and_eq_true, beq_iff_eq, and_assoc]

theorem pumpSummary_eq (s : State) (p : PumpId) :
    s.pumpSummary p =
      if s.Fitted p then
        PumpSummary.mk (s.chan p).state true (s.chan p).strokeStopped (s.chan p).target (s.chan p).spm
      else ⟨.stopped, false, true, 0, 0⟩ := by
  unfold State.pumpSummary
  by_cases h : s.Fitted p
  · exact (if_pos ((isFitted_true_iff s p).mpr h)).trans (if_pos h).symm
  · exact (if_neg (mt (isFitted_true_iff s p).mp h)).trans (if_neg h).symm

theorem balanceFigures_eq (s : State) :
    s.balanceFigures =
      if s.straps.pump = true ∧ s.straps.pitSensor = true then
        some ⟨s.ret.balState, if s.thresholds.ret.known then some s.thresholds.ret.accepted else none, s.ret.lost,
          s.ret.gained⟩
      else none := by
  unfold State.balanceFigures State.isPit
  simp only [Bool.and_eq_true]
  rfl

/-! ## The frames of the period (R62, R88) -/

/-- A broadcast of the period joins RIG. -/
def State.periodHand (s : State) (kind : FrameKind) (pump : Option PumpId) (payload : List Byte) (l : Link) : Link :=
  l.handOver s.linkEnv .rig (TxFrame.mk kind 31 (s.cfg Item.kindClass kind.code == 0) pump payload 0 0 none)

/-- The link once the STROKES frame of a pump is handed, where one is due. -/
def State.periodStrokesLink (s : State) (p : PumpId) (l : Link) : Link :=
  if s.Fitted p then
    s.periodHand .strokes (some p) (encodeStrokes ⟨p, if p = .a then s.ret.strokesA else s.ret.strokesB,
      (s.chan p).effVolume, (s.chan p).spm⟩) l
  else l

/-- The channel of a pump once its STROKES frame is handed, where one is due. -/
def State.periodChan (s : State) (p : PumpId) : PumpChannel :=
  if s.Fitted p then { s.chan p with holdoff := some 200 } else s.chan p

theorem periodStrokes_a (s : State) (l : Link) :
    ({ s with link := l } : State).periodStrokes .a =
      { s with link := s.periodStrokesLink .a l, pumps := ⟨s.periodChan .a, s.pumps.b⟩ } := by
  unfold State.periodStrokes State.periodStrokesLink State.periodChan
  by_cases h : s.Fitted .a
  · rw [if_pos h, if_pos h]
    exact if_pos ((isFitted_true_iff _ _).mpr h)
  · rw [if_neg h, if_neg h]
    exact if_neg (mt (isFitted_true_iff _ _).mp h)

theorem periodStrokes_b (s : State) (l : Link) (c : PumpChannel) :
    ({ s with link := l, pumps := ⟨c, s.pumps.b⟩ } : State).periodStrokes .b =
      { s with link := s.periodStrokesLink .b l, pumps := ⟨c, s.periodChan .b⟩ } := by
  unfold State.periodStrokes State.periodStrokesLink State.periodChan
  by_cases h : s.Fitted .b
  · rw [if_pos h, if_pos h]
    exact if_pos ((isFitted_true_iff _ _).mpr h)
  · rw [if_neg h, if_neg h]
    exact if_neg (mt (isFitted_true_iff _ _).mp h)

/-- The link once the HEAD frame is handed, where one is due. -/
def State.periodHeadLink (s : State) (l : Link) : Link :=
  if s.mode = .run ∧ s.straps.head = true then
    s.periodHand .head none (encodeHead ⟨s.depth.h, s.depth.headKnown, s.spin.permit, s.spin.state, s.ret.turns,
      s.ret.spinTurns, s.depth.rpm, s.spin.number, s.spin.owner, s.spin.kind⟩) l
  else l

/-- The station once a status period has handed its frames. -/
def State.periodHanded (s : State) : State :=
  { s with
    link := s.periodHeadLink (s.periodStrokesLink .b (s.periodStrokesLink .a
      (s.periodHand .status none (encodeStatus s.statusMsg) { s.link with statusTimer := some s.statusPeriod })))
    pumps := ⟨s.periodChan .a, s.periodChan .b⟩
    depth :=
      if s.mode = .run ∧ s.straps.head = true then { s.depth with holdoff := some 200, lastHanded := some s.depth.h }
      else s.depth }

theorem periodHead_eq (s : State) (l : Link) (v : Pumps) (hrun : s.mode = .run) :
    (if s.straps.head then ({ s with link := l, pumps := v } : State).handHead else { s with link := l, pumps := v }) =
      { s with
        link := s.periodHeadLink l
        pumps := v
        depth :=
          if s.mode = .run ∧ s.straps.head = true then { s.depth with holdoff := some 200, lastHanded := some s.depth.h }
          else s.depth } := by
  unfold State.periodHeadLink
  by_cases h : s.straps.head = true
  · have hdue : s.mode = .run ∧ s.straps.head = true := ⟨hrun, h⟩
    rw [if_pos hdue, if_pos hdue]
    exact if_pos h
  · have hdue : ¬(s.mode = .run ∧ s.straps.head = true) := fun k => h k.2
    rw [if_neg hdue, if_neg hdue]
    exact if_neg h

theorem resyncPeriod_idle {s : State} (h : s.mode ≠ .run ∨ s.viewSure = true) : s.resyncPeriod = s := by
  unfold State.resyncPeriod
  refine if_neg fun k => ?_
  simp only [Bool.and_eq_true, Bool.not_eq_true'] at k
  obtain ⟨⟨hrun, hrod⟩, hsure⟩ := k
  obtain h | h := h
  · exact h ((inRun_iff s).mp hrun)
  · simp [State.viewSure, hrod, hsure] at h

theorem statusPeriodEnd_eq (s : State) : s.statusPeriodEnd = s.periodHanded.resyncPeriod := by
  have hstatus : ({ s with link := { s.link with statusTimer := some s.statusPeriod } } : State).handStatus =
      { s with
        link := (s.periodHand .status none (encodeStatus s.statusMsg) { s.link with statusTimer := some s.statusPeriod }) } :=
    rfl
  unfold State.statusPeriodEnd
  dsimp only
  by_cases hrun : s.mode = .run
  · refine (if_pos ((inRun_iff _).mpr hrun)).trans ?_
    refine congrArg State.resyncPeriod ?_
    rw [hstatus, periodStrokes_a, periodStrokes_b]
    exact periodHead_eq s _ _ hrun
  · refine (if_neg (mt (inRun_iff _).mp hrun)).trans (Eq.trans ?_ (resyncPeriod_idle (s := s.periodHanded) (.inl hrun)).symm)
    have hfit : ∀ p, ¬s.Fitted p := fun p h => hrun h.1
    have hhead : ¬(s.mode = .run ∧ s.straps.head = true) := fun h => hrun h.1
    unfold State.periodHanded State.periodHeadLink State.periodStrokesLink State.periodChan
    rw [if_neg (hfit .a), if_neg (hfit .b), if_neg hhead, if_neg hhead, if_neg (hfit .a), if_neg (hfit .b)]
    exact hstatus

end Sys2Proof.Machine

namespace Sys2Proof

open Machine Host

/-- Settles O19: the frames of the period in order, then R100's page request. -/
theorem statusPeriodHandsStatus : Obligations.StatusPeriodHandsStatus := by
  unfold Obligations.StatusPeriodHandsStatus
  intro s hp htimer run fitted summary head back status hand strokes heads timed w
  have hstatus : s.statusMsg = status := by
    have hseq : s.seqShown = status.seq := by
      simp only [status, State.seqShown]
      cases s.seq.state with
      | running =>
        cases s.ret.unit with
        | none => rfl
        | some u =>
          simp only [Option.map_some, Option.getD_some]
          cases u.kindOfStep <;> rfl
      | _ => rfl
    have hcause : s.seq.state.cause = status.cause := by
      simp only [status]
      cases s.seq.state <;> rfl
    unfold State.statusMsg
    rw [pumpSummary_eq, pumpSummary_eq, balanceFigures_eq, hseq, hcause]
    rfl
  have hw : s.periodHanded = w := by
    unfold State.periodHanded
    rw [hstatus]
    rfl
  have hexec : exec .statusPeriodExpiry s = .next (s.finish w.resyncPeriod) := by
    have hdo : exec .statusPeriodExpiry s =
      .next (s.poweredDo fun s => if s.link.statusTimer.isSome then s.statusPeriodEnd else s) := rfl
    rw [hdo, State.poweredDo, if_pos hp, if_pos htimer, statusPeriodEnd_eq, hw]
  have hmoves : w.resyncPeriod.pending = s.pending := (moves_resyncPeriod w).other.pending
  refine ⟨_, hexec, fun hidle => ?_, finish_settles s _ hmoves⟩
  have hsame : w.resyncPeriod = w := resyncPeriod_idle (s := w) (hidle.imp (fun h k => ?_) id)
  · rw [hsame]
    exact finish_settles s w rfl
  · rw [show w.mode = s.mode from rfl, h] at k
    cases k

end Sys2Proof

/-! JOB_CLEAR (O48). -/

namespace Sys2Proof.Machine

open Host

theorem jobClear_refused {s : State} (h : s.ret.job ≠ .closed) (q : Request) :
    s.jobClear q = s.answer .exchange q .state [] := by
  unfold State.jobClear
  refine if_pos ?_
  rw [bne_iff_ne.mpr h, Bool.or_true]

theorem jobClear_closed {s : State} (hrun : s.mode = .run) (h : s.ret.job = .closed) (q : Request) :
    s.jobClear q = (s.answer .exchange q .done []).clearJob := by
  unfold State.jobClear
  refine if_neg ?_
  rw [inRun_of_mode hrun, h]
  decide

theorem exec_jobClear {rq : ReqHead} {s w : State} (h : s.Serves (requestOf rq 23 []))
    (hw : s.taken.jobClear (requestOf rq 23 []) = w) : exec (.jobClear rq) s = .next (s.finish w) := by
  have hdo : exec (.jobClear rq) s =
    .next (s.poweredDo fun s => s.present (requestOf rq jobClearCode []) fun q s => s.jobClear q) := rfl
  rw [hdo, State.poweredDo, if_pos h.1, present_of_serves h, hw]

/-- A peer's entry keeps its contents but for the credit baselines. -/
theorem noBaselines_contents (l : List PeerEntry) :
    (l.map PeerEntry.noBaselines).map
        (fun p => (p.station, p.stale, p.status, p.claim, p.strokesA.last, p.strokesB.last)) =
      l.map fun p => (p.station, p.stale, p.status, p.claim, p.strokesA.last, p.strokesB.last) :=
  List.map_map

theorem noBaselines_baseline {l : List PeerEntry} {p : PeerEntry} (h : p ∈ l.map PeerEntry.noBaselines) :
    p.strokesA.baseline = false ∧ p.strokesB.baseline = false := by
  obtain ⟨q, -, rfl⟩ := List.mem_map.mp h
  exact ⟨rfl, rfl⟩

theorem settled_of_mode {s : State} (h : s.mode ≠ .run) : s.AlarmsSettled := fun hin =>
  absurd ((inRun_iff s).mp hin) h

end Sys2Proof.Machine

namespace Sys2Proof

open Machine Host

/-- Settles O48: the job's test, and the station that a cleared job leaves in CONFIG. -/
theorem jobClearEmptiesTheRecords : Obligations.JobClearEmptiesTheRecords := by
  unfold Obligations.JobClearEmptiesTheRecords
  refine fun rq s hrun hs hserves => ⟨fun hjob => ?_, fun hjob => ?_⟩
  · exact taken_answered hs (exec_jobClear hserves (jobClear_refused (s := s.taken) hjob _))
  · have hexec := exec_jobClear hserves (jobClear_closed (s := s.taken) hrun hjob _)
    rw [answer_link] at hexec
    obtain ⟨o, himages, houts⟩ := finish_leaves s
      ({ s.taken with link := (s.taken.answer .exchange (requestOf rq 23 []) .done []).link } : State).clearJob rfl
      (settled_of_mode (by simp [State.clearJob]))
    have hmode := o.mode
    have hpeers := o.peers (by decide)
    refine ⟨_, hexec, hmode, o.link (by decide), ?_, o.ret (by decide), ?_, fun p hp => ?_, o.claims (by decide),
      o.thresholds (by decide), fun p => ?_, o.circ (by decide), o.depth (by decide), o.rod (by decide),
      o.seq (by decide), o.spin (by decide), o.strata (by decide), o.billing (by decide), o.alarm (by decide), himages,
      o.pending, o.straps, o.pins (by decide), o.startKind, o.startSource, o.clock (by decide)⟩
    · refine houts.trans (if_neg ?_)
      rw [inRun_iff, hmode]
      simp [State.clearJob]
    · rw [hpeers]
      exact noBaselines_contents s.peers
    · exact noBaselines_baseline (hpeers ▸ hp)
    · have hpumps := o.pumps (by decide)
      unfold State.chan
      rw [hpumps]
      cases p <;> rfl

end Sys2Proof

/-! CONFIG_LOCK (O36): its answers, and the station in RUN with the records of a new job. -/

namespace Sys2Proof.Machine

open Host

/-! ## The inventory's rods (R27) -/

/-- The slot of the initial rack that names a rod. -/
theorem rackSlot_find (it : Items) (id : Nat) :
    ((initialRack it).find? fun p => p.2 == id).map (·.1) =
      (List.range 64).find? fun n => itemGet it Item.rackSlot n != 0 && itemGet it Item.rackSlot n == id := by
  unfold initialRack
  rw [List.find?_filter, List.find?_map, Option.map_map]
  simp only [Function.comp_def, Bool.decide_and, Bool.decide_eq_true]
  exact congrFun Option.map_id _

theorem lockedRods_eq (it : Items) :
    (inventory it).map (fun p => lockedRod it p.1 p.2) =
      ((List.range (itemGet it Item.inventoryCount 0)).map (· + 1)).map (fun k =>
        let id := itemGet it Item.inventoryRod k
        let slot := (List.range 64).find? fun n => itemGet it Item.rackSlot n != 0 && itemGet it Item.rackSlot n == id
        { id := id
          type := itemGet it Item.inventoryType k
          turns := itemGet it Item.inventoryTurns k
          state := if slot.isSome then RodState.rack else .offRig
          due := decide (itemGet it Item.typeWear (itemGet it Item.inventoryType k) * 1000 ≤ itemGet it Item.inventoryTurns k)
          slot := slot }) := by
  unfold inventory
  rw [List.map_map, List.map_map]
  refine List.map_congr_left fun k _ => ?_
  simp only [Function.comp, lockedRod, rackSlot_find]

/-- The records of a new job, field by field, with the digest computed (R25, R27). -/
theorem lockedRetained_eq (it : Items) (r : Recorded) :
    ∃ digest, digest = configDigest it ∧
      lockedRetained it r =
        { Retained.cold with
          recorded := some r
          items := it
          digest := digest
          hole := itemGet it Item.collarDepth 0
          rods := (inventory it).map fun p => lockedRod it p.1 p.2
          job := .opened } :=
  ⟨_, rfl, by unfold lockedRetained; with_reducible rfl⟩

/-! ## The head found homed (R86, R88) -/

theorem homedCall_eq {s : State} (hrun : s.mode = .run) (hhead : s.depth.headKnown = true → s.straps.head = true)
    (hfree : s.depth.holdoff = none) :
    s.homedCall =
      if s.depth.headKnown then
        { s with
          link := s.handHead.link
          depth := { s.depth with holdoff := some 200, lastHanded := some s.depth.h } }
      else s := by
  unfold State.homedCall State.headCall
  by_cases h : s.depth.headKnown = true
  · rw [if_pos h, if_pos h, inRun_of_mode hrun, hhead h, hfree]
    rfl
  · rw [if_neg h, if_neg h]

/-! ## The station a lock makes (R27) -/

/-- The station a lock makes with the balance record that it hears (R70, R85). -/
def State.lockHeard (s : State) : State :=
  if s.lockEntered.isPit then s.lockEntered else s.lockEntered.setHeard s.lockEntered.heardFromPeers

/-- The station a lock makes once its blocks stand, before the call of a head found homed. -/
def State.lockFormed (s : State) : State :=
  ({ s.lockHeard with rod := { RodUnit.start with sure := true, source := s.lockHeard.chooseRod } } : State).formDepth

theorem lockCalled_homed (s : State) : s.lockCalled = s.lockFormed.homedCall := rfl

theorem setHeard_eq (s : State) (n : Heard) :
    s.setHeard n =
      { s with
        ret := { s.ret with balState := n.state, lost := n.lost, gained := n.gained, water := n.water }
        circ := { s.circ with heardReturn := n.ret, heardSource := n.source, heardStale := n.stale } } := rfl

/-- What a lock hears of the balance: nothing at the pit station. -/
theorem lockHeard_eq (s : State) :
    ∃ (heard : BalState × Nat × Nat × Nat) (circ : CircUnit),
      (s.isPit = true → heard = (.suspended, 0, 0, 0) ∧ circ = s.lockEntered.circ) ∧
      s.lockHeard = { s.lockEntered with
        ret := { s.lockEntered.ret with
          balState := heard.1
          lost := heard.2.1
          gained := heard.2.2.1
          water := heard.2.2.2 }
        circ := circ } := by
  unfold State.lockHeard
  by_cases h : s.isPit = true
  · let r := s.lockEntered.ret
    have hret : r = { r with balState := r.balState, lost := r.lost, gained := r.gained, water := r.water } := rfl
    refine ⟨(r.balState, r.lost, r.gained, r.water), s.lockEntered.circ, fun _ => ⟨rfl, rfl⟩, (if_pos h).trans ?_⟩
    rw [← hret]
  · let n := s.lockEntered.heardFromPeers
    exact ⟨(n.state, n.lost, n.gained, n.water),
      { s.lockEntered.circ with heardReturn := n.ret, heardSource := n.source, heardStale := n.stale },
      fun k => absurd k h, (if_neg h).trans (setHeard_eq s.lockEntered n)⟩

theorem lockHeard_leaves (s : State) : LeavesOther [.ret, .circ] s.lockEntered s.lockHeard := by
  unfold State.lockHeard
  split
  · exact .refl _ _
  · exact (moves_setHeard _ _).other

theorem lockFormed_leaves (s : State) : LeavesOther [.rod, .depth] s.lockHeard s.lockFormed :=
  (moves_rod s.lockHeard { RodUnit.start with sure := true, source := s.lockHeard.chooseRod }).other.after
    (q := [.depth]) (moves_depth _ _).other (by decide) (by decide)

/-- The depth unit of a lock, but for the bit depth formed. -/
theorem lockFormed_depth (s : State) :
    s.lockFormed.depth.h = (if s.straps.head && s.pins.topLimit then itemGet s.ret.items Item.mastTravel 0 else s.depth.h) ∧
      s.lockFormed.depth.headKnown = (s.straps.head && s.pins.topLimit) ∧ s.lockFormed.depth.holdoff = none ∧
      s.lockFormed.depth.wear = none ∧ s.lockFormed.depth.lastHanded = s.depth.lastHanded := by
  have hkept : s.lockFormed.depth.h = s.lockHeard.depth.h ∧
      s.lockFormed.depth.headKnown = s.lockHeard.depth.headKnown ∧
      s.lockFormed.depth.holdoff = s.lockHeard.depth.holdoff ∧ s.lockFormed.depth.wear = s.lockHeard.depth.wear ∧
      s.lockFormed.depth.lastHanded = s.lockHeard.depth.lastHanded := ⟨rfl, rfl, rfl, rfl, rfl⟩
  rw [(lockHeard_leaves s).depth (by decide)] at hkept
  exact hkept

theorem lockCalled_eq (s : State) :
    s.lockCalled =
      if s.lockFormed.depth.headKnown then
        { s.lockFormed with
          link := s.lockFormed.handHead.link
          depth := { s.lockFormed.depth with holdoff := some 200, lastHanded := some s.lockFormed.depth.h } }
      else s.lockFormed := by
  obtain ⟨-, hknown, hfree, -, -⟩ := lockFormed_depth s
  have hleaves := (lockHeard_leaves s).trans (lockFormed_leaves s)
  rw [lockCalled_homed]
  refine homedCall_eq hleaves.mode (fun hk => ?_) hfree
  rw [hknown, Bool.and_eq_true] at hk
  rw [hleaves.straps]
  exact hk.1

/-- The call of a homed head leaves the station but for the depth and link units. -/
theorem lockCalled_leaves (s : State) : LeavesOther [.depth, .link] s.lockFormed s.lockCalled := by
  rw [lockCalled_homed]
  unfold State.homedCall
  split
  · exact (moves_headCall _).other
  · exact .refl _ _

/-- What a lock adds to the station its blocks stand in: the collar's interval and the call of a homed head. -/
theorem lock_leavesFormed (s : State) : LeavesOther [.ret, .depth, .link] s.lockFormed s.lock := by
  rw [lock_eq]
  split
  · have hlog := (moves_ret s.lockCalled { s.lockCalled.ret with
      intervals := [s.lockCalled.newInterval
        (s.lockCalled.cfg Item.collarDepth 0 / s.lockCalled.cfg Item.intervalLength 0)] } (.of_eq rfl rfl rfl rfl)).other
    exact (lockCalled_leaves s).after hlog (by decide) (by decide)
  · exact (lockCalled_leaves s).mono (by decide)

theorem lock_depthCalled (s : State) : s.lock.depth = s.lockCalled.depth := by
  rw [lock_eq]
  split <;> rfl

/-- What stands in the station a lock makes as its entry to RUN left it. -/
theorem lock_leaves (s : State) : LeavesOther [.ret, .circ, .rod, .depth, .link] s.lockEntered s.lock :=
  ((lockHeard_leaves s).trans (lockFormed_leaves s)).after (lock_leavesFormed s) (by decide) (by decide)

/-- The retained state a lock makes (R27): at the pit station the balance is not heard. -/
theorem lock_ret (s : State) :
    ∃ (heard : BalState × Nat × Nat × Nat) (log : List Interval), (s.isPit = true → heard = (.suspended, 0, 0, 0)) ∧
      (s.straps.record = false → log = []) ∧
      (s.straps.record = true → ∃ iv, log = [iv] ∧
        iv.index = itemGet s.ret.items Item.collarDepth 0 / itemGet s.ret.items Item.intervalLength 0 ∧
          iv.closedTime = none) ∧
      s.lock.ret = { lockedRetained s.ret.items s.straps.recorded with
        balState := heard.1
        lost := heard.2.1
        gained := heard.2.2.1
        water := heard.2.2.2
        intervals := log } := by
  obtain ⟨heard, circ, hpit, h⟩ := lockHeard_eq s
  have hret : s.lockCalled.ret = { lockedRetained s.ret.items s.straps.recorded with
      balState := heard.1, lost := heard.2.1, gained := heard.2.2.1, water := heard.2.2.2 } := by
    rw [(lockCalled_leaves s).ret (by decide), (lockFormed_leaves s).ret (by decide), h]
    rfl
  have hstraps : s.lockCalled.straps = s.straps := by
    rw [(lockCalled_leaves s).straps, (lockFormed_leaves s).straps, (lockHeard_leaves s).straps]
    rfl
  have hitems : s.lockCalled.ret.items = s.ret.items := by
    rw [hret]
    rfl
  rw [lock_eq, hstraps]
  by_cases hrec : s.straps.record = true
  · rw [if_pos hrec]
    refine ⟨heard, [s.lockCalled.newInterval
      (s.lockCalled.cfg Item.collarDepth 0 / s.lockCalled.cfg Item.intervalLength 0)], fun k => (hpit k).1, fun k => ?_,
      fun _ => ⟨s.lockCalled.newInterval _, rfl, ?_, rfl⟩, ?_⟩
    · rw [hrec] at k
      cases k
    · show itemGet s.lockCalled.ret.items _ _ / itemGet s.lockCalled.ret.items _ _ = _
      rw [hitems]
    · rw [hret]
  · rw [if_neg hrec]
    exact ⟨heard, [], fun k => (hpit k).1, fun _ => rfl, fun k => absurd k hrec, hret⟩

theorem lock_depth (s : State) :
    let homed := s.straps.head = true ∧ s.pins.topLimit = true
    let travel := itemGet s.ret.items Item.mastTravel 0
    s.lock.depth.h = (if homed then travel else s.depth.h) ∧ s.lock.depth.headKnown = decide homed ∧
      s.lock.depth.holdoff = (if homed then some 200 else none) ∧ s.lock.depth.wear = none ∧
      s.lock.depth.lastHanded = (if homed then some travel else s.depth.lastHanded) := by
  intro homed travel
  obtain ⟨hh, hknown, hholdoff, hwear, hlast⟩ := lockFormed_depth s
  rw [lock_depthCalled, lockCalled_eq]
  by_cases h : homed
  · have hb : (s.straps.head && s.pins.topLimit) = true := Bool.and_eq_true_iff.mpr h
    rw [hb] at hknown hh
    rw [if_pos hknown, if_pos h, if_pos h, if_pos h, decide_eq_true h]
    exact ⟨hh, hknown, rfl, hwear, congrArg some hh⟩
  · have hb : (s.straps.head && s.pins.topLimit) = false := Bool.eq_false_iff.mpr fun k => h (Bool.and_eq_true_iff.mp k)
    rw [hb] at hknown hh
    rw [if_neg (by rw [hknown]; decide), if_neg h, if_neg h, if_neg h, decide_eq_false h]
    exact ⟨hh, hknown, hholdoff, hwear, hlast⟩

theorem lock_circ {s : State} (h : s.isPit = true) :
    s.lock.circ = { CircUnit.start with heardSource := some s.straps.number, evalTimer := some 2000 } := by
  obtain ⟨heard, circ, hpit, hheard⟩ := lockHeard_eq s
  rw [(lock_leavesFormed s).circ (by decide), (lockFormed_leaves s).circ (by decide), hheard]
  refine (hpit h).2.trans ?_
  show ({ CircUnit.config s.isPit s.straps.number with evalTimer := if s.isPit then some 2000 else none } : CircUnit) = _
  rw [h]
  rfl

theorem lock_sure (s : State) : s.lock.rod.sure = true := by
  rw [(lock_leavesFormed s).rod (by decide)]
  rfl

section

variable {s : State} (hconfig : ¬s.inRun = true)
include hconfig

theorem serveConfigLock_fails {code i : Nat} (h : lockFails s.ret.items = some (code, i)) (q : Request) :
    serveConfigLock q s = ⟨s, .range, [byteOf code, byteOf i]⟩ := by
  unfold serveConfigLock
  rw [if_neg hconfig]
  split
  next c j hf => cases hf.symm.trans h; rfl
  next hf => cases hf.symm.trans h

theorem serveConfigLock_passes (h : lockFails s.ret.items = none) (q : Request) : serveConfigLock q s = s.lock.done := by
  unfold serveConfigLock
  rw [if_neg hconfig]
  split
  next c j hf => cases hf.symm.trans h
  next hf => rfl

end

end Sys2Proof.Machine

namespace Sys2Proof

open Machine Host

/-- Settles O36: the lock's refusals, then the station in RUN, part by part. -/
theorem configLockOpensTheJob : Obligations.ConfigLockOpensTheJob := by
  unfold Obligations.ConfigLockOpensTheJob
  intro rq s hserves hs it
  have answered := fun {w result data} => exec_of_gate_open (g := fun _ => ⟨true, 0, true⟩) (f := serveConfigLock)
    (i := .configLock rq) (r := ⟨w, result, data⟩) rfl hserves rfl (Nat.zero_le _) (.inr rfl)
  have hconfig : s.mode = .config → ¬s.taken.inRun = true := fun hmode h => by
    rw [inRun_iff, show s.taken.mode = s.mode from rfl, hmode] at h
    cases h
  refine ⟨fun hrun => ?_, fun code i hmode hfails => ?_, fun hmode hfails => ?_⟩
  · exact taken_answered hs (answered (if_pos ((inRun_iff _).mpr hrun)))
  · exact taken_answered hs (answered (serveConfigLock_fails (s := s.taken) (hconfig hmode) hfails _))
  · have hserved := serveConfigLock_passes (s := s.taken) (hconfig hmode) hfails (requestOf rq 3 [])
    have hexec := answered (w := s.taken.lock) (result := .done) (data := []) hserved
    have hanswer := (moves_answer s.taken.lock .exchange (requestOf rq 0 []) .done []).other
    have hl := (lock_leaves s.taken)
    have hpending : (s.taken.lock.replied .exchange rq .done []).pending = s.pending :=
      hanswer.pending.trans hl.pending
    obtain ⟨⟨o, himages, houts⟩, -, -⟩ := finish_settles s _ hpending
    have ha := hanswer.trans o
    have hall := hl.trans ha
    have hret := ha.ret (by decide)
    have hdepth := ha.depth (by decide)
    obtain ⟨heard, log, hheard, hnolog, hlog, hlocked⟩ := lock_ret s.taken
    obtain ⟨digest, hdigest, hnew⟩ := lockedRetained_eq s.ret.items s.straps.recorded
    obtain ⟨hh, hknown, hholdoff, hwear, hlast⟩ := lock_depth s.taken
    have htret := hret.trans hlocked
    rw [show lockedRetained s.taken.ret.items s.taken.straps.recorded = _ from hnew] at htret
    have hchan : ∀ p, (s.finish (s.taken.lock.replied .exchange rq .done [])).chan p = s.taken.lockEntered.chan p :=
      chan_congr (hall.pumps (by decide))
    refine ⟨s.finish (s.taken.lock.replied .exchange rq .done []), hexec, hall.mode, hall.straps, hall.pins (by decide),
      o.pending.trans hpending, hall.startKind, hall.startSource, houts, himages, ⟨heard, hheard, ?_⟩, ?_, ?_, ?digest, ?_, ?_,
      ?_, ?_, ?_, ?_, ?_, ?rods, ?_, ?_, ?_, ?_, ?_, ?_, ?_, ?_, fun hn => ?unlogged, fun hr => ?logged,
      (congrArg RodUnit.sure (ha.rod (by decide))).trans (lock_sure _), hall.claims (by decide), hall.seq (by decide),
      hall.spin (by decide), congrArg BillingUnit.jobTimer (hall.billing (by decide)), fun p => ?chan,
      hdepth ▸ ⟨hh, hknown, hholdoff, hwear, hlast⟩,
      fun hpit => (ha.circ (by decide)).trans (lock_circ (s := s.taken) hpit), fun p hp => ?peers⟩
    case chan => rw [hchan]; cases p <;> rfl
    case peers =>
      rw [hall.peers (by decide)] at hp
      exact noBaselines_baseline hp
    all_goals rw [htret]
    case unlogged => exact hnolog hn
    case logged => exact hlog hr
    case rods => exact lockedRods_eq _
    case digest => exact hdigest
    all_goals rfl

end Sys2Proof

/-! WARM starts (O12): the open interval, the completed close, then the blocks of a WARM start in their order. -/

namespace Sys2Proof.Machine

open Host

/-! ## The open interval (R128) -/

/-- An interval is the open one: the last record, while it is not closed. -/
def Retained.IsOpen (r : Retained) (iv : Interval) : Prop :=
  ∃ op, r.intervals.getLast? = some op ∧ op.closedTime = none ∧ iv.index = op.index

theorem openInterval_eq_some {s : State} {op : Interval} :
    s.openInterval = some op ↔ s.ret.intervals.getLast? = some op ∧ op.closedTime = none := by
  unfold State.openInterval
  rw [Option.bind_eq_some_iff]
  constructor
  · rintro ⟨iv, hlast, h⟩
    split at h
    · next hopen =>
      obtain rfl := Option.some.inj h
      exact ⟨hlast, Option.isNone_iff_eq_none.mp hopen⟩
    · cases h
  · rintro ⟨hlast, hopen⟩
    exact ⟨op, hlast, by rw [hopen]; rfl⟩

theorem mapOpen_eq (s : State) (f : Interval → Interval) {P : Interval → Prop} [∀ iv, Decidable (P iv)]
    (hP : ∀ iv, P iv ↔ s.ret.IsOpen iv) :
    s.mapOpen f =
      { s with ret := { s.ret with intervals := s.ret.intervals.map fun iv => if P iv then f iv else iv } } := by
  unfold State.mapOpen
  cases hop : s.openInterval with
  | some op =>
    obtain ⟨hlast, hopen⟩ := openInterval_eq_some.mp hop
    have hiff : ∀ iv, P iv ↔ iv.index = op.index := fun iv => by
      rw [hP]
      constructor
      · rintro ⟨op', hlast', -, h⟩
        rwa [Option.some.inj (hlast'.symm.trans hlast)] at h
      · exact fun h => ⟨op, hlast, hopen, h⟩
    simp only [hiff]
    rfl
  | none =>
    have hnone : ∀ iv, ¬P iv := fun iv h => by
      obtain ⟨op, hlast, hopen, -⟩ := (hP iv).mp h
      exact Option.some_ne_none op ((openInterval_eq_some.mpr ⟨hlast, hopen⟩).symm.trans hop)
    have hsame : (s.ret.intervals.map fun iv => if P iv then f iv else iv) = s.ret.intervals :=
      (List.map_congr_left fun iv _ => if_neg (hnone iv)).trans (List.map_id' _)
    rw [hsame]

/-! ## A completed close (R159) -/

/-- The statement of a close (R159, step 2). -/
def State.closingStatement (s : State) : Statement := s.checkCeiling.liveStatement

/-- A completed close: the ceiling checked, the statement frozen, the CLOSE mark, the job CLOSED. -/
theorem finishClose_eq (s : State) (kind : CloseKind) :
    s.finishClose kind =
      { s with
        ret := { s.ret with
          overCeiling := s.ret.overCeiling || ceilingReached (s.cfg Item.ceiling 0) s.total
          frozen := some s.closingStatement
          zones :=
            if s.ret.zones.length < 96 then
              s.ret.zones ++ [ZoneEntry.mark .close s.ret.hole s.ret.jobTime (if kind = .normal then 0 else 1)]
            else s.ret.zones
          unrecorded := if s.ret.zones.length < 96 then s.ret.unrecorded else min 65535 (s.ret.unrecorded + 1)
          job := .closed
          close := .complete }
        billing := ⟨none, ceilingNear (s.cfg Item.ceiling 0) s.total, ceilingReached (s.cfg Item.ceiling 0) s.total⟩
        pumps := ⟨s.pumps.a.jobClosed, s.pumps.b.jobClosed⟩ } := by
  unfold State.finishClose
  rw [appendMark_eq]
  rfl

/-- A RECORD station in CLOSING has nothing left to wait for (R159). -/
def State.Completes (s : State) : Prop :=
  s.strataOn = true ∧ s.ret.job = .closing ∧ s.ret.lag = [] ∧ s.zoneOpen = false

theorem completionTest_cond (s : State) :
    (s.strataOn && s.ret.job == .closing && s.ret.lag.isEmpty && !s.zoneOpen) = true ↔ s.Completes := by
  simp only [State.Completes, Bool.and_eq_true, beq_iff_eq, List.isEmpty_iff, Bool.not_eq_true', and_assoc]

theorem completionTest_closes {s : State} (h : s.Completes) : s.completionTest = s.finishClose .normal :=
  if_pos ((completionTest_cond s).mpr h)

theorem completionTest_waits {s : State} (h : ¬s.Completes) : s.completionTest = s :=
  if_neg (mt (completionTest_cond s).mp h)

/-! ## Zones closed (R139) -/

theorem closeBut_none (hole time : Nat) (z : ZoneEntry) :
    ZoneEntry.closeBut none hole time z =
      match z with
      | .zone k top none opened _ v => ZoneEntry.zone k top (some hole) opened (some time) v
      | z => z := by
  cases z with
  | mark => rfl
  | zone k top bottom opened closed v => cases bottom <;> rfl

theorem closeBut_none_openKind (hole time : Nat) (z : ZoneEntry) :
    (ZoneEntry.closeBut none hole time z).openKind = none := by
  cases z with
  | mark => rfl
  | zone k top bottom opened closed v => cases bottom <;> rfl

theorem zoneOpen_eq_false {s : State} (h : ∀ z ∈ s.ret.zones, z.openKind = none) : s.zoneOpen = false := by
  unfold State.zoneOpen
  rw [List.any_eq_false]
  intro z hz
  rw [h z hz]
  decide

end Sys2Proof.Machine

/-! WARM starts (O12): the blocks of a WARM start in their order. -/

namespace Sys2Proof.Machine

open Host

/-! ## The own claim and the sequencer (R43, R125) -/

theorem warmClaim_interrupted {s : State} (hphase : s.ret.claim.phase = .active) (hunit : s.ret.unit.isSome = true) :
    s.warmClaim.ret = s.ret ∧ s.warmClaim.seq.state = .hold .interrupted ∧
      s.warmClaim.claims = { s.claims with takeRequest := true } := by
  obtain ⟨u, hu⟩ := Option.isSome_iff_exists.mp hunit
  unfold State.warmClaim
  rw [hphase, hu]
  refine ⟨(moves_announceClaim _).other.ret (by decide), ?_, ?_⟩
  · exact congrArg Sequencer.state ((moves_announceClaim _).other.seq (by decide))
  · exact (moves_announceClaim _).other.claims (by decide)

theorem warmClaim_dropped {s : State} (h : s.ret.claim.phase ≠ .active ∨ s.ret.unit = none) :
    s.warmClaim.ret = { s.ret with claim := .absent, unit := none } ∧ s.warmClaim.seq.state = s.seq.state ∧
      s.warmClaim.claims = s.claims := by
  unfold State.warmClaim
  split
  · next u hphase hunit => exact h.elim (absurd hphase) fun k => nomatch hunit.symm.trans k
  · next hphase hunit =>
    have ho := (moves_announceClaim ({ s with ret := { s.ret with claim := .absent } } : State)).other
    refine ⟨(ho.ret (by decide)).trans ?_, congrArg Sequencer.state (ho.seq (by decide)), ho.claims (by decide)⟩
    rw [← hunit]
  · exact ⟨rfl, rfl, rfl⟩
  · next hunit _ =>
    refine ⟨?_, rfl, rfl⟩
    rw [← hunit]

theorem warmClaim_lastOp {s : State} {u : UnitRec} (hphase : s.ret.claim.phase ≠ .active) (hunit : s.ret.unit = some u) :
    s.warmClaim.seq.lastOp = some ⟨u.kind, .dropped, none, none⟩ := by
  unfold State.warmClaim
  rw [hunit]
  cases hp : s.ret.claim.phase with
  | active => exact absurd hp hphase
  | none => rfl
  | pending => rfl

theorem keeps_announceClaim (s : State) : s.link.Keeps s.announceClaim.link :=
  keeps_handOver s.linkEnv .urgent _ s.link

theorem warmClaim_link (s : State) : s.link.Keeps s.warmClaim.link := by
  unfold State.warmClaim
  split
  · exact keeps_announceClaim { s with
      seq := { s.seq with state := .hold .interrupted }, claims := { s.claims with takeRequest := true } }
  · exact keeps_announceClaim { s with ret := { s.ret with claim := .absent } }
  · exact .refl _
  · exact .refl _

theorem keeps_headCall (s : State) : s.link.Keeps s.headCall.link := by
  obtain h | ⟨f, h⟩ := headCall_link s
  · rw [h]
    exact .refl _
  · rw [h]
    exact keeps_handOver _ _ _ _

/-! ## The strata record (R144) -/

/-- An entry joins the list of zones, or is counted as unrecorded (R138). -/
def zoneEntered (z : ZoneEntry) (l : List ZoneEntry × Nat) : List ZoneEntry × Nat :=
  if l.1.length < 96 then (l.1 ++ [z], l.2) else (l.1, min 65535 (l.2 + 1))

theorem zoneEntered_eq (z : ZoneEntry) (zs : List ZoneEntry) (n : Nat) :
    (if zs.length < 96 then zs ++ [z] else zs, if zs.length < 96 then n else min 65535 (n + 1)) =
      zoneEntered z (zs, n) := by
  unfold zoneEntered
  by_cases h : zs.length < 96
  · rw [if_pos h, if_pos h, if_pos h]
  · rw [if_neg h, if_neg h, if_neg h]

/-- The zones and the unrecorded count with the gap of a WARM start marked. -/
def State.gapZones (s : State) : List ZoneEntry × Nat :=
  zoneEntered (.mark .powerGap s.ret.hole s.ret.jobTime s.startSource.code)
    (s.ret.zones.map (ZoneEntry.closeBut none s.ret.hole s.ret.jobTime), s.ret.unrecorded)

/-- An interval with the flags of a WARM start. -/
def State.gapped (s : State) (iv : Interval) : Interval :=
  { iv with flags := { iv.flags with
      afterWarm := true
      depthUnsure := iv.flags.depthUnsure || !s.viewSure || s.depth.bitDepth.isNone } }

theorem warmStrata_off {s : State} (h : s.strataOn = false) : s.warmStrata = s :=
  if_neg (by rw [h]; decide)

theorem warmStrata_on {s : State} (h : s.strataOn = true) {P : Interval → Prop} [∀ iv, Decidable (P iv)]
    (hP : ∀ iv, P iv ↔ s.ret.IsOpen iv) :
    s.warmStrata =
      { s with ret := { s.ret with
        zones := s.gapZones.1
        unrecorded := s.gapZones.2
        intervals := s.ret.intervals.map fun iv => if P iv then s.gapped iv else iv } } := by
  have hmark : (s.closeZones none).appendMark .powerGap s.startSource.code =
      { s with ret := { s.ret with zones := s.gapZones.1, unrecorded := s.gapZones.2 } } := by
    rw [appendMark_eq]
    have hpair := zoneEntered_eq (.mark .powerGap s.ret.hole s.ret.jobTime s.startSource.code)
      (s.ret.zones.map (ZoneEntry.closeBut none s.ret.hole s.ret.jobTime)) s.ret.unrecorded
    have hz := congrArg Prod.fst hpair
    have hn := congrArg Prod.snd hpair
    unfold State.gapZones
    rw [← hz, ← hn]
    rfl
  unfold State.warmStrata
  rw [if_pos h]
  dsimp only
  rw [hmark]
  exact mapOpen_eq _ _ (P := P) hP

theorem gapZones_closed (s : State) : ∀ z ∈ s.gapZones.1, z.openKind = none := by
  intro z hz
  have hcases : z ∈ s.ret.zones.map (ZoneEntry.closeBut none s.ret.hole s.ret.jobTime) ∨
      z = .mark .powerGap s.ret.hole s.ret.jobTime s.startSource.code := by
    unfold State.gapZones zoneEntered at hz
    split at hz
    · simpa using hz
    · exact .inl hz
  obtain h | rfl := hcases
  · obtain ⟨y, -, rfl⟩ := List.mem_map.mp h
    exact closeBut_none_openKind _ _ y
  · rfl

/-! ## The close under way (R159, R161, R165) -/

/-- The zones and the unrecorded count with the CLOSE mark of a normal close. -/
def State.closeMarked (s : State) : List ZoneEntry × Nat :=
  zoneEntered (.mark .close s.ret.hole s.ret.jobTime 0) (s.ret.zones, s.ret.unrecorded)

/-- The retained state of a completed close. -/
def State.closeRet (s : State) : Retained :=
  { s.ret with
    overCeiling := s.ret.overCeiling || ceilingReached (s.cfg Item.ceiling 0) s.total
    frozen := some s.closingStatement
    zones := s.closeMarked.1
    unrecorded := s.closeMarked.2
    job := .closed
    close := .complete }

theorem finishClose_normal (s : State) :
    (s.finishClose .normal).ret = s.closeRet ∧ (s.finishClose .normal).billing.jobTimer = none := by
  rw [finishClose_eq]
  refine ⟨?_, rfl⟩
  have hpair := zoneEntered_eq (.mark .close s.ret.hole s.ret.jobTime 0) s.ret.zones s.ret.unrecorded
  have hz := congrArg Prod.fst hpair
  have hn := congrArg Prod.snd hpair
  unfold State.closeRet State.closeMarked
  rw [← hz, ← hn]
  rfl

/-- Billing at a RECORD station whose job runs: the ceiling is checked, and a close with nothing left to wait for is
complete. -/
theorem warmBilling_record {s : State} (hrec : s.straps.record = true) (hjob : s.ret.job ≠ .closed) :
    s.warmBilling = s.checkCeiling.completionTest := by
  unfold State.warmBilling
  rw [if_pos hrec]
  split
  · next h _ => exact absurd h hjob
  · next h _ => exact absurd h hjob
  · rfl

theorem warmBilling_closed {s : State} (hrec : s.straps.record = true) (hjob : s.ret.job = .closed) :
    s.warmBilling.ret = s.ret ∧ s.warmBilling.billing.jobTimer = s.billing.jobTimer := by
  unfold State.warmBilling
  rw [if_pos hrec]
  split
  · exact ⟨rfl, rfl⟩
  · exact ⟨rfl, rfl⟩
  · next hsome hnone =>
    cases hf : s.ret.frozen with
    | none => exact (hnone hjob hf).elim
    | some f => exact (hsome f hjob hf).elim

theorem peersClosed_of_nil {s : State} (h : s.peers = []) : s.peersClosed = true := by
  unfold State.peersClosed
  rw [h]
  rfl

theorem peerCloseTest_closes {s : State} (hrun : s.mode = .run) (hrec : s.straps.record = false)
    (hjob : s.ret.job = .closing) (hpeers : s.peersClosed = true) : s.peerCloseTest = s.plainClose .normal :=
  if_pos (by rw [inRun_of_mode hrun, hrec, hjob, hpeers]; decide)

theorem peerCloseTest_waits {s : State} (h : s.ret.job ≠ .closing ∨ s.peersClosed = false) : s.peerCloseTest = s := by
  refine if_neg fun k => ?_
  simp only [Bool.and_eq_true, beq_iff_eq] at k
  obtain ⟨⟨-, hjob⟩, hpeers⟩ := k
  exact h.elim (· hjob) fun hno => Bool.false_ne_true (hno.symm.trans hpeers)

theorem strataOn_iff {s : State} (hrun : s.mode = .run) :
    s.strataOn = true ↔ s.straps.record = true ∧ (s.ret.job = .opened ∨ s.ret.job = .closing) := by
  simp only [State.strataOn, inRun_of_mode hrun, Bool.true_and, Bool.and_eq_true, Bool.or_eq_true, beq_iff_eq]

/-! ## Strata and billing together -/

/-- What a WARM start leaves of a close under way (R159, R161). -/
structure WarmClosed (e w : State) : Prop where
  waits : ¬(e.ret.job = .closing ∧ (e.straps.record = true → e.ret.lag = [])) →
    w.ret.job = e.ret.job ∧ w.ret.close = e.ret.close ∧ w.ret.closeKind = e.ret.closeKind ∧
      w.ret.frozen = e.ret.frozen ∧ (w.ret.zones, w.ret.unrecorded) = (e.ret.zones, e.ret.unrecorded) ∧
      w.billing.jobTimer = e.billing.jobTimer
  closes : e.ret.job = .closing → (e.straps.record = true → e.ret.lag = []) →
    w.ret.job = .closed ∧ w.ret.close = .complete ∧
      w.ret.closeKind = (if e.straps.record then e.ret.closeKind else some .normal) ∧
      (e.straps.record = true → w.ret.frozen.isSome = true ∧ (w.ret.zones, w.ret.unrecorded) = e.closeMarked) ∧
      (e.straps.record = false → (w.ret.zones, w.ret.unrecorded) = (e.ret.zones, e.ret.unrecorded)) ∧
      w.billing.jobTimer = none
  rest : w.ret = { e.ret with
    job := w.ret.job
    close := w.ret.close
    closeKind := w.ret.closeKind
    frozen := w.ret.frozen
    zones := w.ret.zones
    unrecorded := w.ret.unrecorded
    overCeiling := w.ret.overCeiling }

/-- Billing after the strata record has closed its zones. -/
theorem warmBilling_closes {e : State} (hrun : e.mode = .run) (hpeers : e.peers = [])
    (hzones : e.strataOn = true → e.zoneOpen = false) (hjob : e.ret.job ≠ .noJob) : WarmClosed e e.warmBilling := by
  by_cases hrec : e.straps.record = true
  · by_cases hclosed : e.ret.job = .closed
    · obtain ⟨hret, htimer⟩ := warmBilling_closed hrec hclosed
      refine ⟨fun _ => ?_, fun h => ?_, ?_⟩
      · rw [hret]
        exact ⟨rfl, rfl, rfl, rfl, rfl, htimer⟩
      · rw [hclosed] at h
        cases h
      · rw [hret]
    · rw [warmBilling_record hrec hclosed]
      have hon : e.strataOn = true := (strataOn_iff hrun).mpr ⟨hrec, by
        cases hj : e.ret.job with
        | noJob => exact absurd hj hjob
        | opened => exact .inl rfl
        | closing => exact .inr rfl
        | closed => exact absurd hj hclosed⟩
      by_cases hdone : e.ret.job = .closing ∧ e.ret.lag = []
      · have hcompletes : e.checkCeiling.Completes := ⟨hon, hdone.1, hdone.2, hzones hon⟩
        obtain ⟨hret, htimer⟩ := finishClose_normal e.checkCeiling
        rw [completionTest_closes hcompletes]
        refine ⟨fun h => absurd ⟨hdone.1, fun _ => hdone.2⟩ h, fun _ _ => ?_, ?_⟩
        · rw [hret, if_pos hrec]
          exact ⟨rfl, rfl, rfl, fun _ => ⟨rfl, rfl⟩, fun h => absurd hrec (by rw [h]; decide), htimer⟩
        · rw [hret]
          rfl
      · rw [completionTest_waits (s := e.checkCeiling) fun h => hdone ⟨h.2.1, h.2.2.1⟩]
        exact ⟨fun _ => ⟨rfl, rfl, rfl, rfl, rfl, rfl⟩, fun hj hl => absurd ⟨hj, hl hrec⟩ hdone, rfl⟩
  · have hplain : e.warmBilling = e.peerCloseTest := if_neg hrec
    have hoff : e.straps.record = false := Bool.eq_false_iff.mpr hrec
    rw [hplain]
    by_cases hclosing : e.ret.job = .closing
    · rw [peerCloseTest_closes hrun hoff hclosing (peersClosed_of_nil hpeers)]
      refine ⟨fun h => absurd ⟨hclosing, fun k => absurd k hrec⟩ h, fun _ _ => ?_, rfl⟩
      rw [if_neg hrec]
      exact ⟨rfl, rfl, rfl, fun h => absurd h hrec, fun _ => rfl, rfl⟩
    · rw [peerCloseTest_waits (.inl hclosing)]
      exact ⟨fun _ => ⟨rfl, rfl, rfl, rfl, rfl, rfl⟩, fun h => absurd h hclosing, rfl⟩

end Sys2Proof.Machine

/-! WARM starts (O12): the statement, from the blocks of a WARM start. -/

namespace Sys2Proof.Machine

open Host

/-- The station a WARM start brings to RUN, its claim settled, its depth formed and its head called. -/
def State.warmCalled (s : State) (r : Retained) : State := (s.warmEntered r).formDepth.homedCall

theorem homedCall_leaves (s : State) : LeavesOther [.depth, .link] s s.homedCall := by
  unfold State.homedCall
  split
  · exact (moves_headCall s).other
  · exact .refl _ s

theorem homedCall_link (s : State) : s.link.Keeps s.homedCall.link := by
  unfold State.homedCall
  split
  · exact keeps_headCall s
  · exact .refl _

theorem formDepth_leaves (s : State) : LeavesOther [.depth] s s.formDepth := (moves_depth s _).other

theorem warmCalled_leaves (s : State) (r : Retained) : LeavesOther [.depth, .link] (s.warmEntered r) (s.warmCalled r) :=
  (formDepth_leaves _).after (homedCall_leaves _) (by decide) (by decide)

theorem warmCalled_link (s : State) (r : Retained) : (s.warmFresh r).link.Keeps (s.warmCalled r).link :=
  (warmClaim_link (s.warmFresh r)).trans (homedCall_link (s.warmEntered r).formDepth)

theorem warmStrata_leaves (s : State) : LeavesOther [.ret] s s.warmStrata := by
  unfold State.warmStrata
  split
  · exact ((moves_mapOpen _ _).last (by decide) <| (moves_appendMark _ _ _).last (by decide) <|
      moves_closeZones s none).other
  · exact .refl _ s

theorem warmBilling_leaves (s : State) : LeavesOther [.ret, .billing, .pumps] s s.warmBilling := by
  unfold State.warmBilling
  split
  · split
    · exact ((moves_billing s _).mono (by decide)).other
    · exact .refl _ s
    · exact ((moves_completionTest _).last (by decide) <| (moves_checkCeiling s).mono (by decide)).other
  · exact (moves_peerCloseTest s).other

theorem warmStrata_zones {s : State} (h : s.warmStrata.strataOn = true) : s.warmStrata.zoneOpen = false := by
  have hon : s.strataOn = true := by
    by_contra hoff
    rw [warmStrata_off (Bool.eq_false_iff.mpr hoff)] at h
    exact hoff h
  classical
  rw [warmStrata_on hon (P := s.ret.IsOpen) fun _ => Iff.rfl]
  exact zoneOpen_eq_false (gapZones_closed s)

/-- The strata record of a WARM start, in the fields it touches. -/
theorem warmStrata_ret (s : State) :
    s.warmStrata.ret = { s.ret with
      zones := s.warmStrata.ret.zones
      unrecorded := s.warmStrata.ret.unrecorded
      intervals := s.warmStrata.ret.intervals } := by
  by_cases hon : s.strataOn = true
  · classical
    rw [warmStrata_on hon (P := s.ret.IsOpen) fun _ => Iff.rfl]
  · rw [warmStrata_off (Bool.eq_false_iff.mpr hon)]

section

variable {s : State} {r : Retained}

theorem warmCalled_ret :
    (s.warmCalled r).ret = { r with
      balState := .suspended
      reference := none
      claim := (s.warmCalled r).ret.claim
      unit := (s.warmCalled r).ret.unit } := by
  obtain ⟨c, u, h⟩ := warmClaim_ret (s.warmFresh r)
  rw [(warmCalled_leaves s r).ret (by decide), show (s.warmEntered r).ret = _ from h]
  rfl

/-- The station is in RUN with its straps, its peers forgotten and its view unsure. -/
theorem warmFresh_leaves (s : State) (r : Retained) :
    LeavesOther [.ret, .link, .seq, .claims, .depth] (s.warmFresh r) (s.warmCalled r) :=
  (warmClaim_leaves _).after (warmCalled_leaves s r) (by decide) (by decide)

theorem warmCalled_claim (hphase : r.claim.phase = .active) (hunit : r.unit.isSome = true) :
    (s.warmCalled r).ret.claim = r.claim ∧ (s.warmCalled r).ret.unit = r.unit ∧
      (s.warmCalled r).seq.state = .hold .interrupted ∧ (s.warmCalled r).claims.takeRequest = true := by
  obtain ⟨hret, hseq, hclaims⟩ := warmClaim_interrupted (s := s.warmFresh r) hphase hunit
  have hl := warmCalled_leaves s r
  rw [hl.ret (by decide), hl.seq (by decide), hl.claims (by decide)]
  refine ⟨?_, ?_, hseq, ?_⟩
  · rw [show (s.warmEntered r).ret = _ from hret]
    rfl
  · rw [show (s.warmEntered r).ret = _ from hret]
    rfl
  · rw [show (s.warmEntered r).claims = _ from hclaims]

theorem warmCalled_unclaimed (h : r.claim.phase ≠ .active ∨ r.unit = none) :
    (s.warmCalled r).ret.claim = Claim.absent ∧ (s.warmCalled r).ret.unit = none ∧
      (s.warmCalled r).seq.state = .idle ∧ (s.warmCalled r).claims.takeRequest = false := by
  obtain ⟨hret, hseq, hclaims⟩ := warmClaim_dropped (s := s.warmFresh r) h
  have hl := warmCalled_leaves s r
  rw [hl.ret (by decide), hl.seq (by decide), hl.claims (by decide)]
  refine ⟨?_, ?_, hseq, ?_⟩
  · rw [show (s.warmEntered r).ret = _ from hret]
  · rw [show (s.warmEntered r).ret = _ from hret]
  · rw [show (s.warmEntered r).claims = _ from hclaims]
    rfl

theorem warmCalled_window (s : State) (r : Retained) :
    (s.warmCalled r).claims.listen = some (3 * itemGet r.items Item.statusPeriod 0) ∧
      (s.warmCalled r).claims.settle = none := by
  have hl := warmCalled_leaves s r
  rw [hl.claims (by decide)]
  by_cases h : r.claim.phase = .active ∧ r.unit.isSome = true
  · obtain ⟨-, -, hclaims⟩ := warmClaim_interrupted (s := s.warmFresh r) h.1 h.2
    rw [show (s.warmEntered r).claims = _ from hclaims]
    exact ⟨rfl, rfl⟩
  · have hdropped : r.claim.phase ≠ .active ∨ r.unit = none := by
      rw [not_and_or, Bool.not_eq_true, Option.isSome_eq_false_iff, Option.isNone_iff_eq_none] at h
      exact h
    obtain ⟨-, -, hclaims⟩ := warmClaim_dropped (s := s.warmFresh r) hdropped
    rw [show (s.warmEntered r).claims = _ from hclaims]
    exact ⟨rfl, rfl⟩

end

end Sys2Proof.Machine

namespace Sys2Proof

open Machine Host

/-- Settles O12: the image's records in RUN, then the claim, the strata record and the close, block by block. -/
theorem warmStartResumesTheJob : Obligations.WarmStartResumesTheJob := by
  unfold Obligations.WarmStartResumesTheJob
  intro src straps s r hpin hgood himage hjob hrec live completes entered closed gapped
  have hcheck : s.check straps src = (s.blank straps src).warmStart r := by
    rw [check_of_goodNumber hgood, himage]
    exact (if_neg hjob).trans (if_pos ((blank_strapsMatch r).mpr hrec))
  have hexec := (exec_start hpin).trans (congrArg Outcome.next (hcheck.trans (warmStart_eq _ r)))
  obtain ⟨b, hb⟩ : ∃ b, b = s.blank straps src := ⟨_, rfl⟩
  obtain ⟨e, he⟩ : ∃ e, e = b.warmCalled r := ⟨_, rfl⟩
  obtain ⟨w, hw⟩ : ∃ w, w = e.warmStrata.warmBilling := ⟨_, rfl⟩
  have hbe : LeavesOther [.ret, .link, .seq, .claims, .depth] (b.warmFresh r) e := he ▸ warmFresh_leaves b r
  have hstrata := warmStrata_leaves e
  have hbilling : LeavesOther [.ret, .billing, .pumps] e.warmStrata w := hw ▸ warmBilling_leaves _
  have hew := hstrata.trans hbilling
  have hmode : e.mode = .run := hbe.mode
  have hstraps : e.straps = straps := hbe.straps.trans (by rw [hb]; rfl)
  have hret : e.ret = { r with
      balState := .suspended, reference := none, claim := e.ret.claim, unit := e.ret.unit } := he ▸ warmCalled_ret
  have hpeers : e.peers = [] := (hbe.peers (by decide)).trans (by rw [hb]; rfl)
  have hvret : e.warmStrata.ret = { r with
      balState := .suspended
      reference := none
      claim := e.ret.claim
      unit := e.ret.unit
      zones := e.warmStrata.ret.zones
      unrecorded := e.warmStrata.ret.unrecorded
      intervals := e.warmStrata.ret.intervals } := by
    refine (warmStrata_ret e).trans ?_
    rw [hret]
  have hvjob : e.warmStrata.ret.job = r.job := by rw [hvret]
  have hvlag : e.warmStrata.ret.lag = r.lag := by rw [hvret]
  have hvstraps : e.warmStrata.straps.record = straps.record := congrArg Straps.record (hstrata.straps.trans hstraps)
  have hclosed : WarmClosed e.warmStrata w := by
    rw [hw]
    exact warmBilling_closes (hstrata.mode.trans hmode) ((hstrata.peers (by decide)).trans hpeers) warmStrata_zones
      (hvjob ▸ hjob)
  obtain ⟨hwaits, hcloses, hrest⟩ := hclosed
  rw [hvjob, hvlag, hvstraps] at hwaits hcloses
  have hwret : w.ret = { r with
      balState := .suspended
      reference := none
      claim := e.ret.claim
      unit := e.ret.unit
      intervals := e.warmStrata.ret.intervals
      job := w.ret.job
      close := w.ret.close
      closeKind := w.ret.closeKind
      frozen := w.ret.frozen
      zones := w.ret.zones
      unrecorded := w.ret.unrecorded
      overCeiling := w.ret.overCeiling } := by
    refine hrest.trans ?_
    rw [hvret]
  have hpending : w.pending = s.pending := (hew.pending.trans hbe.pending).trans (by rw [hb]; rfl)
  have hlive : live ↔ e.strataOn = true := by
    rw [strataOn_iff hmode, hstraps, show e.ret.job = r.job by rw [hret]]
  have o := finish_rest { b with startKind := .warm, ret := r } w (hpending.trans (by rw [hb]; rfl))
  obtain ⟨t, ht⟩ : ∃ t, t = State.finish { b with startKind := .warm, ret := r } w := ⟨_, rfl⟩
  rw [← ht] at o
  have hft := (hbe.trans hew).trans o
  have htret : t.ret = w.ret := o.ret (by decide)
  have hseq : t.seq = e.seq := (o.seq (by decide)).trans (hew.seq (by decide))
  have hclaims : t.claims = e.claims := (o.claims (by decide)).trans (hew.claims (by decide))
  have hlink : (b.warmFresh r).link.Keeps t.link := by
    have hcalled : (b.warmFresh r).link.Keeps e.link := he ▸ warmCalled_link b r
    rw [← hew.link (by decide)] at hcalled
    exact hcalled.trans (ht ▸ keeps_finish _ w)
  have hfresh : (b.warmFresh r).link = { Link.start with statusTimer := some (itemGet r.items Item.statusPeriod 0) } := by
    rw [hb]
    rfl
  have hgap : gapped = e.gapZones := by
    have hsrc : e.startSource.code = if src = .power then 0 else 1 := by
      rw [hbe.startSource.trans (by rw [hb]; rfl : _ = src)]
      cases src <;> rfl
    unfold State.gapZones
    rw [hsrc, hret]
    exact congrArg (fun zs => zoneEntered _ (zs, r.unrecorded)) (List.map_congr_left fun z _ => (closeBut_none _ _ z).symm)
  refine ⟨t, hexec.trans (congrArg Outcome.next (by rw [ht, hw, he, hb]; rfl)), hft.mode, hft.straps.trans (by rw [hb]; rfl),
    hft.startKind, hft.startSource.trans (by rw [hb]; rfl), (hft.pins (by decide)).trans (by rw [hb]; rfl),
    o.pending.trans hpending, ?_, ?_, ?_, ?_, ?_, ?_, ?_, ?_, ?_, ?_, ?_, ?_, ?_, ?_, ?_, ?_, ?_, ?_, ?_, ?_, ?_, ?_, ?_, ?_, ?_, ?_, ?_, ?_, ?_, ?_, ?_, ?_, ?_, ?_, ?_, ?_, ?_, fun hn => ?waits, fun hc => ?closes, ?timer,
    fun hl => ?dead, fun hl => ?living, (hft.peers (by decide)).trans (by rw [hb]; rfl), ?intake, ?outstanding, ?ownSeq,
    ?statusTimer, ?listen, ?settle, fun hphase hunit => ?held, fun hdrop => ?dropped, fun u hphase hunit => ?lastOp⟩
  case waits =>
    obtain ⟨hj, hc, hk, hfz, -, -⟩ := hwaits hn
    rw [htret]
    exact ⟨hj, hc.trans (by rw [hvret]), hk.trans (by rw [hvret]), hfz.trans (by rw [hvret])⟩
  case closes =>
    obtain ⟨hj, hcl, hk, hfz, -, -⟩ := hcloses hc.1 hc.2
    rw [htret]
    exact ⟨hj, hcl, hk.trans (by rw [hvret]), fun h => (hfz h).1⟩
  case timer =>
    have htimer : t.billing.jobTimer = w.billing.jobTimer := congrArg BillingUnit.jobTimer (o.billing (by decide))
    have hentry : e.warmStrata.billing.jobTimer = if r.job = .opened ∨ r.job = .closing then some 1000 else none := by
      rw [(hstrata.billing (by decide)).trans (hbe.billing (by decide))]
      show (if (r.job == .opened || r.job == .closing) = true then some 1000 else none) = _
      simp only [Bool.or_eq_true, beq_iff_eq]
    rw [htimer, htret]
    by_cases hc : completes
    · obtain ⟨hj, -, -, -, -, ht⟩ := hcloses hc.1 hc.2
      rw [ht, hj]
      rfl
    · obtain ⟨hj, -, -, -, -, ht⟩ := hwaits hc
      rw [ht, hentry, hj]
      cases hr : r.job <;> first | rfl | exact absurd hr hjob
  case dead =>
    have hoff : e.strataOn = false := Bool.eq_false_iff.mpr (mt hlive.mpr hl)
    have hsame : e.warmStrata = e := warmStrata_off hoff
    have hpair : (w.ret.zones, w.ret.unrecorded) = (e.ret.zones, e.ret.unrecorded) := by
      by_cases hc : completes
      · obtain ⟨-, -, -, -, hz, -⟩ := hcloses hc.1 hc.2
        rw [hsame] at hz
        exact hz (Bool.eq_false_iff.mpr fun h => hl ⟨h, .inr hc.1⟩)
      · obtain ⟨-, -, -, -, hz, -⟩ := hwaits hc
        rwa [hsame] at hz
    have hzones := congrArg Prod.fst hpair
    have hunrec := congrArg Prod.snd hpair
    rw [htret]
    refine ⟨?_, hzones.trans ?_, hunrec.trans ?_⟩
    · rw [hwret, hsame, hret]
    · rw [hret]
    · rw [hret]
  case living =>
    have hon : e.strataOn = true := hlive.mp hl
    have hview : e.viewSure = straps.rod := by
      unfold State.viewSure
      rw [hstraps, hbe.rod (by decide)]
      exact Bool.or_false _
    have hstrata' := warmStrata_on hon (P := fun iv => ∃ op, r.intervals.getLast? = some op ∧ op.closedTime = none ∧
      iv.index = op.index) fun iv => by rw [hret]; rfl
    have hzones : (e.warmStrata.ret.zones, e.warmStrata.ret.unrecorded) = e.gapZones := by rw [hstrata']
    have hdepth : t.depth.bitDepth = e.depth.bitDepth :=
      congrArg DepthUnit.bitDepth ((o.depth (by decide)).trans (hew.depth (by decide)))
    rw [htret, hgap]
    refine ⟨?_, ?_⟩
    · by_cases hc : completes
      · obtain ⟨-, -, -, hz, -, -⟩ := hcloses hc.1 hc.2
        rw [if_pos hc, (hz hl.1).2]
        have hmark : e.warmStrata.closeMarked = zoneEntered (.mark .close e.warmStrata.ret.hole e.warmStrata.ret.jobTime 0)
          (e.warmStrata.ret.zones, e.warmStrata.ret.unrecorded) := rfl
        rw [hmark, hzones, hvret]
        rfl
      · obtain ⟨-, -, -, -, hz, -⟩ := hwaits hc
        rw [if_neg hc, hz, hzones]
    · rw [hwret, hdepth, ← hview, hstrata', hret]
      rfl
  case intake => rw [hlink.intake, hfresh]; rfl
  case outstanding => rw [hlink.outstanding, hfresh]; rfl
  case ownSeq => rw [hlink.ownSeq, hfresh]; rfl
  case statusTimer => rw [hlink.statusTimer, hfresh]
  case listen => rw [hclaims]; exact he ▸ (warmCalled_window b r).1
  case settle => rw [hclaims]; exact he ▸ (warmCalled_window b r).2
  case held =>
    rw [htret, hwret, hseq, hclaims, he]
    exact warmCalled_claim hphase hunit
  case dropped =>
    rw [htret, hwret, hseq, hclaims, he]
    exact warmCalled_unclaimed hdrop
  case lastOp =>
    rw [hseq, he, (warmCalled_leaves b r).seq (by decide)]
    exact warmClaim_lastOp (s := b.warmFresh r) hphase hunit
  all_goals
    rw [htret, hwret]

end Sys2Proof

/-! Requests to peers (O29): the tag a request takes, and the end of one that is not answered. -/

namespace Sys2Proof.Machine

open Host

/-! ## The tags tried (R13) -/

/-- The tags a request tries, from the tag counter on. -/
def nthTag (counter n : Nat) : Nat := if n = 0 then counter else (counter + n) % 256

theorem nthTag_next (counter n : Nat) : nthTag ((counter + 1) % 256) n = nthTag counter (n + 1) := by
  unfold nthTag
  rw [if_neg (Nat.succ_ne_zero n)]
  split <;> omega

/-- The search stops at the first free tag among those it tries. -/
theorem freeTag_first {held : List Nat} {k counter : Nat} (h : ∃ n, n < k ∧ nthTag counter n ∉ held) :
    freeTag held k counter ∉ held ∧
      ∃ n, n < k ∧ freeTag held k counter = nthTag counter n ∧ ∀ m, m < n → nthTag counter m ∈ held := by
  induction k generalizing counter with
  | zero =>
    obtain ⟨n, hn, -⟩ := h
    exact absurd hn (Nat.not_lt_zero n)
  | succ k ih =>
    unfold freeTag
    by_cases hheld : counter ∈ held
    · rw [if_pos (List.contains_iff_mem.mpr hheld)]
      obtain ⟨n, hn, hfree⟩ := h
      obtain ⟨n', rfl⟩ : ∃ n', n = n' + 1 := Nat.exists_eq_succ_of_ne_zero fun h0 => hfree (by rw [h0]; exact hheld)
      obtain ⟨hfree, n, hn, htag, hbefore⟩ := ih ⟨n', Nat.lt_of_succ_lt_succ hn, by rwa [nthTag_next]⟩
      refine ⟨hfree, n + 1, Nat.succ_lt_succ hn, htag.trans (nthTag_next counter n), fun m hm => ?_⟩
      cases m with
      | zero => exact hheld
      | succ m =>
        rw [← nthTag_next]
        exact hbefore m (Nat.lt_of_succ_lt_succ hm)
    · rw [if_neg (mt List.contains_iff_mem.mp hheld)]
      exact ⟨hheld, 0, Nat.succ_pos k, rfl, fun m hm => absurd hm (Nat.not_lt_zero m)⟩

/-- Fewer than four entries leave one of four tags free. -/
theorem exists_free_tag {held : List Nat} (h : held.length < 4) (counter : Nat) :
    ∃ n, n < 4 ∧ nthTag counter n ∉ held := by
  by_contra hall
  have hin : ∀ n, n < 4 → nthTag counter n ∈ held := fun n hn => by
    by_contra hout
    exact hall ⟨n, hn, hout⟩
  have hnodup : ((List.range 4).map (nthTag counter)).Nodup := by
    refine List.Nodup.map_on (fun a ha b hb heq => ?_) List.nodup_range
    rw [List.mem_range] at ha hb
    unfold nthTag at heq
    split at heq <;> split at heq <;> omega
  have hsub : (List.range 4).map (nthTag counter) ⊆ held := fun t ht => by
    obtain ⟨n, hn, rfl⟩ := List.mem_map.mp ht
    exact hin n (List.mem_range.mp hn)
  have hlen := (hnodup.subperm hsub).length_le
  simp only [List.length_map, List.length_range] at hlen
  omega

theorem nextTag_free {l : Link} (h : l.outstanding.length < 4) :
    (¬∃ o ∈ l.outstanding, o.tag = l.nextTag) ∧
      ∃ n, n < 4 ∧ l.nextTag = nthTag l.tagCounter n ∧ ∀ m, m < n → ∃ o ∈ l.outstanding, o.tag = nthTag l.tagCounter m := by
  have hlen : (l.outstanding.map (·.tag)).length < 4 := by rwa [List.length_map]
  obtain ⟨hfree, n, hn, htag, hbefore⟩ := freeTag_first (exists_free_tag hlen l.tagCounter)
  exact ⟨fun h => hfree (List.mem_map.mpr h), n, hn, htag, fun m hm => List.mem_map.mp (hbefore m hm)⟩

theorem canIssue_of_room {l : Link} (hentry : l.outstanding.length < 4) (hroom : l.count .exchange < 8) :
    l.canIssue = true := by
  have hwait : (l.rodWait.filter fun f => f.eventQueue == .exchange) = [] := by
    rw [List.filter_eq_nil_iff]
    intro f _
    unfold TxFrame.eventQueue
    split <;> decide
  have hfree : l.hasRoom .exchange = true := by
    unfold Link.hasRoom
    rw [hwait]
    exact decide_eq_true hroom
  unfold Link.canIssue
  rw [hfree, Bool.and_true]
  exact decide_eq_true hentry

/-! ## An answer timeout (R13) -/

theorem find_tag {before after : List OutEntry} {o : OutEntry} {tag : Nat} (hbefore : ∀ b ∈ before, b.tag ≠ tag)
    (htag : o.tag = tag) : (before ++ o :: after).find? (fun e => e.tag == tag) = some o := by
  rw [List.find?_append, List.find?_eq_none.mpr fun b hb => by simpa using hbefore b hb, Option.none_or,
    List.find?_cons_of_pos (by simpa using htag)]

theorem dropOutstanding_eq (l : Link) (o : OutEntry) :
    l.dropOutstanding o = { l with outstanding := l.outstanding.filter fun x => decide (x ≠ o) } := by
  unfold Link.dropOutstanding
  rw [List.filter_congr fun x _ => (by rw [Bool.eq_iff_iff, bne_iff_ne, decide_eq_true_iff] : (x != o) = decide (x ≠ o))]

/-- A page request that has timed out is no longer under way (R100). -/
theorem requestEnded_page {s : State} {o : OutEntry} {drop : Bool} (hcode : o.code = 10)
    (hreq : s.rod.resync.request = .sent o.dest o.tag drop) :
    s.requestEnded o none = { s with rod := { s.rod with resync := { s.rod.resync with request := .none } } } := by
  unfold State.requestEnded
  rw [if_neg (by rw [hcode]; decide), hreq]
  refine (if_pos ⟨rfl, rfl⟩).trans ?_
  unfold State.pageEnded
  exact ite_self _

theorem stepDone_of_phase {s : State} (h : s.seq.phase ≠ .ending) : s.stepDone = false := by
  have hphase : (s.seq.phase == .ending) = false := beq_eq_false_iff_ne.mpr h
  unfold State.stepDone
  rw [hphase, Bool.and_false, Bool.false_and]

/-- Entry to HOLD or FAULT of a step that is not done (R119). -/
theorem seqStop_of_undone {s : State} (h : s.stepDone = false) (st : SeqState) :
    s.seqStop st =
      { s with seq := { s.seq with
          state := st, phase := .first, timer := none, spin := s.seq.spin.dropWaiting
          index := false, present := false, store := false, retract := false } } := by
  unfold State.seqStop
  rw [h]
  rfl

/-- A SPIN request that has timed out is a fault of the step in hand (R116, R119). -/
theorem requestEnded_spin {s : State} {o : OutEntry} (hcode : o.code = 15) (hspin : s.seq.spin = .sent o.dest o.tag)
    (hrun : s.seq.state = .running) (hphase : s.seq.phase ≠ .ending) :
    s.requestEnded o none =
      { s with seq := { s.seq with
          state := .fault .spin, phase := .first, timer := none, spin := .none
          index := false, present := false, store := false, retract := false } } := by
  unfold State.requestEnded
  rw [if_pos hcode, if_pos hspin]
  have hundone : ({ s with seq := { s.seq with spin := .none } } : State).stepDone = false := stepDone_of_phase hphase
  exact (if_pos hrun).trans (seqStop_of_undone hundone _)

end Sys2Proof.Machine

namespace Sys2Proof

open Machine Host

/-- Settles O29: the tag search, then the two ends of an unanswered request. -/
theorem requestsToPeersAreTracked : Obligations.RequestsToPeersAreTracked := by
  unfold Obligations.RequestsToPeersAreTracked
  refine ⟨fun s hrun hentry hroom hlisten => ?_, fun tag o before after s hp hout hbefore htag => ?_⟩
  · intro issued nth held free
    have hcan := canIssue_of_room hentry hroom
    have hopen : (s.link.canIssue && !s.link.listenOnly) = true := by rw [hcan, hlisten]; rfl
    have hfree : free s.link.nextTag := nextTag_free hentry
    refine ⟨fun dest kind hspin => ?_, fun dest page hreq => ?_⟩
    · have hw : s.requestEntry .sequencer = s.issueSpin dest kind := by
        unfold State.requestEntry
        rw [if_pos hopen]
        dsimp only
        rw [hspin]
      obtain ⟨t, ht, hsettles⟩ := run_settles (c := .requestEntry .sequencer) hrun rfl hw rfl
      exact ⟨t, ht, _, hfree, hsettles⟩
    · have hw : s.requestEntry .rodUnit = s.issuePage dest page := by
        unfold State.requestEntry
        rw [if_pos hopen]
        dsimp only
        rw [hreq]
      obtain ⟨t, ht, hsettles⟩ := run_settles (c := .requestEntry .rodUnit) hrun rfl hw rfl
      exact ⟨t, ht, _, hfree, hsettles⟩
  · intro link
    have hdo : exec (.answerTimeout tag) s = .next (s.poweredDo fun s => s.answerTimedOut tag.toNat) := rfl
    rw [State.poweredDo, if_pos hp] at hdo
    have hended : s.answerTimedOut tag.toNat =
        (({ s with link := s.link.dropOutstanding o }).requestEnded o none).recordFault .requestTimeout (some o.dest)
          (some .request) (some o.tag) := by
      unfold State.answerTimedOut
      rw [hout, find_tag hbefore htag, htag]
    rw [hended] at hdo
    refine ⟨fun drop hcode hreq => ?_, fun hcode hspin hrun hphase => ?_⟩
    · rw [requestEnded_page (s := { s with link := s.link.dropOutstanding o }) hcode hreq, dropOutstanding_eq] at hdo
      exact ⟨_, hdo, finish_settles s _ rfl⟩
    · rw [requestEnded_spin (s := { s with link := s.link.dropOutstanding o }) hcode hspin hrun hphase, dropOutstanding_eq] at hdo
      exact ⟨_, hdo, finish_settles s _ rfl⟩

end Sys2Proof

/-! What a rise of H may change of the retained state (R94, R131 to R134): H itself, the log, the lag queue and the sums
of the intervals closed. -/

namespace Sys2Proof.Machine

open Host

/-- `r'` is `r` but for H, the log, the lag queue and the sums of the intervals closed. -/
def Retained.Deepens (r r' : Retained) : Prop :=
  r' = { r with
    hole := r'.hole
    intervals := r'.intervals
    lag := r'.lag
    closedFootage := r'.closedFootage
    sumProvisional := r'.sumProvisional
    sumCurrent := r'.sumCurrent }

theorem Retained.Deepens.refl (r : Retained) : r.Deepens r := rfl

theorem Retained.Deepens.trans {a b c : Retained} (h : a.Deepens b) (k : b.Deepens c) : a.Deepens c := by
  unfold Retained.Deepens at h k ⊢
  refine k.trans ?_
  rw [h]

theorem Retained.Deepens.last {a b c : Retained} (k : b.Deepens c) (h : a.Deepens b) : a.Deepens c := h.trans k

theorem deepens_intervals (r : Retained) (l : List Interval) : r.Deepens { r with intervals := l } := rfl

theorem deepens_mapInterval (s : State) (i : Nat) (f : Interval → Interval) : s.ret.Deepens (s.mapInterval i f).ret := rfl

theorem deepens_mapOpen (s : State) (f : Interval → Interval) : s.ret.Deepens (s.mapOpen f).ret := by
  unfold State.mapOpen
  split
  · exact deepens_mapInterval s _ f
  · exact .refl _

theorem deepens_closeOne (s : State) (iv : Interval) : s.ret.Deepens (s.closeOne iv).ret := by
  unfold State.closeOne
  rw [(moves_report _ _ _).other.ret (by decide)]
  rfl

theorem deepens_closeRun (op : Interval) (n : Nat) : ∀ (s : State) (k : Nat), s.ret.Deepens (s.closeRun op n k).ret := by
  induction n with
  | zero => exact fun s _ => .refl _
  | succ n ih => exact fun s k => (ih _ (k + 1)).last (deepens_closeOne s _)

theorem deepens_holeRose (s : State) : s.ret.Deepens s.holeRose.ret := by
  unfold State.holeRose
  dsimp only
  split
  · exact .refl _
  · next op _ =>
    split
    · have hrun := fun n k => (deepens_closeRun op n { s with ret := { s.ret with intervals := s.ret.intervals.dropLast } }
        k).last (deepens_intervals s.ret s.ret.intervals.dropLast)
      split
      · exact (deepens_intervals _ _).last (hrun _ _)
      · exact hrun _ _
    · exact .refl _

theorem deepens_recomputeDepth (s : State) : s.ret.Deepens s.recomputeDepth.ret := by
  unfold State.recomputeDepth
  dsimp only
  have htake : s.ret.Deepens (s.takeDepth s.depthNow).ret := rfl
  split
  · split
    · split
      · exact (deepens_mapOpen _ _).last ((deepens_holeRose _).last htake)
      · exact (deepens_holeRose _).last htake
    · split
      · exact (deepens_mapOpen _ _).last htake
      · exact htake
  · exact .refl _

theorem deepens_depthFollows (s before : State) : s.ret.Deepens (s.depthFollows before).ret := by
  unfold State.depthFollows
  split
  · exact .refl _
  · exact deepens_recomputeDepth s

theorem chooseHeadAgain_ret (s : State) : s.chooseHeadAgain.ret = s.ret := by
  unfold State.chooseHeadAgain
  dsimp only
  split <;> rfl

theorem deepens_headRefresh (s before : State) : s.ret.Deepens (s.headRefresh before).ret := by
  unfold State.headRefresh
  split
  · have h := deepens_depthFollows s.chooseHeadAgain before
    rwa [chooseHeadAgain_ret] at h
  · exact .refl _

section

variable {r r' : Retained} (h : r.Deepens r')
include h

theorem Retained.Deepens.claim : r'.claim = r.claim := by
  unfold Retained.Deepens at h
  rw [h]

theorem Retained.Deepens.unit : r'.unit = r.unit := by
  unfold Retained.Deepens at h
  rw [h]

theorem Retained.Deepens.rods : r'.rods = r.rods := by
  unfold Retained.Deepens at h
  rw [h]

theorem Retained.Deepens.items : r'.items = r.items := by
  unfold Retained.Deepens at h
  rw [h]

theorem Retained.Deepens.string : r'.string = r.string := by
  unfold Retained.Deepens at h
  rw [h]

theorem Retained.Deepens.hold : r'.hold = r.hold := by
  unfold Retained.Deepens at h
  rw [h]

end

/-! ## The own claim under a change of the balance record (R70) -/

theorem appendZone_claim (s : State) (z : ZoneEntry) : (s.appendZone z).ret.claim = s.ret.claim := by
  unfold State.appendZone
  split <;> rfl

theorem zonesFollow_claim (s : State) : s.zonesFollow.ret.claim = s.ret.claim := by
  unfold State.zonesFollow
  dsimp only
  split
  · split
    · rfl
    · exact appendZone_claim _ _
  · rfl

theorem strataHeard_claim (s : State) (old : Heard) : (s.strataHeard old).ret.claim = s.ret.claim := by
  unfold State.strataHeard
  dsimp only
  refine (deepens_mapOpen _ _).claim.trans ?_
  have hzones : ∀ (t : State) (f : ZoneEntry → ZoneEntry), (t.mapZones f).ret.claim = t.ret.claim := fun _ _ => rfl
  rw [hzones]
  split
  · exact (deepens_mapOpen s _).claim
  · exact (zonesFollow_claim _).trans (deepens_mapOpen s _).claim

theorem completionTest_claim (s : State) : s.completionTest.ret.claim = s.ret.claim := by
  by_cases h : s.Completes
  · rw [completionTest_closes h, finishClose_eq]
  · rw [completionTest_waits h]

theorem heardUpdate_claim (s : State) (n : Heard) : (s.heardUpdate n).ret.claim = s.ret.claim := by
  unfold State.heardUpdate
  dsimp only
  split
  · rfl
  · split
    · refine (completionTest_claim _).trans ?_
      exact strataHeard_claim (s.setHeard n) s.heard
    · rfl

theorem heardRefresh_claim (s : State) : s.heardRefresh.ret.claim = s.ret.claim := by
  unfold State.heardRefresh
  split
  · rfl
  · exact heardUpdate_claim s _

end Sys2Proof.Machine

/-! A silent peer (O30): what follows its staleness or its return, in RUN and in CONFIG. -/

namespace Sys2Proof.Machine

open Host

/-- The parts that a peer's staleness or return can reach, beside its entry. -/
abbrev shiftParts : List Part := [.ret, .link, .claims, .pumps, .circ, .depth, .seq, .spin, .billing, .alarm]

theorem peerShift_leaves (s : State) : LeavesOther shiftParts s s.peerShift :=
  (Moves.ite (p := shiftParts) (fun _ => (moves_seqRun _).last (by decide) <| (moves_heardRefresh _).last (by decide) <|
    (moves_headRefresh _ _).last (by decide) ((moves_conflictCheck s).mono (by decide))) fun _ => .refl _ s).other

theorem peerShift_config {s : State} (h : s.mode ≠ .run) : s.peerShift = s :=
  if_neg (mt (inRun_iff s).mp h)

/-- In conflict the sequencer is in HOLD, and nothing that follows takes it out (R36). -/
theorem peerShift_conflict {s : State} (hrun : s.mode = .run) (h : s.inConflict = true) :
    s.peerShift.seq.state = .hold .claimConflict ∧ s.peerShift.ret.claim = s.ret.claim := by
  have hcheck := conflictCheck_of_conflict (inRun_of_mode hrun) h
  have hheld : s.conflictCheck.seq.state = .hold .claimConflict ∧ s.conflictCheck.ret.claim = s.ret.claim := by
    rw [hcheck]
    split
    · next hst => exact ⟨hst, rfl⟩
    · exact ⟨rfl, seqStop_claim s _⟩
  have hseq : (s.conflictCheck.headRefresh s).heardRefresh.seq = s.conflictCheck.seq :=
    ((moves_heardRefresh _).other.seq (by decide)).trans ((moves_headRefresh _ _).other.seq (by decide))
  have hwait : (s.conflictCheck.headRefresh s).heardRefresh.seqRun = (s.conflictCheck.headRefresh s).heardRefresh := by
    refine seqRun_of_waiting (.inl ?_)
    rw [hseq, hheld.1]
    exact SeqState.noConfusion
  unfold State.peerShift
  rw [if_pos (inRun_of_mode hrun), hwait]
  exact ⟨by rw [hseq]; exact hheld.1,
    (heardRefresh_claim _).trans ((deepens_headRefresh _ _).claim.trans hheld.2)⟩

/-! ## The entry of a peer that goes stale or returns -/

/-- A peer's entry once it has been silent too long (R14). -/
def PeerEntry.silent (p : PeerEntry) : PeerEntry := { p with stale := true, silence := none }

theorem peerStale_eq {s : State} {k : Nat} {p : PeerEntry} (hp : s.peer? k = some p) (hsilence : p.silence.isSome = true) :
    s.peerStale k = (s.mapPeer k PeerEntry.silent).peerShift := by
  unfold State.peerStale
  rw [hp]
  refine if_neg ?_
  rw [Option.isNone_eq_false_iff.mpr hsilence]
  decide

/-- The peer table with the entry of a peer that has returned. -/
def State.returnedPeer (s : State) (k seq : Nat) : State :=
  (s.mapPeer k (PeerEntry.refresh seq (3 * s.statusPeriod))).mapPeer k PeerEntry.returned

theorem refreshPeer_of_stale {s : State} {k seq : Nat} {p : PeerEntry} (hp : s.peer? k = some p) (hstale : p.stale = true) :
    s.refreshPeer k seq =
      if (s.returnedPeer k seq).peerShift.rod.source = some k ∧ (s.returnedPeer k seq).peerShift.inRun then
        (s.returnedPeer k seq).peerShift.resyncAgain
      else (s.returnedPeer k seq).peerShift := by
  unfold State.refreshPeer
  rw [hp]
  exact if_pos hstale

theorem peer?_congr {s t : State} (h : t.peers = s.peers) (k : Nat) : t.peer? k = s.peer? k := by
  unfold State.peer?
  rw [h]

theorem mem_otherClaims_of_peer {s : State} {k : Nat} {p : PeerEntry} (h : s.peer? k = some p)
    (hphase : p.claim.phase ≠ .none) : ⟨k, p.claim.kind, p.claim.phase, p.stale⟩ ∈ s.otherClaims :=
  mem_otherClaims.mpr ⟨p, mem_of_peer? h, hphase, by rw [station_of_peer? h]⟩

theorem staleClaim_of_mem {s : State} {v : ViewClaim} (h : v ∈ s.otherClaims) (hstale : v.stale = true) :
    s.alarmCond .staleClaim = true := by
  show s.claimView.any (·.stale) = true
  rw [claimView_any_stale]
  exact List.any_eq_true.mpr ⟨v, h, hstale⟩

end Sys2Proof.Machine

namespace Sys2Proof

open Machine Host

/-- The first part of O30: a heard peer goes stale. -/
theorem silentPeer_stale (k : Nat) (p : PeerEntry) (s : State) (hpow : s.powered = true) (hp : s.peer? k = some p)
    (hsilence : p.silence.isSome = true) :
    ∃ t, exec (.peerStale k) s = .next t ∧
      t.peer? k = some { p with stale := true, silence := none } ∧
      (∀ j, j ≠ k → t.peer? j = s.peer? j) ∧
      (p.claim.phase ≠ .none → ⟨k, p.claim.kind, p.claim.phase, true⟩ ∈ t.otherClaims) ∧
      (s.mode = .run → p.claim.phase ≠ .none → t.alarm.isActive .staleClaim = true) ∧
      (s.mode = .config → ChangesOnly [.peers] s t) ∧
      ChangesOnly [.peers, .ret, .link, .claims, .pumps, .circ, .depth, .rod, .seq, .spin, .billing, .alarm] s t := by
  have hdo : exec (.peerStale k) s = .next (s.poweredDo fun s => s.peerStale k) := rfl
  rw [State.poweredDo, if_pos hpow, peerStale_eq hp hsilence] at hdo
  have hmap : LeavesOther [.peers] s (s.mapPeer k PeerEntry.silent) := (moves_mapPeer s k _).other
  have hshift := peerShift_leaves (s.mapPeer k PeerEntry.silent)
  have hw := hmap.trans hshift
  have hsettles := finish_settles s _ hw.pending
  have o := hsettles.rest.other
  have hpeers := (o.peers (by decide)).trans (hshift.peers (by decide))
  have hsearch := peer?_mapPeer s k (f := PeerEntry.silent) fun _ => rfl
  have hentry := (peer?_congr hpeers k).trans ((hsearch k).trans ((if_pos rfl).trans (congrArg (Option.map _) hp)))
  have hclaim : p.claim.phase ≠ .none → ⟨k, p.claim.kind, p.claim.phase, true⟩ ∈ State.otherClaims _ :=
    fun hphase => mem_otherClaims_of_peer hentry hphase
  refine ⟨_, hdo, hentry, fun j hj => ?_, hclaim, fun hrun hphase => ?_, fun hconfig => ?_,
    hsettles.changes hw (by decide) (by decide)⟩
  · exact (peer?_congr hpeers j).trans ((hsearch j).trans (if_neg hj))
  · rw [finish_isActive s ((inRun_iff _).mpr (hw.mode.trans hrun)) (by decide)]
    refine staleClaim_of_mem (v := ⟨k, p.claim.kind, p.claim.phase, true⟩) ?_ rfl
    rw [otherClaims_congr (hshift.peers (by decide)), ← otherClaims_congr hpeers]
    exact hclaim hphase
  · have hsame := peerShift_config (s := s.mapPeer k PeerEntry.silent) (by rw [hmap.mode, hconfig]; decide)
    have hquiet := finish_quiet s _ hmap (settled_of_mode (by rw [hmap.mode, hconfig]; decide))
    rw [hsame]
    exact hquiet

/-- The station once a stale peer's good frame has ended: the entry returned, its claim examined, and the
resynchronisation from a source that returns begun again. -/
theorem goodFrame_returned {s : State} {f : RxFrame} {p : PeerEntry} (hother : f.source ≠ s.straps.number)
    (hdest : f.dest ≠ s.straps.number ∧ f.dest ≠ 31 ∨ f.body = .alarm) (hp : s.peer? f.source = some p)
    (hstale : p.stale = true) :
    s.heardEnd.goodFrame f =
      if (s.heardEnd.returnedPeer f.source f.seq).peerShift.rod.source = some f.source ∧
          (s.heardEnd.returnedPeer f.source f.seq).peerShift.inRun then
        (s.heardEnd.returnedPeer f.source f.seq).peerShift.resyncAgain
      else (s.heardEnd.returnedPeer f.source f.seq).peerShift := by
  rw [goodFrame_of_other (s := s.heardEnd) hother, refreshPeer_of_stale (s := s.heardEnd) hp hstale]
  obtain ⟨hown, hall⟩ | halarm := hdest
  · exact if_neg fun h => h.elim hown hall
  · unfold State.handOn
    rw [halarm]
    exact ite_self _

/-- Settles O30: the entry, the claim and the blocks told, of a peer that falls silent and of one that returns. -/
theorem silentPeerGoesStale : Obligations.SilentPeerGoesStale := by
  unfold Obligations.SilentPeerGoesStale
  refine ⟨silentPeer_stale, ?_⟩
  intro bytes f p s hpow hbusy hsend hrx hgood hother hdest hp hstale
  obtain ⟨m, hm⟩ : ∃ m, m = s.heardEnd.returnedPeer f.source f.seq := ⟨_, rfl⟩
  obtain ⟨w, hw⟩ : ∃ w, w = s.heardEnd.goodFrame f := ⟨_, rfl⟩
  have hret := goodFrame_returned hother hdest hp hstale
  rw [← hm, ← hw] at hret
  have hdo : exec (.frameReceived bytes) s = .next (s.finish w) := by
    have hdo : exec (.frameReceived bytes) s = .next (s.poweredDo fun s => s.frameReceived bytes) := rfl
    rw [hdo, State.poweredDo, if_pos hpow, frameReceived_of_good hsend hbusy hrx hgood, hw]
  have hmoved : LeavesOther [.link, .peers] s m := by
    rw [hm]
    exact (leavesOther_link s _).after (((moves_mapPeer _ _ _).last (by decide) (moves_mapPeer _ _ _)).other)
      (by decide) (by decide)
  have hshift := peerShift_leaves m
  have hmw : LeavesOther (.rod :: shiftParts) m w := by
    rw [hret]
    split
    · exact hshift.after (moves_resyncAgain _).other (by decide) (by decide)
    · exact hshift.mono (by decide)
  have hall := hmoved.trans hmw
  have hsettles := finish_settles s w hall.pending
  have o := hsettles.rest.other
  have hpeers := (o.peers (by decide)).trans (hmw.peers (by decide))
  have hstation : ∀ k q (p : PeerEntry), (PeerEntry.refresh k q p).station = p.station := fun _ _ _ => rfl
  have hsearch : ∀ j, m.peer? j = if j = f.source then
      ((s.peer? f.source).map (PeerEntry.refresh f.seq (3 * s.statusPeriod))).map PeerEntry.returned
      else s.peer? j := fun j => by
    rw [hm]
    refine (peer?_mapPeer _ f.source (f := PeerEntry.returned) (fun _ => rfl) j).trans ?_
    rw [peer?_mapPeer s.heardEnd f.source (hstation _ _), if_pos rfl, peer?_mapPeer s.heardEnd f.source (hstation _ _)]
    split <;> rfl
  have hentry := (peer?_congr hpeers f.source).trans ((hsearch f.source).trans ((if_pos rfl).trans
    (congrArg (fun x => Option.map _ (Option.map _ x)) hp)))
  have hclaim : p.claim.phase ≠ .none → ⟨f.source, p.claim.kind, p.claim.phase, false⟩ ∈ (s.finish w).otherClaims :=
    fun hphase => mem_otherClaims_of_peer hentry hphase
  refine ⟨_, hdo, hentry, fun j hj => (peer?_congr hpeers j).trans ((hsearch j).trans (if_neg hj)), hclaim,
    fun hrun hpeer hown => ?_, fun hrun hsource hsure => ?_, fun hconfig => ?_,
    hsettles.changes hall (by decide) (by decide)⟩
  · have hmrun : m.mode = .run := hmoved.mode.trans hrun
    have hmclaim : m.ret.claim = s.ret.claim := congrArg Retained.claim (hmoved.ret (by decide))
    have hconflict : m.inConflict = true := by
      rw [inConflict_iff]
      refine ⟨by rw [hmclaim]; exact hown, ⟨f.source, p.claim.kind, .active, false⟩, ?_, rfl⟩
      have hmem := hclaim (by rw [hpeer]; decide)
      rw [otherClaims_congr hpeers, hpeer] at hmem
      exact hmem
    obtain ⟨hseq, hheld⟩ := peerShift_conflict hmrun hconflict
    have hsame : w.seq = m.peerShift.seq ∧ w.ret = m.peerShift.ret ∧ w.peers = m.peerShift.peers := by
      rw [hret]
      split
      · have k := (moves_resyncAgain m.peerShift).other
        exact ⟨k.seq (by decide), k.ret (by decide), k.peers (by decide)⟩
      · exact ⟨rfl, rfl, rfl⟩
    obtain ⟨hwseq, hwret, hwpeers⟩ := hsame
    refine ⟨?_, ?_⟩
    · rw [o.seq (by decide), hwseq]
      exact hseq
    · rw [finish_isActive s ((inRun_iff _).mpr (hall.mode.trans hrun)) (by decide)]
      refine (inConflict_congr (s := m) ?_ ?_).trans hconflict
      · rw [hwret, hheld]
      · rw [hwpeers, hshift.peers (by decide)]
  · have hrod : m.peerShift.rod = s.rod := (hshift.rod (by decide)).trans (hmoved.rod (by decide))
    have hmode : m.peerShift.inRun = true := (inRun_iff _).mpr (hshift.mode.trans (hmoved.mode.trans hrun))
    have hagain : w = m.peerShift.resyncAgain := hret.trans (if_pos ⟨by rw [hrod]; exact hsource, hmode⟩)
    rw [o.rod (by decide), hagain]
    unfold State.resyncAgain
    rw [hrod, hsure]
    rfl
  · have hcm : m.mode ≠ .run := by
      rw [hmoved.mode, hconfig]
      decide
    have hsame : w = m := by
      rw [hret, peerShift_config hcm]
      exact if_neg fun h => hcm ((inRun_iff m).mp h.2)
    have hquiet := finish_quiet s m hmoved (settled_of_mode hcm)
    rw [hsame]
    exact ⟨hquiet.other.mono (by decide), hquiet.images, hquiet.outs⟩

end Sys2Proof

/-! Bit depth formed again (R93, R94), part by part. -/

namespace Sys2Proof.Machine

open Host

/-- Bit depth is a function of its inputs, the items and the rods. -/
theorem depthNow_of_inputs {s t : State} (h : t.depthInputs = s.depthInputs) (hitems : t.ret.items = s.ret.items)
    (hrods : t.ret.rods = s.ret.rods) : t.depthNow = s.depthNow := by
  simp only [State.depthInputs, DepthInputs.mk.injEq] at h
  obtain ⟨-, hhead, hstring, hhold, hsure⟩ := h
  have hlen : t.rodLength = s.rodLength := funext fun i => by
    simp only [State.rodLength, State.typeLength, State.cfg, hitems, hrods]
  simp only [State.depthNow, State.headPosition, State.stringLength, State.topLength, State.lengthOf, State.cfg, hhead,
    hstring, hhold, hsure, hitems, hlen]

/-- What a branch leaves stands in either case. -/
theorem ite_same {α : Type} (f : State → α) {c : Prop} [Decidable c] {t u : State} (h : c → f t = f u) :
    f (if c then t else u) = f u := by
  split
  · next hc => exact h hc
  · rfl

/-- A change of the bit depth, of the wear baseline and of the HEAD frames' timing. -/
structure SameHead (d d' : DepthUnit) : Prop where
  source : d'.headSource = d.headSource
  h : d'.h = d.h
  known : d'.headKnown = d.headKnown
  rpm : d'.rpm = d.rpm

theorem SameHead.refl (d : DepthUnit) : SameHead d d := ⟨rfl, rfl, rfl, rfl⟩

/-- What leaves the records, the head, the peers and the rod view leaves the inputs of bit depth. -/
theorem depthInputs_of_same {s t : State} (hret : s.ret.Deepens t.ret) (hhead : SameHead s.depth t.depth)
    (hstraps : t.straps = s.straps) (hpeers : t.peers = s.peers) (hrod : t.rod = s.rod) :
    t.depthInputs = s.depthInputs := by
  unfold Retained.Deepens at hret
  obtain ⟨hsource, hh, hknown, hrpm⟩ := hhead
  simp only [State.depthInputs, State.headValues, State.viewSure, State.peer?, hsource, hh, hknown, hrpm, hstraps, hpeers,
    hrod]
  rw [hret]

section

variable {s : State} (hrun : s.inRun = true)
include hrun

/-- Bit depth formed again, before the open interval is told that it became unknown. -/
theorem recomputeDepth_eq :
    s.recomputeDepth =
      let t := s.takeDepth s.depthNow
      let t := if s.ret.hole < t.ret.hole ∧ t.strataOn = true then t.holeRose else t
      if (s.depth.bitDepth.isSome && s.depthNow.isNone && t.strataOn) = true then
        t.mapOpen fun iv => { iv with flags := { iv.flags with depthUnsure := true } }
      else t := by
  unfold State.recomputeDepth
  exact if_pos hrun

theorem recomputeDepth_depth :
    s.recomputeDepth.depth =
      { s.depth with
        bitDepth := s.depthNow, onBottom := onBottomAt s.depthNow (max s.ret.hole (s.depthNow.getD 0)) } := by
  rw [recomputeDepth_eq hrun]
  dsimp only
  have hopen : ∀ (t : State) f, (t.mapOpen f).depth = t.depth := fun t f => (moves_mapOpen t f).other.depth (by decide)
  have hrose : ∀ t : State, t.holeRose.depth = t.depth := fun t => (moves_holeRose t).other.depth (by decide)
  exact (ite_same State.depth fun _ => hopen _ _).trans (ite_same State.depth fun _ => hrose _)

theorem recomputeDepth_hole : s.recomputeDepth.ret.hole = max s.ret.hole (s.depthNow.getD 0) := by
  rw [recomputeDepth_eq hrun]
  dsimp only
  have hopen : ∀ (t : State) f, (t.mapOpen f).ret.hole = t.ret.hole := fun t f => by
    unfold State.mapOpen
    split <;> rfl
  have hrose : ∀ t : State, t.holeRose.ret.hole = t.ret.hole := fun t => (holeRose_closesOnly t).hole
  exact (ite_same (·.ret.hole) fun _ => hopen _ _).trans (ite_same (·.ret.hole) fun _ => hrose _)

/-- Bit depth formed again is the one the state then gives. -/
theorem recomputeDepth_now : s.recomputeDepth.depthNow = s.depthNow := by
  have hret := deepens_recomputeDepth s
  have hother := (moves_recomputeDepth s).other
  refine depthNow_of_inputs (depthInputs_of_same hret ?_ hother.straps (hother.peers (by decide))
    (hother.rod (by decide))) hret.items hret.rods
  rw [recomputeDepth_depth hrun]
  exact ⟨rfl, rfl, rfl, rfl⟩

end

end Sys2Proof.Machine

/-! The settle timer and the listen window (O49). -/

namespace Sys2Proof.Machine

open Host

theorem startSettle_eq (s : State) :
    s.startSettle = { s with claims := { s.claims with settle := some (2 * s.cfg Item.statusPeriod 0) } } := rfl

/-! ## The settle timer runs out (R32) -/

theorem settleExpired_of_none {s : State} (h : s.ret.claim.phase ≠ .pending) :
    s.settleExpired = ({ s with claims := { s.claims with settle := none } }, false) := by
  unfold State.settleExpired
  exact if_neg h

theorem settleExpired_of_others {s : State} (h : s.ret.claim.phase = .pending) (hothers : s.otherClaims ≠ []) :
    s.settleExpired = (s.startSettle, false) := by
  unfold State.settleExpired
  rw [if_pos h, if_neg (by simpa using hothers)]

/-- The station with its own claim ACTIVE and its settle timer off. -/
def State.settledClaim (s : State) : State :=
  { s with ret := { s.ret with claim := ⟨.connection, .active⟩ }, claims := { s.claims with settle := none } }

/-- An ACTIVE own claim stands in the view. -/
theorem settledClaim_claimed (s : State) :
    ⟨s.straps.number, .connection, .active, false⟩ ∈ s.settledClaim.announceClaim.claimView :=
  List.mem_cons_self

/-- The claim becomes ACTIVE and is announced; a spin of the own claim runs on. -/
theorem settleExpired_of_alone {s : State} (h : s.ret.claim.phase = .pending) (hothers : s.otherClaims = [])
    (hspin : s.spin.state = .running → s.spin.owner = some s.straps.number) :
    s.settleExpired = (s.settledClaim.announceClaim, true) := by
  have howner : s.settledClaim.announceClaim.spinOwnerCheck = s.settledClaim.announceClaim := by
    unfold State.spinOwnerCheck
    refine if_neg fun ⟨hrunning, hnone⟩ => ?_
    have hany : (s.settledClaim.announceClaim.claimView.any fun c =>
        some c.station == s.settledClaim.announceClaim.spin.owner) = true :=
      List.any_eq_true.mpr ⟨_, settledClaim_claimed s, by
        rw [show s.settledClaim.announceClaim.spin.owner = some s.straps.number from hspin hrunning]
        exact beq_self_eq_true _⟩
    rw [hany] at hnone
    exact absurd hnone (by decide)
  have hwas : ({ s with claims := { s.claims with settle := none } } : State).viewHolds = true :=
    (viewHolds_iff _).mpr (.inl (show s.ret.claim.phase ≠ .none by rw [h]; decide))
  have hheld : s.settledClaim.announceClaim.viewHolds = true :=
    (viewHolds_iff _).mpr (.inl fun hnone => nomatch hnone)
  have hmove : ({ s with claims := { s.claims with settle := none } } : State).moveClaim .active =
      s.settledClaim.announceClaim := by
    unfold State.moveClaim
    rw [hwas]
    refine Eq.trans (congrArg (State.viewChanged true) howner) ?_
    exact viewChanged_same hheld
  unfold State.settleExpired
  rw [if_pos h, if_pos (by rw [hothers]; rfl), hmove]

/-- WAIT_PUMPS entered from CLAIMING (R107, R108). -/
def State.waitsPumps (s : State) (u : UnitRec) : State :=
  { s with
    ret := { s.ret with
      unit := some { u with step := 2 }
      clampOut := s.ret.hold.hold == .clamped
      gripOut := (rodInLoader s.ret.rods).isSome }
    seq := { s.seq with state := .running, phase := .first, timer := some 20000, spin := .none } }

theorem enterStep_two {s : State} {u : UnitRec} (hu : s.ret.unit = some u) : s.enterStep 2 = s.waitsPumps u := by
  have hfresh : (s.stepFresh 2).ret.unit = some { u with step := 2 } := congrArg (Option.map _) hu
  have hkind : ({ u with step := 2 } : UnitRec).kindOfStep = .waitPumps := by
    unfold UnitRec.kindOfStep
    cases u.kind <;> rfl
  unfold State.enterStep
  dsimp only
  rw [hfresh]
  dsimp only
  rw [hkind]
  unfold State.alignOutputs State.startTimer State.waitsPumps State.stepFresh State.mapUnit
  dsimp only
  rw [hu]
  rfl

theorem waitsPumps_ready {s : State} {u : UnitRec} (h : s.pumpsDown = false) : (s.waitsPumps u).phaseReady = false := by
  have hkind : ({ u with step := 2 } : UnitRec).kindOfStep = .waitPumps := by
    unfold UnitRec.kindOfStep
    cases u.kind <;> rfl
  have hdown : (s.waitsPumps u).pumpsDown = s.pumpsDown := rfl
  unfold State.phaseReady
  rw [show (s.waitsPumps u).ret.unit = some { u with step := 2 } from rfl]
  dsimp only
  rw [hkind, ← h, ← hdown]
  rfl

theorem takeTest_listen (s : State) : s.takeTest.claims.listen = s.claims.listen := by
  have hmove := (moves_moveClaim s .pending).other.claims (by decide)
  unfold State.takeTest
  split
  · dsimp only
    split <;> exact (congrArg ClaimUnit.listen hmove :)
  · rfl

/-! ## The listen window ends (R40, R42, R98) -/

/-- The station with its listen window over. -/
def State.windowEnded (s : State) : State := { s with claims := { s.claims with listen := none } }

theorem viewSettles_of_heard {s : State} (h : ¬(s.straps.rod = false ∧ s.rod.source = none ∧ s.rod.sure = false)) :
    s.viewSettles = s := by
  unfold State.viewSettles
  refine if_neg fun hc => h ?_
  simp only [Bool.and_eq_true, Bool.not_eq_true', Option.isNone_iff_eq_none] at hc
  exact ⟨hc.1.1.2, hc.1.2, hc.2⟩

/-- The rod unit of a view that becomes SURE with its records as they stand (R98). -/
def State.rodSettled (s : State) : State :=
  { s with rod := { s.rod with
    sure := true
    lagCount := 0
    held := []
    resync := { Resync.begin with request := s.rod.resync.beginAgain.request } } }

theorem viewSettles_of_unheard {s : State} (hrun : s.inRun = true)
    (h : s.straps.rod = false ∧ s.rod.source = none ∧ s.rod.sure = false) :
    s.viewSettles = s.rodSettled.recomputeDepth := by
  obtain ⟨hrod, hsource, hsure⟩ := h
  have hchanged : s.rodSettled.depthInputs ≠ s.depthInputs := fun heq => by
    have hviews : s.rodSettled.viewSure = s.viewSure := congrArg DepthInputs.sure heq
    have hnow : s.rodSettled.viewSure = true := Bool.or_true _
    rw [hnow, State.viewSure, hrod, hsure] at hviews
    exact absurd hviews (by decide)
  unfold State.viewSettles
  rw [if_pos (by rw [hrun, hrod, hsource, hsure]; rfl)]
  exact depthFollows_of_changed hchanged

theorem viewSettles_claim (s : State) : s.viewSettles.ret.claim = s.ret.claim := by
  unfold State.viewSettles
  split
  · exact (deepens_depthFollows _ _).claim
  · rfl

theorem reevalPermit_eq (s : State) :
    s.reevalPermit = if s.permitNow = s.spin.permit then s
      else ({ s with spin := { s.spin with permit := s.permitNow } } : State).headCall := rfl

end Sys2Proof.Machine

namespace Sys2Proof

open Machine Host

/-- Settles O49: the two timers, each by what stands in the view when it runs out. -/
theorem claimTimersRunOut : Obligations.ClaimTimersRunOut := by
  unfold Obligations.ClaimTimersRunOut
  intro s hrun hs period settled active
  have hin := (inRun_iff s).mpr hrun
  have hsettle : exec .settleExpiry s = execSettleExpiry s := rfl
  have hwindow : exec .listenWindowEnd s = execListenWindowEnd s := rfl
  have hquiet : ∀ v : ClaimUnit, ({ s with claims := v } : State).AlarmsSettled := fun v =>
    settled_of_quiet hs ((moves_claims s v).other.mono (by decide))
  refine ⟨fun hnone => ?_, fun hon hphase => ?_, fun hon hphase hothers => ?_, fun hon hphase hothers hspin => ?_,
    fun hnone => ?_, fun hon => ?_⟩
  · exact run_leaves hrun hsettle (if_neg (by rw [hnone]; exact Bool.false_ne_true)) rfl hs
  · refine run_leaves hrun hsettle ?_ rfl (hquiet _)
    rw [if_pos hon, settleExpired_of_none hphase]
    rfl
  · refine run_leaves hrun hsettle ?_ rfl (hquiet _)
    rw [if_pos hon, settleExpired_of_others hphase hothers]
    rfl
  · have hexpired := settleExpired_of_alone hphase hothers hspin
    have hclaiming : (s.settledClaim.announceClaim.seq.state == SeqState.claiming) = (s.seq.state == .claiming) := rfl
    refine ⟨fun hseq => ?_, fun u hseq hu hdown => ?_⟩
    · refine run_settles hrun hsettle ?_ rfl
      rw [if_pos hon, hexpired]
      exact if_neg (by rw [hclaiming]; simpa using hseq)
    · intro w
      refine run_settles hrun hsettle ?_ rfl
      rw [if_pos hon, hexpired]
      refine (if_pos (by rw [hclaiming]; simpa using hseq)).trans ?_
      have henter : s.settledClaim.announceClaim.enterStep 2 = s.settledClaim.announceClaim.waitsPumps u := enterStep_two hu
      exact (congrArg State.seqRun henter).trans (seqRun_of_waiting (.inr (waitsPumps_ready hdown)))
  · exact run_leaves hrun hwindow (if_neg (by rw [hnone]; exact Bool.false_ne_true)) rfl hs
  · intro takes unheard on w
    have hmay : s.windowEnded.mayTake = true ↔ takes := by
      rw [mayTake_iff]
      have hempty : s.windowEnded.viewHolds = false ↔ s.claimView = [] := by
        rw [show s.windowEnded.viewHolds = !s.claimView.isEmpty from rfl]
        simp
      rw [hempty]
      exact ⟨fun ⟨hreq, hphase, hview, _, _, hlisten⟩ => ⟨hreq, hphase, hview, hlisten⟩,
        fun ⟨hreq, hphase, hview, hlisten⟩ => ⟨hreq, hphase, hview, rfl, hin, hlisten⟩⟩
    have hbody : ∀ x, x = s.windowEnded.takeTest.reevalPermit.viewSettles →
        exec .listenWindowEnd s = .next (s.finish x) := fun x hx => by
      refine hwindow.trans (congrArg _ (inRunDo_eq hrun ?_))
      rw [if_pos hon, hx]
      rfl
    have hpermit : s.windowEnded.permitNow = on := by
      show (s.inRun && s.straps.head && (true && !!s.claimView.isEmpty || s.spin.state == .running)) = on
      rw [hin, Bool.true_and, Bool.true_and, Bool.not_not]
    have hmoves : Moves [.ret, .claims, .pumps, .spin, .depth, .link, .seq, .rod, .alarm] s
        s.windowEnded.takeTest.reevalPermit.viewSettles :=
      (moves_viewSettles _).last (by decide) <| (moves_reevalPermit _).last (by decide) <|
        (moves_takeTest _).last (by decide) <| (moves_claims s _).mono (by decide)
    have hsettles := finish_settles s _ hmoves.other.pending
    have o := hsettles.rest.other
    have hchanges := hsettles.changes (r := [.ret, .claims, .link, .pumps, .spin, .depth, .rod, .seq, .alarm]) hmoves.other
      (by decide) (by decide)
    refine ⟨fun hnot hheard => ?_, fun htakes hspin => ?_, fun hun => ?_⟩
    · have hstill : s.windowEnded.takeTest = s.windowEnded := takeTest_of_not (eq_false_of_ne_true fun h => hnot (hmay.mp h))
      have hw : s.windowEnded.takeTest.reevalPermit.viewSettles = if on = s.spin.permit then w else w.headCall := by
        have hrod := (moves_reevalPermit s.windowEnded).other
        rw [hstill, viewSettles_of_heard (by rw [hrod.straps, hrod.rod (by decide)]; exact hheard), reevalPermit_eq, hpermit]
        by_cases hsame : on = s.spin.permit
        · rw [if_pos hsame]
          refine (if_pos hsame).trans ?_
          show s.windowEnded = { s.windowEnded with spin := { s.spin with permit := on } }
          rw [show on = s.spin.permit from hsame]
          rfl
        · rw [if_neg hsame]
          exact if_neg hsame
      refine ⟨_, hbody _ hw.symm, finish_settles s _ ?_⟩
      rw [← hw]
      exact hmoves.other.pending
    · have hmaytake := hmay.mpr htakes
      obtain ⟨hleaves, hchans, htspin, htclaims, htseq, -⟩ := takeTest_holds hmaytake hspin
      have hre := (moves_reevalPermit s.windowEnded.takeTest).other
      have hview := (moves_viewSettles s.windowEnded.takeTest.reevalPermit).other
      have hclaim : s.windowEnded.takeTest.ret.claim = ⟨.connection, .pending⟩ := congrArg Retained.claim (hleaves.ret (by decide))
      have hpermit : s.windowEnded.takeTest.permitNow = false := by
        rw [permitNow_of_idle ((inRun_iff _).mpr (hleaves.mode.trans hrun)) (by rw [htspin]; exact hspin)]
        rw [(viewHolds_iff _).mpr (.inl (by rw [hclaim]; exact fun h => nomatch h))]
        exact Bool.and_false _
      refine ⟨_, hbody _ rfl, ?_, ?_, ?_, ?_, ?_, hchanges⟩
      · rw [o.ret (by decide), viewSettles_claim, hre.ret (by decide), hclaim]
      · rw [o.claims (by decide), hview.claims (by decide), hre.claims (by decide), htclaims]
        show (⟨s.claims.takeRequest, _, _⟩ : ClaimUnit) = _
        rw [htakes.1]
        rfl
      · rw [o.seq (by decide), hview.seq (by decide), hre.seq (by decide), htseq]
        rfl
      · rw [o.pumps (by decide), hview.pumps (by decide), hre.pumps (by decide)]
        exact congrArg₂ Pumps.mk (hchans .a) (hchans .b)
      · rw [o.spin (by decide), hview.spin (by decide), reevalPermit_spin, hpermit]
    · have htake := (moves_takeTest s.windowEnded).other
      have hre := (moves_reevalPermit s.windowEnded.takeTest).other
      have hw := htake.after hre (r := [.ret, .claims, .pumps, .spin, .depth, .link, .seq]) (by decide) (by decide)
      have hmode : s.windowEnded.takeTest.reevalPermit.inRun = true := (inRun_iff _).mpr (hw.mode.trans hrun)
      have hrod : s.windowEnded.takeTest.reevalPermit.rod = s.rod := hw.rod (by decide)
      have hsettled := viewSettles_of_unheard hmode (by rw [hw.straps, hrod]; exact hun)
      have hre := (moves_recomputeDepth s.windowEnded.takeTest.reevalPermit.rodSettled).other
      have hdepth := recomputeDepth_depth (s := s.windowEnded.takeTest.reevalPermit.rodSettled) hmode
      have hnow := recomputeDepth_now (s := s.windowEnded.takeTest.reevalPermit.rodSettled) hmode
      refine ⟨_, hbody _ rfl, ?_, ?_, ?_, ?_, hchanges⟩
      · rw [o.claims (by decide), (moves_viewSettles _).other.claims (by decide),
          (moves_reevalPermit _).other.claims (by decide), takeTest_listen]
        rfl
      · rw [o.rod (by decide), hsettled, hre.rod (by decide)]
        rfl
      · rw [o.rod (by decide), hsettled, hre.rod (by decide)]
        rfl
      · rw [o.depth (by decide), hsettled, hdepth, ← hnow, ← hsettled]
        have hret := o.ret (by decide)
        exact (depthNow_of_inputs (depthInputs_of_other o (by decide) (by decide) (by decide) (by decide))
          (congrArg Retained.items hret) (congrArg Retained.rods hret)).symm

end Sys2Proof

/-! The end of a job (O47, O60): what an abrupt close makes of the log, the zones and the statement. -/

namespace Sys2Proof.Machine

open Host

/-! ## Tags that leave the lag queue (R135, R143) -/

/-- An interval whose sample has come up at a job time. -/
def Interval.up (lost : Bool) (time : Nat) (iv : Interval) : Interval :=
  { iv with sample := if lost then .lost else .surfaced, sampleTime := some time }

/-- The log with the samples of some tags up. -/
def upAll (tags : List LagTag) (lost : Bool) (time : Nat) (l : List Interval) : List Interval :=
  l.map fun iv => if ∃ t ∈ tags, t.index = iv.index then iv.up lost time else iv

theorem upAll_nil (lost : Bool) (time : Nat) (l : List Interval) : upAll [] lost time l = l := by
  unfold upAll
  exact (List.map_congr_left fun iv _ => if_neg fun ⟨t, ht, _⟩ => nomatch ht).trans (List.map_id' _)

/-- Bringing the first sample up and then the others brings all of them up. -/
theorem upAll_cons (t : LagTag) (rest : List LagTag) (lost : Bool) (time : Nat) (l : List Interval) :
    upAll rest lost time (l.map fun iv => if iv.index = t.index then iv.up lost time else iv) =
      upAll (t :: rest) lost time l := by
  unfold upAll
  rw [List.map_map]
  refine List.map_congr_left fun iv _ => ?_
  have hup : (iv.up lost time).up lost time = iv.up lost time := rfl
  have hindex : (if iv.index = t.index then iv.up lost time else iv).index = iv.index := by split <;> rfl
  simp only [Function.comp_apply, hindex, List.mem_cons, exists_eq_or_imp]
  by_cases hhead : t.index = iv.index
  · rw [if_pos hhead.symm, if_pos (Or.inl hhead), hup, ite_self]
  · rw [if_neg (Ne.symm hhead)]
    simp only [hhead, false_or]

/-- A log changed and nothing else. -/
def State.logged (s : State) (l : List Interval) : State := { s with ret := { s.ret with intervals := l } }

theorem sampleUp_eq (s : State) (i : Nat) (lost : Bool) :
    s.sampleUp i lost =
      s.logged (s.ret.intervals.map fun iv => if iv.index = i then iv.up lost s.ret.jobTime else iv) := rfl

theorem foldl_sampleUp (tags : List LagTag) : ∀ s : State,
    tags.foldl (fun s t => s.sampleUp t.index true) s = s.logged (upAll tags true s.ret.jobTime s.ret.intervals) := by
  induction tags with
  | nil =>
    intro s
    rw [upAll_nil]
    rfl
  | cons t rest ih =>
    intro s
    rw [List.foldl_cons, ih, ← upAll_cons]
    rfl

theorem loseTags_eq (s : State) :
    s.loseTags = { s with ret := { s.ret with
      intervals := upAll s.ret.lag true s.ret.jobTime s.ret.intervals, lag := [] } } := by
  unfold State.loseTags
  rw [foldl_sampleUp]
  rfl

/-! ## An abrupt close (R143, R160) -/

/-- The station with its tagged samples LOST and its zones closed, before steps 1 to 4 of a close. -/
def State.cutShort (s : State) (kind : CloseKind) : State :=
  { s with ret := { s.ret with
    closeKind := some kind
    intervals := upAll s.ret.lag true s.ret.jobTime s.ret.intervals
    lag := []
    zones := s.ret.zones.map (ZoneEntry.closeBut none s.ret.hole s.ret.jobTime) } }

theorem abruptClose_eq (s : State) (kind : CloseKind) : s.abruptClose kind = (s.cutShort kind).finishClose kind := by
  have h := congrArg (fun t : State => (t.closeZones none).finishClose kind)
    (loseTags_eq { s with ret := { s.ret with closeKind := some kind } })
  exact h

/-- No zone is open after the zones are closed and the CLOSE mark is appended. -/
theorem finishClose_zones {s : State} {kind : CloseKind} (h : ∀ z ∈ s.ret.zones, z.openKind = none) :
    ∀ z ∈ (s.finishClose kind).ret.zones, z.openKind = none := by
  rw [finishClose_eq]
  dsimp only
  split
  · intro z hz
    obtain hz | hz := List.mem_append.mp hz
    · exact h z hz
    · rw [List.mem_singleton.mp hz]
      rfl
  · exact h

theorem cutShort_zones (s : State) (kind : CloseKind) : ∀ z ∈ (s.cutShort kind).ret.zones, z.openKind = none := by
  intro z hz
  obtain ⟨y, -, rfl⟩ := List.mem_map.mp hz
  exact closeBut_none_openKind _ _ y

/-! ## The pumps at the close (R58) -/

theorem toStopping_state (c : PumpChannel) : c.toStopping.state = .stopped ∨ c.toStopping.state = .stopping := by
  unfold PumpChannel.toStopping
  split
  · exact .inl rfl
  · exact .inr rfl

theorem toStopping_target (c : PumpChannel) : c.toStopping.target = c.target := by
  unfold PumpChannel.toStopping
  split <;> rfl

theorem jobClosed_target (c : PumpChannel) : c.jobClosed.target = 0 := by
  unfold PumpChannel.jobClosed
  dsimp only
  split
  · exact toStopping_target _
  · exact toStopping_target _
  all_goals rfl

theorem jobClosed_state (c : PumpChannel) :
    c.jobClosed.state = .stopped ∨ c.jobClosed.state = .stopping ∨ c.jobClosed.state = .held := by
  unfold PumpChannel.jobClosed
  dsimp only
  split
  · exact (toStopping_state _).imp_right .inl
  · exact (toStopping_state _).imp_right .inl
  · exact .inl rfl
  · next h => exact .inl h
  · next h => exact .inr (.inl h)
  · next h => exact .inr (.inr h)

/-- A pump of a CLOSED job has no target and does not run. -/
theorem jobClosed_stops (c : PumpChannel) :
    c.jobClosed.target = 0 ∧ c.jobClosed.state ≠ .starting ∧ c.jobClosed.state ≠ .running ∧
      c.jobClosed.state ≠ .stalled := by
  refine ⟨jobClosed_target c, ?_⟩
  obtain h | h | h := jobClosed_state c <;> rw [h] <;> decide

end Sys2Proof.Machine

/-! JOB_CLOSE (O47). -/

namespace Sys2Proof.Machine

open Host

section

variable (rq : ReqHead) (mode : Byte) (s : State)

theorem serveJobClose_range (h : 1 < mode.toNat) :
    serveJobClose (requestOf rq 22 [mode]) s = s.refuse .range := if_pos h

theorem serveJobClose_state (h : mode.toNat ≤ 1)
    (hjob : s.ret.job = .closed ∨ mode.toNat = 0 ∧ s.ret.job = .closing) :
    serveJobClose (requestOf rq 22 [mode]) s = s.refuse .state := by
  refine (if_neg (Nat.not_lt.mpr h)).trans ?_
  by_cases hclosed : s.ret.job = .closed
  · exact if_pos hclosed
  · exact (if_neg hclosed).trans (if_pos (hjob.resolve_left hclosed))

theorem serveJobClose_taken (h : mode.toNat ≤ 1)
    (hjob : ¬(s.ret.job = .closed ∨ mode.toNat = 0 ∧ s.ret.job = .closing)) :
    serveJobClose (requestOf rq 22 [mode]) s = (s.closeJob (mode.toNat == 1)).done := by
  obtain ⟨hopen, hclosing⟩ := not_or.mp hjob
  exact (if_neg (Nat.not_lt.mpr h)).trans ((if_neg hopen).trans (if_neg hclosing))

end

/-- What a normal close waits for (R159, R161). -/
def State.CloseWaits (s : State) : Prop :=
  s.straps.record = true ∧ (s.ret.lag ≠ [] ∨ ∃ z ∈ s.ret.zones, z.openKind ≠ none) ∨
    s.straps.record = false ∧ ∃ p ∈ s.peers, ∃ m, p.status = some m ∧ m.roles.record = true ∧ m.job ≠ .closed

/-- The station in CLOSING. -/
def State.closingBegun (s : State) : State :=
  s.beginClose (if s.straps.record = true then some .normal else none)

theorem zoneOpen_iff (s : State) : s.zoneOpen = false ↔ ¬∃ z ∈ s.ret.zones, z.openKind ≠ none := by
  unfold State.zoneOpen
  rw [List.any_eq_false]
  simp only [Option.not_isSome_iff_eq_none, ne_eq, not_exists, not_and, not_not]

theorem peersClosed_iff (s : State) :
    s.peersClosed = true ↔ ¬∃ p ∈ s.peers, ∃ m, p.status = some m ∧ m.roles.record = true ∧ m.job ≠ .closed := by
  unfold State.peersClosed PeerEntry.has
  simp only [List.all_eq_true, Bool.or_eq_true, Bool.not_eq_true', not_exists, not_and, not_not]
  refine forall_congr' fun p => forall_congr' fun _ => ?_
  cases p.status with
  | none => simp
  | some m =>
    simp only [Option.any_some, Option.all_some, beq_iff_eq, Option.some.injEq, forall_eq']
    cases m.roles.record <;> simp

section

variable {s : State}

theorem closingBegun_completes (hrun : s.mode = .run) (hrec : s.straps.record = true) : s.closingBegun.Completes ↔ ¬s.CloseWaits := by
  have hon : s.closingBegun.strataOn = true := (strataOn_iff (s := s.closingBegun) hrun).mpr ⟨hrec, .inr rfl⟩
  unfold State.Completes State.CloseWaits
  rw [zoneOpen_iff]
  constructor
  · rintro ⟨-, -, hlag, hzones⟩ (⟨-, h | h⟩ | ⟨h, -⟩)
    · exact h hlag
    · exact hzones h
    · exact absurd hrec (by rw [h]; decide)
  · intro h
    refine ⟨hon, rfl, ?_, fun k => h (.inl ⟨hrec, .inr k⟩)⟩
    by_contra hlag
    exact h (.inl ⟨hrec, .inl hlag⟩)

theorem closingBegun_peersClosed (hrec : s.straps.record = false) : s.closingBegun.peersClosed = true ↔ ¬s.CloseWaits := by
  rw [peersClosed_iff]
  refine not_congr ⟨fun h => .inr ⟨hrec, h⟩, ?_⟩
  rintro (⟨h, -⟩ | ⟨-, h⟩)
  · exact absurd hrec (by rw [h]; decide)
  · exact h

/-- A normal close waits in CLOSING (R158). -/
theorem closeJob_waits (hrun : s.mode = .run) (hwaits : s.CloseWaits) : s.closeJob false = s.closingBegun := by
  unfold State.closeJob
  by_cases hrec : s.straps.record = true
  · have htest := completionTest_waits fun h => (closingBegun_completes hrun hrec).mp h hwaits
    unfold State.closingBegun at htest ⊢
    rw [if_pos hrec, if_pos hrec] at *
    exact htest
  · have hoff := Bool.eq_false_iff.mpr hrec
    have htest := peerCloseTest_waits (.inr (Bool.eq_false_iff.mpr fun h => (closingBegun_peersClosed hoff).mp h hwaits))
    unfold State.closingBegun at htest ⊢
    rw [if_neg hrec, if_neg hrec] at *
    exact htest

/-! ### A close that is complete at once -/

/-- What a complete close of a kind makes of the records (R58, R143, R159 to R161). -/
structure JobEnds (s w : State) (kind : CloseKind) : Prop where
  job : w.ret.job = .closed ∧ w.ret.close = .complete ∧ w.ret.closeKind = some kind
  timer : w.billing.jobTimer = none
  pumps : ∀ p, (w.chan p).target = 0 ∧ (w.chan p).state ≠ .starting ∧ (w.chan p).state ≠ .running ∧
    (w.chan p).state ≠ .stalled
  record : s.straps.record = true →
    w.ret.lag = [] ∧ (∀ z ∈ w.ret.zones, z.openKind = none) ∧
    (∀ iv ∈ s.ret.intervals, (∃ tag ∈ s.ret.lag, tag.index = iv.index) →
      ∃ iv' ∈ w.ret.intervals, iv'.index = iv.index ∧ iv'.sample = .lost ∧ iv'.sampleTime = some s.ret.jobTime) ∧
    (∃ f, w.ret.frozen = some f ∧ f.total = s.total ∧ f.jobTime = s.ret.jobTime ∧ f.units = s.ret.units) ∧
    (s.ret.zones.length < 96 →
      w.ret.zones.getLast? = some (.mark .close s.ret.hole s.ret.jobTime (if kind = .normal then 0 else 1))) ∧
    (96 ≤ s.ret.zones.length → w.ret.unrecorded = min 65535 (s.ret.unrecorded + 1))

theorem jobClosed_chan (s : State) (p : PumpId) : (s.jobClosed.chan p) = (s.chan p).jobClosed := by cases p <;> rfl

/-- The close of a station without the RECORD role (R161). -/
theorem plainClose_ends (hrec : s.straps.record = false) (kind : CloseKind) (t : State) :
    JobEnds s (t.plainClose kind) kind where
  job := ⟨rfl, rfl, rfl⟩
  timer := rfl
  pumps p := by
    unfold State.plainClose
    rw [jobClosed_chan]
    exact jobClosed_stops _
  record h := absurd h (by rw [hrec]; decide)

/-- The four last steps of a close at a RECORD station, from a state whose records are `s`'s but for the log, the lag
queue and the zones. -/
theorem finishClose_ends {c : State} {kind : CloseKind} (hkind : c.ret.closeKind = some kind) (hlag : c.ret.lag = [])
    (hzones : ∀ z ∈ c.ret.zones, z.openKind = none) (hlength : c.ret.zones.length = s.ret.zones.length)
    (hlost : ∀ iv ∈ s.ret.intervals, (∃ tag ∈ s.ret.lag, tag.index = iv.index) →
      ∃ iv' ∈ c.ret.intervals, iv'.index = iv.index ∧ iv'.sample = .lost ∧ iv'.sampleTime = some s.ret.jobTime)
    (htotal : c.total = s.total) (htime : c.ret.jobTime = s.ret.jobTime) (hunits : c.ret.units = s.ret.units)
    (hhole : c.ret.hole = s.ret.hole) (hunrecorded : c.ret.unrecorded = s.ret.unrecorded) :
    JobEnds s (c.finishClose kind) kind := by
  have hclosed := finishClose_zones (kind := kind) hzones
  rw [finishClose_eq] at hclosed ⊢
  refine ⟨⟨rfl, rfl, hkind⟩, rfl, fun p => by cases p <;> exact jobClosed_stops _, fun _ =>
    ⟨hlag, hclosed, hlost, ⟨c.closingStatement, rfl, htotal, htime, hunits⟩, fun hroom => ?_, fun hfull => ?_⟩⟩
  · dsimp only
    rw [if_pos (hlength ▸ hroom), List.getLast?_concat, hhole, htime]
  · dsimp only
    rw [if_neg (by omega), hunrecorded]

theorem cutShort_lost (kind : CloseKind) :
    ∀ iv ∈ s.ret.intervals, (∃ tag ∈ s.ret.lag, tag.index = iv.index) →
      ∃ iv' ∈ (s.cutShort kind).ret.intervals, iv'.index = iv.index ∧ iv'.sample = .lost ∧
        iv'.sampleTime = some s.ret.jobTime :=
  fun iv hiv htag => ⟨iv.up true s.ret.jobTime, List.mem_map.mpr ⟨iv, hiv, if_pos htag⟩, rfl, rfl, rfl⟩

theorem closeJob_ends (hrun : s.mode = .run) {abrupt : Bool} (h : abrupt = true ∨ ¬s.CloseWaits) :
    JobEnds s (s.closeJob abrupt) (if abrupt then .abrupt else .normal) := by
  unfold State.closeJob
  by_cases hrec : s.straps.record = true
  · rw [if_pos hrec]
    cases abrupt with
    | true =>
      rw [if_pos rfl, abruptClose_eq]
      exact finishClose_ends rfl rfl (cutShort_zones s _) (List.length_map _) (cutShort_lost _) rfl rfl rfl rfl rfl
    | false =>
      have hwaits := h.resolve_left (by decide)
      have hdone := (closingBegun_completes hrun hrec).mpr hwaits
      have htest := completionTest_closes hdone
      have hlag : s.ret.lag = [] := hdone.2.2.1
      have hzones := (zoneOpen_iff _).mp hdone.2.2.2
      unfold State.closingBegun at htest
      rw [if_pos hrec] at htest
      rw [if_neg (by decide), htest]
      refine finishClose_ends rfl hlag (fun z hz => ?_) rfl (fun iv _ ⟨tag, htag, _⟩ => ?_) rfl rfl rfl rfl rfl
      · by_contra hopen
        exact hzones ⟨z, hz, hopen⟩
      · rw [hlag] at htag
        cases htag
  · have hoff := Bool.eq_false_iff.mpr hrec
    rw [if_neg hrec]
    cases abrupt with
    | true => exact plainClose_ends hoff _ _
    | false =>
      have htest := peerCloseTest_closes (s := s.closingBegun) hrun hoff rfl
        ((closingBegun_peersClosed hoff).mpr (h.resolve_left (by decide)))
      unfold State.closingBegun at htest
      rw [if_neg hrec] at htest
      rw [if_neg (by decide), htest]
      exact plainClose_ends hoff _ _

end

end Sys2Proof.Machine

namespace Sys2Proof

open Machine Host

/-- Settles O47: the tests, the close that waits, then the one that is complete at once. -/
theorem jobCloseEndsTheJob : Obligations.JobCloseEndsTheJob := by
  unfold Obligations.JobCloseEndsTheJob
  intro rq mode s hrun hs hserves refused waits closing
  have answered := fun {w result} => exec_served (g := fun _ => ⟨true, 1, false⟩) (f := serveJobClose)
    (i := .jobClose rq mode) (w := w) (result := result) (data := []) rfl hserves hrun rfl (by simp)
  have hstate : mode.toNat ≤ 1 → (s.ret.job = .closed ∨ mode.toNat = 0 ∧ s.ret.job = .closing) → refused .state :=
    fun h hjob => taken_answered hs (answered (serveJobClose_state rq mode s.taken h hjob))
  have htaken : s.taken.CloseWaits ↔ waits := Iff.rfl
  refine ⟨fun h => taken_answered hs (answered (serveJobClose_range rq mode s.taken h)), fun h hjob => hstate h (.inl hjob),
    fun h hjob => hstate (by omega) (.inr ⟨h, hjob⟩), fun h hjob hwaits => ?_, fun h => ?_⟩
  · have hserve := serveJobClose_taken rq mode s.taken (by omega)
      (show ¬(s.ret.job = .closed ∨ mode.toNat = 0 ∧ s.ret.job = .closing) by rw [hjob]; simp)
    rw [show (mode.toNat == 1) = false by rw [h]; rfl, closeJob_waits (s := s.taken) hrun hwaits] at hserve
    exact answered_settles (w := closing) rfl (answered hserve)
  · have hlow : mode.toNat ≤ 1 := by omega
    have hserve := serveJobClose_taken rq mode s.taken hlow
      (show ¬(s.ret.job = .closed ∨ mode.toNat = 0 ∧ s.ret.job = .closing) by
        obtain ⟨-, hj, -⟩ | ⟨hm, hj | hj⟩ := h <;> rw [hj] <;> simp [*])
    have hends := closeJob_ends (s := s.taken) hrun (abrupt := mode.toNat == 1) (by
      obtain ⟨-, -, hw⟩ | ⟨hm, -⟩ := h
      · exact .inr hw
      · exact .inl (by rw [hm]; rfl))
    have hkind : (if (mode.toNat == 1) = true then CloseKind.abrupt else .normal) =
        if mode.toNat = 0 then .normal else .abrupt := by
      obtain hm | hm : mode.toNat = 0 ∨ mode.toNat = 1 := by omega
      all_goals rw [hm]; rfl
    have hcode : (if (if mode.toNat = 0 then CloseKind.normal else .abrupt) = .normal then 0 else 1) =
        if mode.toNat = 0 then 0 else 1 := by split <;> rfl
    rw [hkind] at hends
    have hjob : s.taken.ret.job.code ≤ 2 := by
      obtain ⟨-, hj, -⟩ | ⟨-, hj | hj⟩ := h
      all_goals
        rw [show s.taken.ret.job = s.ret.job from rfl, hj]
        decide
    have hpop : LeavesOther [.link] s s.taken := leavesOther_link s s.link.popIntake
    have hclose := (moves_closeJob s.taken (mode.toNat == 1) hjob).other
    obtain ⟨t, ht, hsettles⟩ := answered_settles (w := s.taken.closeJob (mode.toNat == 1)) (s := s)
      (hpop.trans hclose).pending (answered hserve)
    have hanswer := (moves_answer (s.taken.closeJob (mode.toNat == 1)) .exchange (requestOf rq 0 []) .done []).other
    have o := hanswer.after hsettles.rest.other (r := [.link, .alarm]) (by decide) (by decide)
    have hret := o.ret (by decide)
    obtain ⟨⟨hjob, hclosed, hkind'⟩, htimer, hpumps, hrecord⟩ := hends
    refine ⟨t, ht, ?_, ?_, ?_, ?_, fun p => ?_, fun hrec => ?_,
      hsettles.changes ((hpop.trans hclose).trans hanswer) (by decide) (by decide)⟩
    · rw [hret, hjob]
    · rw [hret, hclosed]
    · rw [hret, hkind']
    · rw [o.billing (by decide), htimer]
    · rw [chan_congr (o.pumps (by decide))]
      exact hpumps p
    · rw [hret, ← hcode]
      exact hrecord hrec

end Sys2Proof

/-! The job second (O60). -/

namespace Sys2Proof.Machine

open Host

/-! ## The class of a second and the unsure seconds (R148, R149) -/

/-- Class 3 stands for a connection near the bottom (R148). -/
theorem activityClass_eq (s : State) :
    let claims := s.claimView
    let pumping := s.pumpsInView.any fun q => q.state == .running && decide (0 < q.spm)
    let near := match s.depth.bitDepth with
      | none => false
      | some d => decide (s.ret.hole ≤ d + 10000)
    s.activityClass =
      if s.ret.down then 0
      else if claims.any fun c => c.kind == .still then 1
      else if claims.any fun c => c.kind == .connection then (if near then 3 else 2)
      else if (s.ret.balState = .losing ∨ s.ret.balState = .totalLoss) ∧ pumping then 4
      else if s.depth.onBottom = true ∧ 0 < s.headRpm ∧ pumping then 5
      else if pumping then 6
      else 7 := by
  intro claims pumping near
  have hnear : (s.depth.bitDepth.any fun d => decide (s.ret.hole ≤ d + 10000)) = near := by
    unfold near
    cases s.depth.bitDepth <;> rfl
  have hpump : s.pumpRunning = pumping := rfl
  unfold State.activityClass State.kindInView
  rw [hnear, hpump]
  simp only [Bool.and_eq_true, Bool.or_eq_true, beq_iff_eq, decide_eq_true_eq, and_assoc]
  rfl

theorem unsureNow_iff (s : State) :
    s.unsureNow = true ↔
      (∃ c ∈ s.claimView, c.stale = true) ∨
      (∃ p ∈ s.peers, p.stale = true ∧ ∃ m, p.status = some m ∧ m.roles.pump = true) ∨
      (s.isPit = false ∧ (s.circ.heardStale = true ∨ s.circ.heardSource = none)) ∨
      s.depth.bitDepth = none ∨ s.depth.headSource = none := by
  have hpump : s.noStalePump = false ↔ ∃ p ∈ s.peers, p.stale = true ∧ ∃ m, p.status = some m ∧ m.roles.pump = true := by
    unfold State.noStalePump PeerEntry.has
    simp only [List.all_eq_false, Bool.not_eq_true', Bool.not_eq_false, Bool.and_eq_true]
    refine exists_congr fun p => and_congr_right fun _ => and_congr_right fun _ => ?_
    cases p.status <;> simp
  unfold State.unsureNow
  simp only [Bool.or_eq_true, Bool.and_eq_true, Bool.not_eq_true', List.any_eq_true, Option.isNone_iff_eq_none, hpump,
    or_assoc]

/-! ## The stages of a second (R147) -/

/-- The retained state with the second counted and, at a RECORD station, charged. -/
def State.counted (s : State) : State :=
  { s with ret := { s.ret with
    jobTime := s.ret.jobTime + 1
    meters := if s.straps.record then s.ret.meters.set s.activityClass (min top32 (s.ret.meters.getD s.activityClass 0 + 1))
      else s.ret.meters
    unsure := if s.straps.record then (if s.unsureNow then min top32 (s.ret.unsure + 1) else s.ret.unsure)
      else s.ret.unsure } }

theorem meterSecond_eq (s : State) :
    ({ s with ret := { s.ret with jobTime := s.ret.jobTime + 1 } } : State).meterSecond = s.counted := by
  unfold State.meterSecond State.counted
  by_cases hrec : s.straps.record = true
  · refine (if_pos hrec).trans ?_
    rw [if_pos hrec, if_pos hrec]
    rfl
  · refine (if_neg hrec).trans ?_
    rw [if_neg hrec, if_neg hrec]

/-- What a second adds to the open interval (R129). -/
def Interval.secondOn (iv : Interval) : Interval := { iv with seconds := min 65535 (iv.seconds + 1) }

/-- The log after a second. -/
def State.secondLog (s : State) : List Interval :=
  if s.strataOn = true ∧ s.depth.onBottom = true then
    match s.openInterval with
    | some op => s.ret.intervals.map fun iv => if iv.index = op.index then iv.secondOn else iv
    | none => s.ret.intervals
  else s.ret.intervals

theorem strataSecond_eq (s : State) : s.strataSecond = s.logged s.secondLog := by
  unfold State.strataSecond State.secondLog
  by_cases h : s.strataOn = true ∧ s.depth.onBottom = true
  · rw [if_pos h, if_pos (by rw [h.1, h.2]; rfl)]
    unfold State.mapOpen
    cases s.openInterval <;> rfl
  · rw [if_neg h, if_neg (by simpa using h)]
    rfl

/-- The station as a second begins its closing part. -/
def State.seconded (s : State) : State := s.counted.logged s.counted.secondLog

/-- What the closing part of a second makes of the station (R147, step 4; R159, R161). -/
structure ClosingSecond (c w : State) : Prop where
  kept : w.ret.jobTime = c.ret.jobTime ∧ w.ret.meters = c.ret.meters ∧ w.ret.unsure = c.ret.unsure ∧ w.straps = c.straps ∧
    w.ret.items = c.ret.items ∧ w.total = c.total
  rests : c.ret.job ≠ .closing → w = c
  counts : c.ret.job = .closing → w.ret.closingSeconds = c.ret.closingSeconds + 1
  waits : c.ret.job = .closing → c.ret.closingSeconds + 1 < 1800 →
    w.ret.job = .closing ∧ w.pumps = c.pumps ∧ w.ret.lag = c.ret.lag
  closes : c.ret.job = .closing → 1800 ≤ c.ret.closingSeconds + 1 →
    w.ret.job = .closed ∧ w.ret.close = .complete ∧ w.ret.closeKind = some .timedOut ∧ w.billing.jobTimer = none ∧
      (c.straps.record = true →
        w.ret.lag = [] ∧ (∀ z ∈ w.ret.zones, z.openKind = none) ∧ w.ret.frozen.isSome = true)
  ceiling : w.ret.overCeiling = c.ret.overCeiling ∨
    w.ret.overCeiling = (c.ret.overCeiling || ceilingReached (c.cfg Item.ceiling 0) c.total)
  plain : c.straps.record = false → w.billing.near = c.billing.near ∧ w.billing.reached = c.billing.reached ∧
    w.ret.overCeiling = c.ret.overCeiling

theorem ceilingNear_eq (c t : Nat) : ceilingNear c t = decide (c ≠ 0 ∧ c * 9 ≤ t * 10) := by
  rw [Bool.eq_iff_iff]
  simp [ceilingNear]

theorem ceilingReached_eq (c t : Nat) : ceilingReached c t = decide (c ≠ 0 ∧ c ≤ t) := by
  rw [Bool.eq_iff_iff]
  simp [ceilingReached]

/-- The total is a function of the items and of the meters and sums it charges (R156). -/
theorem total_congr {s t : State} (hitems : t.ret.items = s.ret.items) (hmeters : t.ret.meters = s.ret.meters)
    (hsum : t.ret.sumCurrent = s.ret.sumCurrent) (hhole : t.ret.hole = s.ret.hole) (hunits : t.ret.units = s.ret.units)
    (hwater : t.ret.billedWater = s.ret.billedWater) (hrods : t.ret.retirements = s.ret.retirements) :
    t.total = s.total := by
  have hcfg : t.cfg = s.cfg := by
    funext i k
    unfold State.cfg
    rw [hitems]
  simp only [State.total, State.timeCharges, State.overCharge, State.overFootage, State.defaultClass,
    State.additiveCharge, State.waterCharge, State.retirementCharge, hcfg, hmeters, hsum, hhole, hunits, hwater, hrods]

/-- A station in CLOSING with one second more. -/
def State.closingCounted (c : State) : State :=
  { c with ret := { c.ret with closingSeconds := c.ret.closingSeconds + 1 } }

theorem closingSecond_holds (c : State) : ClosingSecond c c.closingSecond := by
  unfold State.closingSecond
  by_cases hjob : c.ret.job = .closing
  swap
  · rw [if_neg hjob]
    exact ⟨⟨rfl, rfl, rfl, rfl, rfl, rfl⟩, fun _ => rfl, fun h => absurd h hjob, fun h => absurd h hjob,
      fun h => absurd h hjob, .inl rfl, fun _ => ⟨rfl, rfl, rfl⟩⟩
  rw [if_pos hjob]
  show ClosingSecond c (if 1800 ≤ c.ret.closingSeconds + 1 then
    (if c.straps.record then c.closingCounted.abruptClose .timedOut else c.closingCounted.plainClose .timedOut)
    else c.closingCounted)
  by_cases hlong : 1800 ≤ c.ret.closingSeconds + 1
  swap
  · rw [if_neg hlong]
    exact ⟨⟨rfl, rfl, rfl, rfl, rfl, rfl⟩, fun h => absurd hjob h, fun _ => rfl, fun _ _ => ⟨hjob, rfl, rfl⟩,
      fun _ h => absurd h hlong, .inl rfl, fun _ => ⟨rfl, rfl, rfl⟩⟩
  rw [if_pos hlong]
  by_cases hrec : c.straps.record = true
  · have hzones := finishClose_zones (kind := .timedOut) (cutShort_zones c.closingCounted .timedOut)
    have htotal : (c.closingCounted.cutShort .timedOut).total = c.total := total_congr rfl rfl rfl rfl rfl rfl rfl
    rw [if_pos hrec, abruptClose_eq]
    rw [finishClose_eq, htotal] at hzones ⊢
    exact ⟨⟨rfl, rfl, rfl, rfl, rfl, total_congr rfl rfl rfl rfl rfl rfl rfl⟩, fun h => absurd hjob h, fun _ => rfl,
      fun _ h => absurd hlong (by omega), fun _ _ => ⟨rfl, rfl, rfl, rfl, fun _ => ⟨rfl, hzones, rfl⟩⟩, .inr rfl,
      fun h => absurd hrec (by rw [h]; decide)⟩
  · rw [if_neg hrec]
    exact ⟨⟨rfl, rfl, rfl, rfl, rfl, rfl⟩, fun h => absurd hjob h, fun _ => rfl, fun _ h => absurd hlong (by omega),
      fun _ _ => ⟨rfl, rfl, rfl, rfl, fun h => absurd h hrec⟩, .inl rfl, fun _ => ⟨rfl, rfl, rfl⟩⟩

theorem jobSecond_eq {s : State} (h : s.ret.jobTime < top32) :
    s.jobSecond = let w := s.seconded.closingSecond
      if s.straps.record = true ∧ (s.ret.jobTime + 1) % 60 = 0 then w.checkCeiling else w := by
  obtain ⟨htime, -, -, hstraps, -⟩ := (closingSecond_holds s.seconded).kept
  unfold State.jobSecond
  rw [if_neg (Nat.not_le.mpr h)]
  dsimp only
  rw [meterSecond_eq, strataSecond_eq]
  show (if (s.seconded.closingSecond.straps.record && s.seconded.closingSecond.ret.jobTime % 60 == 0) = true then
    s.seconded.closingSecond.checkCeiling else s.seconded.closingSecond) = _
  rw [hstraps, htime]
  refine if_congr ?_ rfl rfl
  rw [Bool.and_eq_true, beq_iff_eq]
  rfl

end Sys2Proof.Machine

namespace Sys2Proof

open Machine Host

/-- Settles O60: a second that does not count, then one that does, stage by stage. -/
theorem jobSecondIsCharged : Obligations.JobSecondIsCharged := by
  unfold Obligations.JobSecondIsCharged
  intro s hrun hs top
  have hin := (inRun_iff s).mpr hrun
  have hexec : exec .jobSecond s = .next (s.inRunDo fun s => if s.billing.jobTimer.isSome then s.jobSecond else s) := rfl
  refine ⟨fun hidle => ?_, fun hon htime => ?_⟩
  · refine run_leaves hrun hexec ?_ rfl hs
    obtain hnone | hfull := hidle
    · exact if_neg (by rw [hnone]; exact Bool.false_ne_true)
    · split
      · exact if_pos hfull
      · rfl
  · intro claims pumping near cls unsure counted
    have hcls : s.activityClass = cls := activityClass_eq s
    have hunsure : s.unsureNow = true ↔ unsure := unsureNow_iff s
    have hmeters : s.seconded.ret.meters = counted.ret.meters := congrArg (fun k =>
      if s.straps.record then s.ret.meters.set k (min top (s.ret.meters.getD k 0 + 1)) else s.ret.meters) hcls
    have htotal : s.seconded.total = counted.total := total_congr rfl hmeters rfl rfl rfl rfl rfl
    have hclosing := closingSecond_holds s.seconded
    obtain ⟨hctime, hcmeters, hcunsure, -, hcitems, hctotal⟩ := hclosing.kept
    have hmoves := moves_jobSecond s
    have hsettles := finish_settles s s.jobSecond hmoves.other.pending
    have o := hsettles.rest.other
    have hret := o.ret (by decide)
    have hbilling := o.billing (by decide)
    have hpumps := o.pumps (by decide)
    have hsecond := jobSecond_eq htime
    have hkept : ∀ {α : Type} (f : Retained → α),
        (∀ r b, f { r with overCeiling := b } = f r) → f s.jobSecond.ret = f s.seconded.closingSecond.ret := fun f hf => by
      rw [hsecond]
      dsimp only
      split
      · exact hf _ _
      · rfl
    have htimer : s.jobSecond.billing.jobTimer = s.seconded.closingSecond.billing.jobTimer := by
      rw [hsecond]
      dsimp only
      split <;> rfl
    have hstill : s.jobSecond.pumps = s.seconded.closingSecond.pumps := by
      rw [hsecond]
      dsimp only
      split <;> rfl
    have hfield : ∀ {α : Type} (f : Retained → α), (∀ r b, f { r with overCeiling := b } = f r) →
        f (s.finish s.jobSecond).ret = f s.seconded.closingSecond.ret := fun f hf => (congrArg f hret).trans (hkept f hf)
    refine ⟨_, hexec.trans (congrArg _ (inRunDo_eq hrun (if_pos hon))), ?_, ?_, fun hrec hun => ?_, fun hun => ?_,
      fun iv hstrata hop hbottom hjob => ?_, fun hno hjob => ?_, fun hjob => ?_, fun hjob => ?_, fun hrec hminute => ?_,
      fun hno => ?_, hsettles.changes hmoves.other (by decide) (by decide)⟩
    · exact (hfield (·.jobTime) fun _ _ => rfl).trans hctime
    · exact (hfield (·.meters) fun _ _ => rfl).trans (hcmeters.trans hmeters)
    · refine (hfield (·.unsure) fun _ _ => rfl).trans (hcunsure.trans ?_)
      exact (if_pos hrec).trans (if_pos (hunsure.mpr hun))
    · refine (hfield (·.unsure) fun _ _ => rfl).trans (hcunsure.trans ?_)
      by_cases hrec : s.straps.record = true
      · exact (if_pos hrec).trans (if_neg fun k => hun.elim (fun h => absurd hrec (by rw [h]; decide)) (· (hunsure.mp k)))
      · exact if_neg hrec
    · refine (hfield (·.intervals) fun _ _ => rfl).trans ?_
      rw [hclosing.rests (by rw [show s.seconded.ret.job = s.ret.job from rfl, hjob]; decide)]
      refine (if_pos ⟨hstrata, hbottom⟩).trans ?_
      rw [show s.counted.openInterval = some iv from hop]
      rfl
    · refine (hfield (·.intervals) fun _ _ => rfl).trans ?_
      rw [hclosing.rests (by rw [show s.seconded.ret.job = s.ret.job from rfl, hjob]; decide)]
      by_cases hcounts : s.strataOn = true ∧ s.depth.onBottom = true
      · have hnone : s.openInterval = none := by
          obtain h | h | h := hno
          · exact absurd hcounts.1 (by rw [h]; decide)
          · exact h
          · exact absurd hcounts.2 (by rw [h]; decide)
        refine (if_pos hcounts).trans ?_
        rw [show s.counted.openInterval = none from hnone]
        rfl
      · exact if_neg hcounts
    · have hrests := hclosing.rests (by rw [show s.seconded.ret.job = s.ret.job from rfl, hjob]; decide)
      refine ⟨(hfield (·.job) fun _ _ => rfl).trans ?_, ?_, ?_, (hfield (·.closingSeconds) fun _ _ => rfl).trans ?_⟩
      · rw [hrests]
        exact hjob
      · rw [hbilling, htimer, hrests]
        rfl
      · rw [hpumps, hstill, hrests]
        rfl
      · rw [hrests]
        rfl
    · refine ⟨(hfield (·.closingSeconds) fun _ _ => rfl).trans (hclosing.counts hjob), fun hshort => ?_, fun hlong => ?_⟩
      · obtain ⟨hj, hp, hl⟩ := hclosing.waits hjob hshort
        exact ⟨(hfield (·.job) fun _ _ => rfl).trans hj, hpumps.trans (hstill.trans hp),
          (hfield (·.lag) fun _ _ => rfl).trans hl⟩
      · obtain ⟨hj, hc, hk, ht, hrecord⟩ := hclosing.closes hjob hlong
        refine ⟨(hfield (·.job) fun _ _ => rfl).trans hj, (hfield (·.close) fun _ _ => rfl).trans hc,
          (hfield (·.closeKind) fun _ _ => rfl).trans hk, (congrArg _ hbilling).trans (htimer.trans ht), fun hrec => ?_⟩
        rw [hfield (·.lag) fun _ _ => rfl, hfield (·.zones) fun _ _ => rfl, hfield (·.frozen) fun _ _ => rfl]
        exact hrecord hrec
    · intro c
      have hchecked : s.jobSecond = s.seconded.closingSecond.checkCeiling := hsecond.trans (if_pos ⟨hrec, hminute⟩)
      have hceiling : s.seconded.closingSecond.cfg Item.ceiling 0 = c := by
        unfold State.cfg
        rw [hcitems]
        rfl
      have htot : s.seconded.closingSecond.total = counted.total := hctotal.trans htotal
      refine ⟨?_, ?_, ?_⟩
      · rw [hbilling, hchecked]
        show ceilingNear (s.seconded.closingSecond.cfg Item.ceiling 0) s.seconded.closingSecond.total = _
        rw [hceiling, htot]
        exact ceilingNear_eq _ _
      · rw [hbilling, hchecked]
        show ceilingReached (s.seconded.closingSecond.cfg Item.ceiling 0) s.seconded.closingSecond.total = _
        rw [hceiling, htot]
        exact ceilingReached_eq _ _
      · rw [hret, hchecked]
        show (s.seconded.closingSecond.ret.overCeiling ||
          ceilingReached (s.seconded.closingSecond.cfg Item.ceiling 0) s.seconded.closingSecond.total) = _
        rw [hceiling, htot, ← ceilingReached_eq]
        obtain h | h := hclosing.ceiling
        · rw [h]
          rfl
        · rw [h, htotal, Bool.or_assoc]
          exact congrArg _ (Bool.or_self _)
    · have hplain : s.jobSecond = s.seconded.closingSecond := hsecond.trans (if_neg fun ⟨hrec, hminute⟩ =>
        hno.elim (fun h => absurd hrec (by rw [h]; decide)) fun h => h.2 hminute)
      have hsame : s.seconded.closingSecond.billing.near = s.billing.near ∧
          s.seconded.closingSecond.billing.reached = s.billing.reached ∧
          s.seconded.closingSecond.ret.overCeiling = s.ret.overCeiling := by
        obtain h | ⟨hjob, -⟩ := hno
        · exact hclosing.plain h
        · rw [hclosing.rests (by rw [show s.seconded.ret.job = s.ret.job from rfl, hjob]; decide)]
          exact ⟨rfl, rfl, rfl⟩
      rw [hbilling, hret, hplain]
      exact hsame

end Sys2Proof

/-! The heard balance record taken in (O53, O56): the zones, the open interval and the water bill (R129, R130, R139,
R140, R155). -/

namespace Sys2Proof.Machine

open Host

/-! ## The zones (R139, R140) -/

/-- The zones with those of another kind than the state's closed. -/
def State.zonesKept (s : State) : List ZoneEntry :=
  s.ret.zones.map (ZoneEntry.closeBut s.ret.balState.zoneKind s.ret.hole s.ret.jobTime)

/-- The zones and the unrecorded count after a change of the state. -/
def State.zonesMoved (s : State) : List ZoneEntry × Nat :=
  match s.ret.balState.zoneKind with
  | some k =>
    if (s.zonesKept.any fun z => z.openKind == some k) = true then (s.zonesKept, s.ret.unrecorded)
    else zoneEntered (.zone k s.ret.hole none s.ret.jobTime none 0) (s.zonesKept, s.ret.unrecorded)
  | none => (s.zonesKept, s.ret.unrecorded)

/-- The list of zones and the unrecorded count changed. -/
def State.zoned (s : State) (z : List ZoneEntry × Nat) : State :=
  { s with ret := { s.ret with zones := z.1, unrecorded := z.2 } }

theorem appendZone_eq (s : State) (z : ZoneEntry) :
    s.appendZone z = s.zoned (zoneEntered z (s.ret.zones, s.ret.unrecorded)) := by
  unfold State.appendZone zoneEntered
  split <;> rfl

theorem zonesFollow_eq (s : State) : s.zonesFollow = s.zoned s.zonesMoved := by
  unfold State.zonesFollow State.zonesMoved State.zonesKept
  dsimp only
  cases s.ret.balState.zoneKind with
  | none => rfl
  | some k =>
    dsimp only
    rw [appendZone_eq]
    show (if ((s.ret.zones.map (ZoneEntry.closeBut (some k) s.ret.hole s.ret.jobTime)).any fun z =>
      z.openKind == some k) = true then _ else _) = _
    split <;> rfl

/-- The zones after an update from `old` (R139, R140). -/
def State.zonesHeard (s : State) (old : Heard) : List ZoneEntry × Nat :=
  let z := if old.state = s.ret.balState then (s.ret.zones, s.ret.unrecorded) else s.zonesMoved
  (z.1.map (ZoneEntry.addVolume (s.ret.lost - old.lost) (s.ret.gained - old.gained)), z.2)

/-! ## The open interval (R129, R130) -/

/-- The open interval takes the volumes lost and gained and the flags of a state. -/
def Interval.heard (lost gained : Nat) (b : BalState) (iv : Interval) : Interval :=
  { iv with
    loss := satAdd top32 iv.loss lost
    gain := satAdd top32 iv.gain gained
    flags := iv.flags.heard b }

/-- An interval is the open one. -/
def State.opens (s : State) (iv : Interval) : Bool := s.openInterval.any fun op => op.index == iv.index

theorem opens_iff (s : State) (iv : Interval) : s.opens iv = true ↔ s.ret.IsOpen iv := by
  unfold State.opens Retained.IsOpen
  rw [Option.any_eq_true]
  simp only [openInterval_eq_some, beq_iff_eq, and_assoc]
  exact exists_congr fun op => and_congr_right fun _ => and_congr_right fun _ => eq_comm

/-- A change of records that keeps which interval is the open one. -/
theorem isOpen_map {r r' : Retained} {f : Interval → Interval} (h : r'.intervals = r.intervals.map f)
    (hf : ∀ iv, (f iv).index = iv.index ∧ (f iv).closedTime = iv.closedTime) (iv : Interval) :
    r'.IsOpen iv ↔ r.IsOpen iv := by
  unfold Retained.IsOpen
  rw [h, List.getLast?_map]
  constructor
  · rintro ⟨op, hlast, hopen, hindex⟩
    obtain ⟨op', hlast', rfl⟩ := Option.map_eq_some_iff.mp hlast
    exact ⟨op', hlast', (hf op').2 ▸ hopen, hindex.trans (hf op').1⟩
  · rintro ⟨op, hlast, hopen, hindex⟩
    exact ⟨f op, by rw [hlast]; rfl, (hf op).2.trans hopen, hindex.trans (hf op).1.symm⟩

/-- The log after an update from `old`. -/
def State.logHeard (s : State) (old : Heard) : List Interval :=
  s.ret.intervals.map fun iv =>
    if s.opens iv = true then iv.heard (s.ret.lost - old.lost) (s.ret.gained - old.gained) s.ret.balState else iv

theorem strataHeard_eq (s : State) (old : Heard) :
    s.strataHeard old = (s.logged (s.logHeard old)).zoned (s.zonesHeard old) := by
  have hflag := mapOpen_eq s (fun iv => { iv with flags := iv.flags.heard s.ret.balState }) (P := (s.opens · = true))
    (opens_iff s)
  have hzones : ∀ l : List Interval,
      (if old.state = (s.logged l).ret.balState then s.logged l else (s.logged l).zonesFollow).mapZones
        (ZoneEntry.addVolume (s.ret.lost - old.lost) (s.ret.gained - old.gained)) =
      (s.logged l).zoned (s.zonesHeard old) := fun l => by
    unfold State.zonesHeard
    rw [zonesFollow_eq]
    dsimp only
    by_cases h : old.state = s.ret.balState
    · rw [if_pos h]
      exact (congrArg (State.mapZones · _) (if_pos h)).trans rfl
    · rw [if_neg h]
      exact (congrArg (State.mapZones · _) (if_neg h)).trans rfl
  unfold State.strataHeard
  dsimp only
  rw [hflag]
  refine (congrArg (State.mapOpen · _) (hzones _)).trans ?_
  rw [mapOpen_eq _ _ (P := (s.opens · = true)) fun iv => ?_]
  · show (s.logged _).zoned (s.zonesHeard old) = _
    congr 2
    show List.map _ (List.map _ s.ret.intervals) = s.logHeard old
    unfold State.logHeard
    rw [List.map_map]
    refine List.map_congr_left fun iv _ => ?_
    have hsame : s.opens (if s.opens iv = true then { iv with flags := iv.flags.heard s.ret.balState } else iv) =
        s.opens iv := by
      split <;> rfl
    simp only [Function.comp_apply, hsame]
    split <;> rfl
  · rw [opens_iff]
    refine (isOpen_map (r := s.ret) rfl (fun iv => ?_) iv).symm
    split <;> exact ⟨rfl, rfl⟩

end Sys2Proof.Machine

/-! The heard balance record taken in, whole (R70), and the decision of an evaluation (R76 to R78). -/

namespace Sys2Proof.Machine

open Host

/-! ## The record taken in (R70) -/

/-- The station once its strata and billing units have acted on a change of the record (R129, R130, R139, R140, R155). -/
def State.told (s : State) (n : Heard) : State :=
  ((s.setHeard n).strataHeard s.heard).billWater (n.water - s.ret.water)

theorem told_eq (s : State) (n : Heard) :
    s.told n = (((s.setHeard n).logged ((s.setHeard n).logHeard s.heard)).zoned ((s.setHeard n).zonesHeard s.heard)).billWater
      (n.water - s.ret.water) :=
  congrArg (State.billWater · _) (strataHeard_eq (s.setHeard n) s.heard)

theorem heardUpdate_of_same (s : State) : s.heardUpdate s.heard = s := if_pos rfl

theorem heardUpdate_of_on {s : State} {n : Heard} (h : s.heard ≠ n) (hon : s.strataOn = true) :
    s.heardUpdate n = (s.told n).completionTest := (if_neg h).trans (if_pos hon)

/-- What a completed close leaves of the records (R159). -/
theorem completionTest_same {α : Type} (s : State) (f : Retained → α)
    (hf : ∀ (r : Retained) o z k u j c, f { r with overCeiling := o, frozen := z, zones := k, unrecorded := u, job := j, close := c } = f r) :
    f s.completionTest.ret = f s.ret := by
  by_cases h : s.Completes
  · rw [completionTest_closes h, finishClose_eq]
    exact hf _ _ _ _ _ _ _
  · rw [completionTest_waits h]

/-- The figures of the record after an update. -/
theorem heardUpdate_figures (s : State) (n : Heard) :
    (s.heardUpdate n).ret.balState = n.state ∧ (s.heardUpdate n).ret.lost = n.lost ∧
      (s.heardUpdate n).ret.gained = n.gained ∧ (s.heardUpdate n).ret.water = n.water ∧
      (s.heardUpdate n).ret.reference = s.ret.reference := by
  by_cases h : s.heard = n
  · subst h
    rw [heardUpdate_of_same]
    exact ⟨rfl, rfl, rfl, rfl, rfl⟩
  · by_cases hon : s.strataOn = true
    · rw [heardUpdate_of_on h hon, told_eq]
      exact ⟨completionTest_same _ (·.balState) fun _ _ _ _ _ _ _ => rfl, completionTest_same _ (·.lost) fun _ _ _ _ _ _ _ => rfl,
        completionTest_same _ (·.gained) fun _ _ _ _ _ _ _ => rfl, completionTest_same _ (·.water) fun _ _ _ _ _ _ _ => rfl,
        completionTest_same _ (·.reference) fun _ _ _ _ _ _ _ => rfl⟩
    · rw [heardUpdate_of_strataOff (Bool.eq_false_iff.mpr hon)]
      exact ⟨rfl, rfl, rfl, rfl, rfl⟩

/-- The billed water after an update (R155). -/
theorem heardUpdate_billed (s : State) (n : Heard) :
    (s.heardUpdate n).ret.billedWater =
      if s.strataOn = true ∧ s.heard ≠ n then min top32 (s.ret.billedWater + (n.water - s.ret.water))
      else s.ret.billedWater := by
  by_cases h : s.heard = n
  · subst h
    rw [heardUpdate_of_same, if_neg fun k => k.2 rfl]
  · by_cases hon : s.strataOn = true
    · rw [heardUpdate_of_on h hon, told_eq, if_pos ⟨hon, h⟩]
      exact completionTest_same _ (·.billedWater) fun _ _ _ _ _ _ _ => rfl
    · rw [heardUpdate_of_strataOff (Bool.eq_false_iff.mpr hon), if_neg fun k => hon k.1]
      rfl

/-! ## The decision of an evaluation (R76 to R78) -/

/-- The states a test of R77 moves to. -/
theorem balTest_cases (st : BalState) (confirm : Nat) (t : Trackers) :
    balTest st confirm t = none ∨ balTest st confirm t = some .totalLoss ∨ balTest st confirm t = some .losing ∨
      balTest st confirm t = some .flowing ∨ balTest st confirm t = some .balanced := by
  unfold balTest
  split
  · exact .inr (.inl rfl)
  · split
    · exact .inr (.inr (.inl rfl))
    · split
      · exact .inr (.inr (.inr (.inl rfl)))
      · split
        · exact .inr (.inr (.inr (.inr rfl)))
        · exact .inl rfl

section

variable (st : BalState) (moved : Option BalState) (t : Trackers)

/-- The state after the tests, the increments and the quiet count. -/
def balFinal : BalState :=
  if moved.isSome then moved.getD st
  else if t.lossRun = 3 ∨ t.lossRun ≠ 3 ∧ t.gainRun = 3 then
    (if st = .totalLoss ∨ st = .flowing then st else if t.lossRun = 3 then .losing else .gaining)
  else if (moved = none ∧ ¬(t.lossRun = 3 ∨ t.lossRun ≠ 3 ∧ t.gainRun = 3) ∧ (st = .losing ∨ st = .gaining)) ∧
    30 ≤ t.quiet + 1 then .balanced
  else st

/-- The trackers after the tests, the increments and the quiet count. -/
def balTrackers : Trackers :=
  { lossRun := if t.lossRun = 3 then 0 else t.lossRun
    gainRun := if t.lossRun ≠ 3 ∧ t.gainRun = 3 then 0 else t.gainRun
    noReturn := t.noReturn
    flow := t.flow
    restore := if moved = some .totalLoss then 0 else t.restore
    dry := if moved = some .flowing then 0 else t.dry
    quiet :=
      if moved = none ∧ ¬(t.lossRun = 3 ∨ t.lossRun ≠ 3 ∧ t.gainRun = 3) ∧ (st = .losing ∨ st = .gaining) then t.quiet + 1
      else if moved = some .losing ∨ (t.lossRun = 3 ∨ t.lossRun ≠ 3 ∧ t.gainRun = 3) ∧
        (balFinal st moved t = .losing ∨ balFinal st moved t = .gaining) then 0
      else t.quiet }

end

theorem decideBalance_eq (st : BalState) (confirm : Nat) (t : Trackers) (l : Int) (r : Reading) (e : Evaluation) :
    decideBalance st confirm t l r e =
      ⟨balFinal st (balTest st confirm t) t, balTrackers st (balTest st confirm t) t,
        if t.lossRun = 3 ∨ t.lossRun ≠ 3 ∧ t.gainRun = 3 then some r.reference else e.reference,
        if t.lossRun = 3 then satAdd top32 e.lost l.toNat else e.lost,
        if t.lossRun ≠ 3 ∧ t.gainRun = 3 then satAdd top32 e.gained (-l).toNat else e.gained⟩ := by
  have hcases := balTest_cases st confirm t
  unfold decideBalance
  generalize balTest st confirm t = moved at hcases
  by_cases hloss : t.lossRun = 3
  · obtain rfl | rfl | rfl | rfl | rfl := hcases
    · cases st <;> simp [balFinal, balTrackers, BalState.incremented, Trackers.enter, hloss]
    all_goals simp [balFinal, balTrackers, Trackers.enter, hloss]
  · by_cases hgain : t.gainRun = 3
    · obtain rfl | rfl | rfl | rfl | rfl := hcases
      · cases st <;> simp [balFinal, balTrackers, BalState.incremented, Trackers.enter, hloss, hgain]
      all_goals simp [balFinal, balTrackers, Trackers.enter, hloss, hgain]
    · obtain rfl | rfl | rfl | rfl | rfl := hcases
      · by_cases hshaky : st = .losing ∨ st = .gaining
        · by_cases hcalm : 30 ≤ t.quiet + 1
          · simp [balFinal, balTrackers, quietly, hloss, hgain, hshaky, hcalm]
          · simp [balFinal, balTrackers, quietly, hloss, hgain, hshaky, hcalm]
        · simp [balFinal, balTrackers, quietly, hloss, hgain, hshaky]
      all_goals simp [balFinal, balTrackers, Trackers.enter, hloss, hgain]

end Sys2Proof.Machine

/-! The water meter and the balance evaluation (O53). -/

namespace Sys2Proof.Machine

open Host

/-- A balance unit that stands as it was is not among the parts moved. -/
theorem LeavesOther.drop_circ {p : List Part} {s t : State} (h : LeavesOther (.circ :: p) s t) (hc : t.circ = s.circ) :
    LeavesOther p s t := by
  have hmem : ∀ q : Part, q ≠ .circ → q ∉ p → q ∉ Part.circ :: p := fun q hq hp k =>
    (List.mem_cons.mp k).elim hq hp
  exact ⟨h.pending, h.mode, h.straps, h.startKind, h.startSource, fun k => h.clock (hmem _ (by decide) k),
    fun k => h.pins (hmem _ (by decide) k), fun k => h.ret (hmem _ (by decide) k), fun k => h.link (hmem _ (by decide) k),
    fun k => h.peers (hmem _ (by decide) k), fun k => h.claims (hmem _ (by decide) k),
    fun k => h.thresholds (hmem _ (by decide) k), fun k => h.pumps (hmem _ (by decide) k), fun _ => hc,
    fun k => h.depth (hmem _ (by decide) k), fun k => h.rod (hmem _ (by decide) k), fun k => h.seq (hmem _ (by decide) k),
    fun k => h.spin (hmem _ (by decide) k), fun k => h.strata (hmem _ (by decide) k),
    fun k => h.billing (hmem _ (by decide) k), fun k => h.alarm (hmem _ (by decide) k)⟩

/-- An evaluation is computable (R73). -/
def State.Computable (s : State) : Prop :=
  s.headPosition.isSome = true ∧ s.viewSure = true ∧ s.noStalePump = true ∧ s.thresholds.pit.known = true ∧
    s.thresholds.ret.known = true

/-- The readings of an evaluation at a bit depth (R73, R74, R76). -/
def State.readingAt (s : State) (d : Nat) : Reading :=
  { pit := s.thresholds.pit.accepted * s.cfg Item.pitStep 0
    ret := s.thresholds.ret.accepted
    water := s.ret.water
    hole := s.ret.hole
    bit := d
    running := s.pumpRunning
    stopped := s.viewStrokeStopped }

theorem computable_iff (s : State) :
    (s.headPosition.isSome && s.viewSure && s.noStalePump && s.thresholds.pit.known && s.thresholds.ret.known) = true ↔
      s.Computable := by
  simp only [State.Computable, Bool.and_eq_true, and_assoc]

theorem reading_none {s : State} (h : ¬s.Computable) : s.reading = none :=
  if_neg (mt (computable_iff s).mp h)

theorem reading_some {s : State} (h : s.Computable) {d : Nat} (hd : s.depthNow = some d) :
    s.reading = some (s.readingAt d) := by
  unfold State.reading
  rw [if_pos ((computable_iff s).mpr h), hd]
  rfl

theorem evaluate_none {s : State} (h : s.reading = none) :
    s.evaluate = ⟨.suspended, if s.ret.balState = .suspended then s.circ.trackers else .clear, s.ret.reference, s.ret.lost,
      s.ret.gained⟩ := by
  unfold State.evaluate
  rw [h]
  dsimp only
  by_cases hst : s.ret.balState = .suspended
  · rw [if_pos hst, if_pos hst, hst]
  · rw [if_neg hst, if_neg hst]

theorem evaluate_first {s : State} {r : Reading} (h : s.reading = some r) (hst : s.ret.balState = .suspended) :
    s.evaluate = ⟨.balanced, .clear, some r.reference, s.ret.lost, s.ret.gained⟩ := by
  unfold State.evaluate
  rw [h, hst]

theorem evaluate_next {s : State} {r : Reading} {ref : BalRef} (h : s.reading = some r)
    (hst : s.ret.balState ≠ .suspended) (href : s.ret.reference = some ref) :
    s.evaluate =
      decideBalance s.ret.balState (s.cfg Item.totalLossConfirm 0)
        (s.circ.trackers.update s.ret.balState (s.cfg Item.lossThreshold 0) (s.cfg Item.gainThreshold 0)
          (s.imbalance ref r) r)
        (s.imbalance ref r) r ⟨s.ret.balState, s.circ.trackers, s.ret.reference, s.ret.lost, s.ret.gained⟩ := by
  unfold State.evaluate
  rw [h, href]
  cases hb : s.ret.balState with
  | suspended => exact absurd hb hst
  | _ => rfl

/-- The station before the record takes the figures of an evaluation. -/
def State.evaluated (s : State) (e : Evaluation) : State :=
  { s with
    ret := { s.ret with reference := e.reference }
    circ := { s.circ with evalTimer := some 2000, trackers := e.trackers } }

/-- The figures of an evaluation. -/
def State.evaluatedHeard (s : State) (e : Evaluation) : Heard :=
  { s.heard with state := e.state, lost := e.lost, gained := e.gained }

theorem evaluated_leaves (s : State) (e : Evaluation) : LeavesOther [.ret, .circ] s (s.evaluated e) := by
  constructor <;> first | rfl | (intro _; rfl) | simp

/-- An evaluation taken in (R70, R77). -/
theorem takeEvaluation_holds (s : State) (e : Evaluation) :
    let w := (s.evaluated e).heardUpdate (s.evaluatedHeard e)
    w.circ = { s.circ with evalTimer := some 2000, trackers := e.trackers } ∧ w.ret.balState = e.state ∧
      w.ret.reference = e.reference ∧ w.ret.lost = e.lost ∧ w.ret.gained = e.gained ∧
      (s.strataOn = false → w = { s with
        circ := { s.circ with evalTimer := some 2000, trackers := e.trackers }
        ret := { s.ret with balState := e.state, reference := e.reference, lost := e.lost, gained := e.gained } }) := by
  intro w
  obtain ⟨hstate, hlost, hgained, -, href⟩ := heardUpdate_figures (s.evaluated e) (s.evaluatedHeard e)
  exact ⟨heardUpdate_circ _ _, hstate, href, hlost, hgained, fun hoff => heardUpdate_of_strataOff (s := s.evaluated e) hoff _⟩

/-- Water is in no alarm condition. -/
theorem water_settled {s : State} (hs : s.AlarmsSettled) (w : Nat) :
    ({ s with ret := { s.ret with water := w } } : State).AlarmsSettled :=
  settled_of_conds hs rfl rfl fun d => by cases d <;> rfl

end Sys2Proof.Machine

namespace Sys2Proof

open Machine Host

/-- Settles O53: a pulse, then an evaluation by what it reads and what the record held. -/
theorem balanceFollowsThePit : Obligations.BalanceFollowsThePit := by
  unfold Obligations.BalanceFollowsThePit
  intro s hrun hs top unlisted
  have hpulse : exec .waterPulse s = .next (s.inRunDo fun s => if s.isPit then s.waterPulse else s) := rfl
  have heval : exec .balanceEvaluation s = .next (s.inRunDo fun s => if s.circ.evalTimer.isSome then
      ({ s with circ := { s.circ with evalTimer := some 2000 } } : State).takeEvaluation s.evaluate else s) := rfl
  refine ⟨fun hoff => run_leaves hrun hpulse (if_neg (by rw [hoff]; decide)) rfl hs, fun hon => ?_,
    fun hoff => run_leaves hrun heval (if_neg (by rw [hoff]; decide)) rfl hs, fun hon => ?_⟩
  · intro w
    have hw : (if s.isPit then s.waterPulse else s) = s.heardUpdate { s.heard with water := w } := if_pos hon
    have hmoves := moves_heardUpdate s { s.heard with water := w }
    have hsettles := finish_settles s _ hmoves.other.pending
    have o := hsettles.rest.other
    obtain ⟨-, -, -, hwater, -⟩ := heardUpdate_figures s { s.heard with water := w }
    have hcirc : (s.heardUpdate { s.heard with water := w }).circ = s.circ := heardUpdate_circ s _
    have hsame : s.heard = { s.heard with water := w } ↔ w = s.ret.water :=
      ⟨fun h => (congrArg Heard.water h).symm, fun h => by rw [h]; rfl⟩
    have hother : LeavesOther [.ret, .billing, .pumps] s (s.heardUpdate { s.heard with water := w }) :=
      (hmoves.other.mono (q := [.circ, .ret, .billing, .pumps]) (by decide)).drop_circ hcirc
    refine ⟨_, hpulse.trans (congrArg _ (inRunDo_eq hrun hw)), ?_, ?_, fun hoff => ?_,
      hsettles.changes hother (by decide) (by decide)⟩
    · rw [o.ret (by decide), hwater]
    · rw [o.ret (by decide), heardUpdate_billed]
      refine if_congr (and_congr_right fun _ => not_congr hsame) rfl rfl
    · rw [heardUpdate_of_strataOff hoff]
      exact finish_leaves s { s with ret := { s.ret with water := w } } rfl (water_settled hs w)
  · intro pit back computable measured rebased outcome st k
    have houtcome : ∀ e, s.evaluate = e → outcome e.state e.trackers e.reference e.lost e.gained := fun e he => by
      have hw : (if s.circ.evalTimer.isSome then
          ({ s with circ := { s.circ with evalTimer := some 2000 } } : State).takeEvaluation s.evaluate else s) =
          (s.evaluated e).heardUpdate (s.evaluatedHeard e) := (if_pos hon).trans (by rw [he]; rfl)
      have hmoves : LeavesOther [.ret, .circ, .billing, .pumps] s ((s.evaluated e).heardUpdate (s.evaluatedHeard e)) :=
        (evaluated_leaves s e).after (moves_heardUpdate _ _).other (by decide) (by decide)
      have hsettles := finish_settles s _ hmoves.pending
      have o := hsettles.rest.other
      obtain ⟨hcirc, hstate, href, hlost, hgained, hplain⟩ := takeEvaluation_holds s e
      have hret := o.ret (by decide)
      refine ⟨_, heval.trans (congrArg _ (inRunDo_eq hrun hw)), (o.circ (by decide)).trans hcirc,
        (congrArg Retained.balState hret).trans hstate, (congrArg Retained.reference hret).trans href,
        (congrArg Retained.lost hret).trans hlost, (congrArg Retained.gained hret).trans hgained, fun hoff => ?_,
        hsettles.changes hmoves (by decide) (by decide)⟩
      rw [hplain hoff]
      exact finish_settles s { s with circ := _, ret := _ } rfl
    refine ⟨fun hnot => houtcome _ (evaluate_none (reading_none hnot)),
      fun d hcan hd hst => houtcome _ (evaluate_first (reading_some hcan hd) hst), fun d ref hcan hd hst href => ?_⟩
    have heq := evaluate_next (reading_some hcan hd) hst href
    rw [decideBalance_eq] at heq
    intro loss run lossRun gainRun flow noReturn restore dry moved lossBooked gainBooked booked shaky calm final trackers
    have hnoReturn : (if ((s.readingAt d).running && (s.readingAt d).ret == 0) = true then
        (match k.noReturn with
        | none => some 0
        | some seconds => some (seconds + 2))
        else none) = noReturn := by
      unfold noReturn
      refine if_congr Iff.rfl ?_ rfl
      cases k.noReturn <;> rfl
    have hupdate : (s.circ.trackers.update s.ret.balState (s.cfg Item.lossThreshold 0) (s.cfg Item.gainThreshold 0)
        (s.imbalance ref (s.readingAt d)) (s.readingAt d)) = ⟨lossRun, gainRun, noReturn, flow, restore, dry, k.quiet⟩ :=
      congrArg (fun x => Trackers.mk lossRun gainRun x flow restore dry k.quiet) hnoReturn
    rw [hupdate, href] at heq
    exact houtcome _ heq

end Sys2Proof

/-! A change of the heard balance record at the pit station (O56). -/

namespace Sys2Proof.Machine

open Host

/-! ## The zones in the statement's words (R138, R139, R140) -/

/-- The zones that an update leaves, and the unrecorded count, by whether the state changes and its kind stands open. -/
theorem zonesHeard_eq (s : State) (old : Heard) :
    let kind := s.ret.balState.zoneKind
    let kept := s.zonesKept
    let opens := kind.any fun k => kept.all fun z => z.openKind != some k
    let begun := kind.toList.map fun k => ZoneEntry.zone k s.ret.hole none s.ret.jobTime none 0
    let changed := s.ret.balState ≠ old.state
    let moved := if changed ∧ opens ∧ kept.length < 96 then kept ++ begun else if changed then kept else s.ret.zones
    s.zonesHeard old =
      (moved.map (ZoneEntry.addVolume (s.ret.lost - old.lost) (s.ret.gained - old.gained)),
        if changed ∧ opens ∧ 96 ≤ kept.length then min 65535 (s.ret.unrecorded + 1) else s.ret.unrecorded) := by
  intro kind kept opens begun changed moved
  have hmoved : (if old.state = s.ret.balState then (s.ret.zones, s.ret.unrecorded) else s.zonesMoved) =
      (moved, if changed ∧ opens ∧ 96 ≤ kept.length then min 65535 (s.ret.unrecorded + 1) else s.ret.unrecorded) := by
    by_cases hsame : old.state = s.ret.balState
    · have hstill : ¬changed := fun h => h hsame.symm
      rw [if_pos hsame, if_neg fun h => hstill h.1]
      refine Prod.ext ?_ rfl
      exact ((if_neg fun h => hstill h.1).trans (if_neg hstill)).symm
    · have hchanged : changed := fun h => hsame h.symm
      rw [if_neg hsame]
      cases hk : s.ret.balState.zoneKind with
      | none =>
        have hopens : ¬(opens = true) := by
          show ¬(kind.any _ = true)
          rw [show kind = none from hk]
          exact Bool.false_ne_true
        have hz : s.zonesMoved = (kept, s.ret.unrecorded) := by
          unfold State.zonesMoved
          rw [hk]
        rw [hz, if_neg fun h => hopens h.2.1]
        refine Prod.ext ?_ rfl
        exact ((if_neg fun h => hopens h.2.1).trans (if_pos hchanged)).symm
      | some k =>
        have hopens : opens = true ↔ ¬((kept.any fun z => z.openKind == some k) = true) := by
          show kind.any _ = true ↔ _
          rw [show kind = some k from hk]
          simp [bne]
        have hz : s.zonesMoved = if (kept.any fun z => z.openKind == some k) = true then (kept, s.ret.unrecorded)
            else zoneEntered (.zone k s.ret.hole none s.ret.jobTime none 0) (kept, s.ret.unrecorded) := by
          unfold State.zonesMoved
          rw [hk]
        rw [hz]
        by_cases hany : (kept.any fun z => z.openKind == some k) = true
        · have hshut : ¬(opens = true) := fun h => hopens.mp h hany
          rw [if_pos hany, if_neg fun h => hshut h.2.1]
          refine Prod.ext ?_ rfl
          exact ((if_neg fun h => hshut h.2.1).trans (if_pos hchanged)).symm
        · have hopen := hopens.mpr hany
          rw [if_neg hany]
          unfold zoneEntered
          by_cases hroom : kept.length < 96
          · rw [if_pos hroom, if_neg fun h => absurd hroom (Nat.not_lt.mpr h.2.2)]
            refine Prod.ext ?_ rfl
            refine Eq.trans ?_ (if_pos ⟨hchanged, hopen, hroom⟩).symm
            show kept ++ _ = kept ++ kind.toList.map _
            rw [show kind = some k from hk]
            rfl
          · rw [if_neg hroom, if_pos ⟨hchanged, hopen, Nat.not_lt.mp hroom⟩]
            refine Prod.ext ?_ rfl
            exact ((if_neg fun h => hroom h.2.2).trans (if_pos hchanged)).symm
  unfold State.zonesHeard
  dsimp only
  rw [hmoved]

theorem zoneKind_eq (b : BalState) :
    b.zoneKind = match b with
      | .losing => some .loss
      | .totalLoss => some .totalLoss
      | .gaining => some .water
      | .flowing => some .water
      | .balanced => none
      | .suspended => none := by cases b <;> rfl

theorem told_same (s : State) (n : Heard) :
    (s.told n).strataOn = s.strataOn ∧ (s.told n).ret.job = s.ret.job ∧ (s.told n).ret.lag = s.ret.lag := by
  rw [told_eq]
  unfold State.strataOn State.inRun
  exact ⟨rfl, rfl, rfl⟩

/-! ## The commands that take a record in -/

/-- The station with a reference, a threshold and the balance unit's own part changed. -/
def State.primed (s : State) (r : Option BalRef) (timer : Option Nat) (k : Trackers) (th : Thresholds) : State :=
  { s with
    ret := { s.ret with reference := r }
    circ := { s.circ with evalTimer := timer, trackers := k }
    thresholds := th }

/-- Each of the commands takes a record in that has the pit station's own source. -/
theorem exec_takes {c : Instr} {s : State} (hrun : s.mode = .run) (hpit : s.isPit = true)
    (hc : c = .balanceEvaluation ∨ c = .waterPulse ∨ ∃ w x y z, c = .thresholdSample .ret w x y z) :
    ∃ r timer k th n, n.source = s.circ.heardSource ∧ n.stale = s.circ.heardStale ∧
      exec c s = .next (s.finish ((s.primed r timer k th).heardUpdate n)) := by
  have hsame : s.primed s.ret.reference s.circ.evalTimer s.circ.trackers s.thresholds = s := rfl
  obtain rfl | rfl | ⟨w, x, y, z, rfl⟩ := hc
  · by_cases hon : s.circ.evalTimer.isSome = true
    · refine ⟨s.evaluate.reference, some 2000, s.evaluate.trackers, s.thresholds, s.evaluatedHeard s.evaluate, rfl, rfl,
        congrArg _ (inRunDo_eq hrun (if_pos hon))⟩
    · refine ⟨s.ret.reference, s.circ.evalTimer, s.circ.trackers, s.thresholds, s.heard, rfl, rfl, ?_⟩
      rw [hsame, heardUpdate_of_same]
      exact congrArg _ (inRunDo_eq hrun (if_neg hon))
  · exact ⟨s.ret.reference, s.circ.evalTimer, s.circ.trackers, s.thresholds,
      { s.heard with water := satAdd top32 s.ret.water (s.cfg Item.waterPerPulse 0) }, rfl, rfl,
      congrArg _ (inRunDo_eq hrun (if_pos hpit))⟩
  · have hexec : ∀ v, s.sampleTaken .ret (thresholdReading w x y z) = v →
        exec (.thresholdSample .ret w x y z) s = .next (s.finish v) := fun v hv => congrArg _ (inRunDo_eq hrun hv)
    have hstill : ∀ v : Thresholds, s.sampleTaken .ret (thresholdReading w x y z) = { s with thresholds := v } →
        ∃ r timer k th n, n.source = s.circ.heardSource ∧ n.stale = s.circ.heardStale ∧
          exec (.thresholdSample .ret w x y z) s = .next (s.finish ((s.primed r timer k th).heardUpdate n)) := fun v hv =>
      ⟨s.ret.reference, s.circ.evalTimer, s.circ.trackers, v, s.heard, rfl, rfl,
        hexec _ (hv.trans (heardUpdate_of_same { s with thresholds := v }).symm)⟩
    by_cases hon : (s.thresholds.get .ret).timer.isSome = true
    · by_cases htold : ((s.thresholds.get .ret).take (thresholdReading w x y z)).accepted ≠ (s.thresholds.get .ret).accepted ∨
          ((s.thresholds.get .ret).take (thresholdReading w x y z)).known ≠ (s.thresholds.get .ret).known
      · have hs := sampleTaken_of_told (reading := thresholdReading w x y z) hon htold
        exact ⟨s.ret.reference, s.circ.evalTimer, s.circ.trackers, (s.sampled .ret (thresholdReading w x y z)).thresholds,
          { s.heard with ret := (s.sampled .ret (thresholdReading w x y z)).ownReturn }, rfl, rfl, hexec _ hs⟩
      · have h := not_or.mp htold
        exact hstill _ (sampleTaken_of_same hon (not_not.mp h.1) (not_not.mp h.2))
    · exact hstill s.thresholds (sampleTaken_of_stopped (Option.not_isSome_iff_eq_none.mp hon))

end Sys2Proof.Machine

namespace Sys2Proof

open Machine Host

/-- Settles O56: the record the command takes in, then what stands and what changes with it. -/
theorem zonesFollowTheHeardBalance : Obligations.ZonesFollowTheHeardBalance := by
  unfold Obligations.ZonesFollowTheHeardBalance
  intro c s hrun hs hpit hon hc
  obtain ⟨r, timer, k, th, n, hsource, hstale, hexec⟩ := exec_takes hrun hpit hc
  generalize hv : s.primed r timer k th = v at hexec
  have hheard : v.heard = s.heard := by rw [← hv]; rfl
  have hvon : v.strataOn = true := by rw [← hv]; exact hon
  have hprimed : LeavesOther [.thresholds, .circ, .ret] s v := by
    rw [← hv]
    unfold State.primed
    constructor <;> first | rfl | (intro _; rfl) | simp
  have hupdate := (moves_heardUpdate v n).other
  have hmoves := hprimed.after hupdate (r := [.thresholds, .circ, .ret, .billing, .pumps]) (by decide) (by decide)
  have hsettles := finish_settles s _ hmoves.pending
  have o := hsettles.rest.other
  have hret := o.ret (by decide)
  have hcirc := (o.circ (by decide)).trans (heardUpdate_circ v n)
  obtain ⟨hstate, hlost, hgained, hwater, -⟩ := heardUpdate_figures v n
  have hbilled := heardUpdate_billed v n
  rw [← hret] at hstate hlost hgained hwater hbilled
  refine ⟨_, hexec, ?_⟩
  rw [hstate, hlost, hgained, hwater]
  intro top state lost gained kind shut filled kept opens begun changed moved zones missed intervals heard completes
  have hsame : heard (s.finish (v.heardUpdate n)) = heard s ↔ v.heard = n := by
    show (_, (s.finish (v.heardUpdate n)).circ.heardReturn, _, _, _) = _ ↔ _
    rw [hstate, hlost, hgained, hwater, hcirc, hheard]
    simp only [heard, State.heard, Prod.mk.injEq]
    constructor
    · rintro ⟨h1, h2, h3, h4, h5⟩
      rw [← h1, ← h2, ← h3, ← h4, ← h5, ← hsource, ← hstale]
    · rintro rfl
      exact ⟨rfl, rfl, rfl, rfl, rfl⟩
  refine ⟨fun h => ?_, fun h => ?_, hsettles.changes hmoves (by decide) (by decide)⟩
  · rw [hret, ← hsame.mp h, heardUpdate_of_same, ← hv]
    rfl
  · have hne : v.heard ≠ n := fun k => h (hsame.mpr k)
    have htold := heardUpdate_of_on hne hvon
    have hpair : (v.setHeard n).zonesHeard s.heard = (zones, missed) := by
      have hkind : n.state.zoneKind = kind := zoneKind_eq n.state
      have hshut : ZoneEntry.closeBut kind s.ret.hole s.ret.jobTime = shut := by
        funext z
        cases z with
        | mark => rfl
        | zone k h b o time v => cases b <;> rfl
      have hfilled : ZoneEntry.addVolume lost gained = filled := by
        funext z
        cases z with
        | mark => rfl
        | zone k h b o time v => cases k <;> cases b <;> rfl
      have hkept : (v.setHeard n).zonesKept = kept := by
        rw [← hv]
        show s.ret.zones.map (ZoneEntry.closeBut n.state.zoneKind s.ret.hole s.ret.jobTime) = _
        rw [hkind, hshut]
      have heq := zonesHeard_eq (v.setHeard n) s.heard
      dsimp only at heq
      rw [heq, hkept, show (v.setHeard n).ret.balState.zoneKind = kind from hkind, ← hv]
      exact congrArg (fun f => (moved.map f, missed)) hfilled
    have hzones : (v.told n).ret.zones = zones ∧ (v.told n).ret.unrecorded = missed := by
      rw [told_eq, hheard]
      exact ⟨congrArg Prod.fst hpair, congrArg Prod.snd hpair⟩
    have hdone : (v.told n).Completes ↔ completes := by
      have hrest : (v.told n).strataOn = true ∧ (v.told n).ret.job = s.ret.job ∧ (v.told n).ret.lag = s.ret.lag := by
        obtain ⟨hstrata, hjob, hlag⟩ := told_same v n
        rw [hstrata, hjob, hlag, ← hv]
        exact ⟨hon, rfl, rfl⟩
      unfold State.Completes
      rw [zoneOpen_iff, hzones.1, hrest.2.1, hrest.2.2]
      constructor
      · rintro ⟨-, hjob, hlag, hshut⟩
        exact ⟨h, hjob, hlag, fun z hz => by_contra fun hopen => hshut ⟨z, hz, hopen⟩⟩
      · rintro ⟨-, hjob, hlag, hshut⟩
        exact ⟨hrest.1, hjob, hlag, fun ⟨z, hz, hopen⟩ => hopen (hshut z hz)⟩
    refine ⟨?_, ?_, fun hno => ?_, fun hyes => ?_⟩
    · rw [hret, htold]
      refine (completionTest_same _ (·.intervals) fun _ _ _ _ _ _ _ => rfl).trans ?_
      rw [told_eq, hheard, ← hv]
      rfl
    · rw [hbilled, if_pos ⟨hvon, hne⟩, ← hv]
      rfl
    · rw [hret, htold, completionTest_waits (mt hdone.mp hno)]
      refine ⟨hzones.1, hzones.2, ?_⟩
      rw [told_eq, ← hv]
      rfl
    · obtain ⟨hclose, -⟩ := finishClose_normal (v.told n)
      rw [hret, htold, completionTest_closes (hdone.mpr hyes), hclose]
      refine ⟨rfl, rfl, rfl, ?_⟩
      show (v.told n).closeMarked = _
      unfold State.closeMarked
      rw [hzones.1, hzones.2, told_eq, ← hv]
      rfl

end Sys2Proof

/-! The own head (O54): HEAD frames called for, bit depth after a change of the head's values, and wear. -/

namespace Sys2Proof.Machine

open Host

/-! ## Bit depth from the head's position -/

/-- Bit depth does not read the turns and the rpm of the head source. -/
theorem depthNow_of_position {s t : State} (hret : t.ret.items = s.ret.items ∧ t.ret.rods = s.ret.rods ∧
    t.ret.string = s.ret.string ∧ t.ret.hold = s.ret.hold) (hview : t.viewSure = s.viewSure)
    (hhead : t.headPosition = s.headPosition) : t.depthNow = s.depthNow := by
  obtain ⟨hitems, hrods, hstring, hhold⟩ := hret
  have hlen : t.rodLength = s.rodLength := funext fun i => by
    simp only [State.rodLength, State.typeLength, State.cfg, hitems, hrods]
  simp only [State.depthNow, State.stringLength, State.topLength, State.lengthOf, State.cfg, hhead, hstring, hhold, hview,
    hitems, hlen]

/-- Where the strata rules do not apply only H follows a new bit depth. -/
theorem recomputeDepth_ret_off {s : State} (hrun : s.inRun = true) (hoff : s.strataOn = false) :
    s.recomputeDepth.ret = { s.ret with hole := max s.ret.hole (s.depthNow.getD 0) } := by
  have hstrata : (s.takeDepth s.depthNow).strataOn = false := hoff
  have hflat : (if s.ret.hole < (s.takeDepth s.depthNow).ret.hole ∧ (s.takeDepth s.depthNow).strataOn = true then
      (s.takeDepth s.depthNow).holeRose else s.takeDepth s.depthNow) = s.takeDepth s.depthNow :=
    if_neg fun h => Bool.false_ne_true (hstrata.symm.trans h.2)
  have hunsure : (s.depth.bitDepth.isSome && s.depthNow.isNone && (s.takeDepth s.depthNow).strataOn) = false := by
    rw [hstrata, Bool.and_false]
  rw [recomputeDepth_eq hrun]
  dsimp only
  rw [hflat, hunsure]
  exact congrArg State.ret (if_neg Bool.false_ne_true)

/-! ## A call for a HEAD frame (R88) -/

theorem headCall_depth {w : State} (hrun : w.inRun = true) (hhead : w.straps.head = true) :
    w.headCall.depth = { w.depth with
      callKept := w.depth.callKept || w.depth.holdoff.isSome
      holdoff := if w.depth.holdoff = none then some 200 else w.depth.holdoff
      lastHanded := if w.depth.holdoff = none then some w.depth.h else w.depth.lastHanded } := by
  unfold State.headCall
  rw [if_pos (by rw [hrun, hhead]; rfl)]
  cases hoff : w.depth.holdoff with
  | none =>
    rw [if_neg (show ¬(none : Option Nat).isSome = true by decide), if_pos rfl, if_pos rfl]
    show ({ w.depth with holdoff := some 200, lastHanded := some w.depth.h } : DepthUnit) = _
    rw [Option.isSome_none, Bool.or_false]
  | some n =>
    rw [if_pos (show (some n).isSome = true from rfl), if_neg (Option.some_ne_none n), if_neg (Option.some_ne_none n),
      Option.isSome_some, Bool.or_true, ← hoff]

/-- The depth unit after a call that is made or not. -/
def DepthUnit.called (d : DepthUnit) (calls : Bool) : DepthUnit :=
  { d with
    callKept := d.callKept || (calls && d.holdoff.isSome)
    holdoff := if calls = true ∧ d.holdoff = none then some 200 else d.holdoff
    lastHanded := if calls = true ∧ d.holdoff = none then some d.h else d.lastHanded }

theorem called_depth {w : State} (hrun : w.inRun = true) (hhead : w.straps.head = true) (calls : Bool) :
    (if calls = true then w.headCall else w).depth = w.depth.called calls := by
  unfold DepthUnit.called
  cases calls with
  | false =>
    rw [if_neg Bool.false_ne_true, if_neg fun h => Bool.false_ne_true h.1, if_neg fun h => Bool.false_ne_true h.1,
      Bool.false_and, Bool.or_false]
  | true =>
    rw [if_pos rfl, headCall_depth hrun hhead]
    simp only [true_and, Bool.true_and]

theorem called_leaves (w : State) (calls : Bool) : LeavesOther [.depth, .link] w (if calls = true then w.headCall else w) := by
  split
  · exact (moves_headCall w).other
  · exact .refl _ w

/-! ## A change of the own head's values (R86, R88, R89, R93) -/

/-- The depth unit and H once bit depth has followed a change of the head's values. -/
structure DepthFormed (s w : State) (calls : Bool) (t : State) : Prop where
  depth : t.depth = { w.depth.called calls with
    bitDepth := if w.headValues ≠ s.headValues then w.depthNow else s.depth.bitDepth
    onBottom := if w.headValues ≠ s.headValues then onBottomAt w.depthNow t.ret.hole else s.depth.onBottom }
  hole : t.ret.hole = if w.headValues ≠ s.headValues then max s.ret.hole (w.depthNow.getD 0) else s.ret.hole
  ret : s.strataOn = false ∨ w.headValues = s.headValues → t.ret = { s.ret with hole := t.ret.hole }
  other : LeavesOther depthParts w t

/-- What the own head may change before the blocks are told: its unit and the input pins. -/
structure HeadSet (s w : State) : Prop where
  source : w.depth.headSource = s.depth.headSource
  depth : w.depth.bitDepth = s.depth.bitDepth ∧ w.depth.onBottom = s.depth.onBottom
  other : LeavesOther [.depth, .pins] s w

theorem HeadSet.inputs {s w : State} (h : HeadSet s w) : w.depthInputs = s.depthInputs ↔ w.headValues = s.headValues := by
  have hsource := h.source
  have hret := h.other.ret (by decide)
  have hview : w.viewSure = s.viewSure := by
    unfold State.viewSure
    rw [h.other.straps, h.other.rod (by decide)]
  unfold State.depthInputs
  rw [hsource, hret, hview]
  simp

theorem depthFormed {s w : State} (hrun : s.mode = .run) (hset : HeadSet s w) {c : State} {calls : Bool}
    (hc : c.depth = w.depth.called calls) (hleaves : LeavesOther [.depth, .link] w c) :
    DepthFormed s w calls (c.depthFollows s) := by
  have hret : c.ret = s.ret := (hleaves.ret (by decide)).trans (hset.other.ret (by decide))
  have hin : c.inRun = true := (inRun_iff c).mpr (hleaves.mode.trans (hset.other.mode.trans hrun))
  have hinputs : c.depthInputs = w.depthInputs := by
    refine depthInputs_of_same ?_ ⟨?_, ?_, ?_, ?_⟩ hleaves.straps (hleaves.peers (by decide)) (hleaves.rod (by decide))
    · rw [hleaves.ret (by decide)]
      exact .refl _
    all_goals rw [hc]; rfl
  by_cases hmoved : w.headValues = s.headValues
  · have hstill : c.depthFollows s = c := depthFollows_of_same (hinputs.trans (hset.inputs.mpr hmoved))
    rw [hstill]
    refine ⟨?_, ?_, fun _ => ?_, hleaves.mono (by decide)⟩
    · rw [if_neg (not_not.mpr hmoved), if_neg (not_not.mpr hmoved), hc, ← hset.depth.1, ← hset.depth.2]
      rfl
    · rw [if_neg (not_not.mpr hmoved), hret]
    · rw [hret]
  · have hgoes : c.depthFollows s = c.recomputeDepth :=
      depthFollows_of_changed fun h => hmoved (hset.inputs.mp (hinputs.symm.trans h))
    have hnow : c.depthNow = w.depthNow := depthNow_of_inputs hinputs (by rw [hleaves.ret (by decide)])
      (by rw [hleaves.ret (by decide)])
    have hhole := recomputeDepth_hole hin
    rw [hnow, hret] at hhole
    have hdepth := recomputeDepth_depth hin
    rw [hnow, hret, ← hhole, hc] at hdepth
    rw [hgoes]
    refine ⟨?_, ?_, fun h => ?_, hleaves.after (moves_recomputeDepth c).other (by decide) (by decide)⟩
    · rw [if_pos hmoved, if_pos hmoved, hdepth]
    · rw [if_pos hmoved, hhole]
    · have hoff : c.strataOn = false := by
        have hs := h.resolve_right hmoved
        unfold State.strataOn at hs ⊢
        rw [hin, hret, hleaves.straps, hset.other.straps]
        rwa [(inRun_iff s).mpr hrun] at hs
      have hfull := recomputeDepth_ret_off hin hoff
      rw [hret] at hfull
      rw [hfull]

end Sys2Proof.Machine

/-! Head counts, the top limit and rotation pulses (O54). -/

namespace Sys2Proof.Machine

open Host

/-- A command that first takes the level of a pin, at a station in RUN. -/
theorem exec_pins {c : Instr} {s w : State} {p : Pins} {f : State → State} (hrun : s.mode = .run)
    (hexec : exec c s = .next (({ s with pins := p } : State).inRunDo f)) (hw : f { s with pins := p } = w) :
    exec c s = .next (s.finish w) :=
  hexec.trans (congrArg _ (inRunDo_eq (s := { s with pins := p }) hrun hw))

/-! ## The head's count (R86, R88) -/

theorem movedHead_eq (s : State) (up : Bool) :
    s.movedHead up = min (s.cfg Item.mastTravel 0)
      (if up then s.depth.h + s.cfg Item.feedPerCount 0 else s.depth.h - s.cfg Item.feedPerCount 0) := by
  cases up <;> rfl

theorem movedFar_eq (d : DepthUnit) :
    d.movedFar = d.lastHanded.all fun p => decide (p + 10 ≤ d.h ∨ d.h + 10 ≤ p) := by
  unfold DepthUnit.movedFar
  cases d.lastHanded with
  | none => rfl
  | some p => simp

theorem onBottomAt_eq (depth : Option Nat) (hole : Nat) :
    onBottomAt depth hole = match depth with
      | none => false
      | some b => decide (hole ≤ b + 100) := by cases depth <;> rfl

/-- The blocks told of a count or a homing while the sequencer rests. -/
theorem headMoved_formed {s w : State} (hrun : s.mode = .run) (hseq : s.seq.state ≠ .running) (hset : HeadSet s w)
    (hhead : s.straps.head = true) (call : Bool) :
    DepthFormed s w (call || w.depth.movedFar) (w.headMoved s call) := by
  have hin : w.inRun = true := (inRun_iff w).mpr (hset.other.mode.trans hrun)
  have hform := depthFormed hrun hset (called_depth hin (by rw [hset.other.straps]; exact hhead) (call || w.depth.movedFar))
    (called_leaves w _)
  have hrest : (((if (call || w.depth.movedFar) = true then w.headCall else w).depthFollows s).seq.state ≠ .running) := by
    rw [hform.other.seq (by decide), hset.other.seq (by decide)]
    exact hseq
  unfold State.headMoved
  dsimp only
  rw [seqRun_of_waiting (.inl hrest)]
  exact hform

end Sys2Proof.Machine

namespace Sys2Proof

open Machine Host

/-- What O54 says of a change of the head's values, from the blocks told of it. -/
theorem formed_of_blocks {s w x : State} {calls : Bool} (hset : HeadSet s w) (hform : DepthFormed s w calls x) :
    let d := s.depth
    let t := s.finish x
    let moved := w.headValues ≠ s.headValues
    t.depth = { w.depth with
      bitDepth := if moved then w.depthNow else d.bitDepth
      onBottom :=
        if moved then
          match w.depthNow with
          | none => false
          | some b => decide (t.ret.hole ≤ b + 100)
        else d.onBottom
      callKept := w.depth.callKept || (calls && w.depth.holdoff.isSome)
      holdoff := if calls ∧ w.depth.holdoff = none then some 200 else w.depth.holdoff
      lastHanded := if calls ∧ w.depth.holdoff = none then some w.depth.h else w.depth.lastHanded } ∧
    t.ret.hole = (if moved then max s.ret.hole (w.depthNow.getD 0) else s.ret.hole) ∧ t.pins = w.pins ∧
    (s.strataOn = false ∨ ¬moved → t.ret = { s.ret with hole := t.ret.hole }) ∧
    ChangesOnly [.pins, .depth, .ret, .link, .alarm] s t := by
  intro d t moved
  obtain ⟨hdepth, hhole, hret, hother⟩ := hform
  have hall := hset.other.after hother (r := [.pins, .depth, .ret, .link, .alarm]) (by decide) (by decide)
  have hsettles := finish_settles s x hall.pending
  have o := hsettles.rest.other
  have htret : t.ret = x.ret := o.ret (by decide)
  refine ⟨?_, ?_, ?_, fun h => ?_, hsettles.changes hall (by decide) (by decide)⟩
  · rw [htret]
    simp only [onBottomAt_eq] at hdepth
    exact (o.depth (by decide)).trans hdepth
  · rw [htret]
    exact hhole
  · exact (o.pins (by decide)).trans (hother.pins (by decide))
  · rw [htret]
    exact hret (h.imp_right not_not.mp)

end Sys2Proof

/-! A completed turn (O54): the turns, the rpm, bit depth and the wear of the string (R87, R93, R101, R102). -/

namespace Sys2Proof.Machine

open Host

theorem diff32_next {n : Nat} (hn : n < 4294967296) : diff32 (next32 n) n = 1 := by
  unfold diff32 next32
  omega

theorem diff32_self {n : Nat} (hn : n < 4294967296) : diff32 n n = 0 := by
  unfold diff32
  omega

theorem next32_ne {n : Nat} (hn : n < 4294967296) : next32 n ≠ n := by
  unfold next32
  omega

/-- A change of the open interval changes the log alone. -/
theorem mapOpen_same {α : Type} (s : State) (g : Interval → Interval) (f : Retained → α)
    (hf : ∀ r l, f { r with intervals := l } = f r) : f (s.mapOpen g).ret = f s.ret := by
  unfold State.mapOpen
  cases s.openInterval with
  | none => rfl
  | some op => exact hf _ _

/-! ## Wear (R101, R102) -/

/-- The rods after turns are credited to the string. -/
def State.rodsWorn (s : State) (n : Nat) : List Rod :=
  if s.straps.rod then s.ret.rods.map fun r => if s.ret.string.contains r.id then s.wearRod n r else r else s.ret.rods

/-- Turns credited change the rods and the log alone. -/
theorem creditTurns_same {α : Type} (s : State) (n : Nat) (f : Retained → α)
    (hf : ∀ r l, f { r with intervals := l } = f r) :
    f (s.creditTurns n).ret = f { s.ret with rods := s.rodsWorn n } := by
  unfold State.creditTurns State.rodsWorn
  dsimp only
  by_cases hrod : s.straps.rod = true
  · rw [if_pos hrod, if_pos hrod]
    split
    · exact mapOpen_same _ _ f hf
    · rfl
  · rw [if_neg hrod, if_neg hrod]
    split
    · exact mapOpen_same _ _ f hf
    · rfl

/-- The turns credited at a change of the counts from a baseline (R101). -/
def wearOf (wear : Option (Nat × Nat)) (turns spins : Nat) : Option Nat :=
  wear.bind fun w =>
    if diff32 turns w.1 ≤ 100000 ∧ diff32 spins w.2 ≤ diff32 turns w.1 then some (diff32 turns w.1 - diff32 spins w.2)
    else none

/-- The string credited with the turns, if there are any to credit. -/
def State.credited (s : State) : Option Nat → State
  | some n => s.creditTurns n
  | none => s

theorem wearCredit_eq {s : State} {v : HeadValues} (hv : s.headValues = some v) :
    s.wearCredit =
      ({ s with depth := { s.depth with wear := some (v.turns, v.spinTurns) } } : State).credited
        (wearOf s.depth.wear v.turns v.spinTurns) := by
  unfold State.wearCredit wearOf
  rw [hv]
  dsimp only
  cases s.depth.wear with
  | none => rfl
  | some w =>
    by_cases hc : diff32 v.turns w.1 ≤ 100000 ∧ diff32 v.spinTurns w.2 ≤ diff32 v.turns w.1
    · rw [Option.bind_some, if_pos hc]
      exact if_pos hc
    · rw [Option.bind_some, if_neg hc]
      exact if_neg hc

/-! ## A turn (R87) -/

/-- The station with a turn counted, before the blocks are told. -/
def State.turned (s : State) (now : Nat) : State :=
  { s with
    ret := { s.ret with
      turns := next32 s.ret.turns
      spinTurns := if s.spin.state = SpinState.running then next32 s.ret.spinTurns else s.ret.spinTurns }
    depth := { s.depth with pulses := 0, rpm := s.depth.turnRpm now, turnRef := some now } }

section

variable {s : State} {now : Nat} (hrun : s.mode = .run) (hown : s.depth.headSource = some s.straps.number)

theorem headValues_own (hown : s.depth.headSource = some s.straps.number) :
    s.headValues = some ⟨s.depth.h, s.depth.headKnown, s.ret.turns, s.ret.spinTurns, s.depth.rpm⟩ := by
  unfold State.headValues
  rw [hown]
  exact if_pos rfl

theorem turned_depthNow (hown : s.depth.headSource = some s.straps.number) : (s.turned now).depthNow = s.depthNow := by
  refine depthNow_of_position ⟨rfl, rfl, rfl, rfl⟩ rfl ?_
  unfold State.headPosition
  rw [headValues_own hown, headValues_own (s := s.turned now) hown]
  rfl

include hown

/-- A turn forms bit depth again. -/
theorem turned_follows (hturns : s.ret.turns < 4294967296) :
    (s.turned now).depthFollows s = (s.turned now).recomputeDepth := by
  refine depthFollows_of_changed fun h => ?_
  have hhead : (s.turned now).headValues = s.headValues := congrArg DepthInputs.head h
  rw [headValues_own hown, headValues_own (s := s.turned now) hown] at hhead
  exact next32_ne hturns (congrArg HeadValues.turns (Option.some.inj hhead))

include hrun

theorem turned_formed :
    (s.turned now).recomputeDepth.headValues = some ⟨s.depth.h, s.depth.headKnown, (s.turned now).ret.turns,
      (s.turned now).ret.spinTurns, s.depth.turnRpm now⟩ ∧
    (s.turned now).recomputeDepth.ret.hole = max s.ret.hole (s.depthNow.getD 0) ∧
    (s.turned now).recomputeDepth.depth = { s.depth with
      pulses := 0
      rpm := s.depth.turnRpm now
      turnRef := some now
      bitDepth := s.depthNow
      onBottom := onBottomAt s.depthNow (max s.ret.hole (s.depthNow.getD 0)) } := by
  have hin : (s.turned now).inRun = true := (inRun_iff _).mpr hrun
  have hdepth := recomputeDepth_depth hin
  have hhole := recomputeDepth_hole hin
  rw [turned_depthNow hown] at hdepth hhole
  refine ⟨?_, hhole, hdepth⟩
  have hinputs := depthInputs_of_same (deepens_recomputeDepth (s.turned now))
    (by rw [hdepth]; exact ⟨rfl, rfl, rfl, rfl⟩) (moves_recomputeDepth _).other.straps
    ((moves_recomputeDepth _).other.peers (by decide)) ((moves_recomputeDepth _).other.rod (by decide))
  exact (congrArg DepthInputs.head hinputs).trans (headValues_own (s := s.turned now) hown)

end

end Sys2Proof.Machine

/-! Head motion (O54), command by command. -/

namespace Sys2Proof.Machine

open Host

/-- The station at a pulse: the clock and the pulse counted. -/
def State.pulsed (s : State) (now : Nat) : State :=
  { s with
    clockMs := max s.clockMs now
    depth := { s.depth with pulses := s.depth.pulses + 1, idleTimer := some 2000 } }

theorem pulsed_leaves (s : State) (now : Nat) : LeavesOther [.clock, .depth] s (s.pulsed now) := by
  constructor <;> first | rfl | (intro _; rfl) | simp

theorem called_false (d : DepthUnit) : d.called false = d := by
  unfold DepthUnit.called
  rw [if_neg fun h => Bool.false_ne_true h.1, if_neg fun h => Bool.false_ne_true h.1, Bool.false_and, Bool.or_false]

theorem rodsWorn_zero {s : State} (hlow : ∀ r ∈ s.ret.rods, r.turns < 4294967296) :
    (s.rodsWorn 0).map Rod.turns = s.ret.rods.map Rod.turns := by
  unfold State.rodsWorn
  split
  · rw [List.map_map]
    refine List.map_congr_left fun r hr => ?_
    have hturns : (s.wearRod 0 r).turns = r.turns := Nat.min_eq_right (Nat.le_of_lt_succ (hlow r hr))
    simp only [Function.comp_apply]
    split
    · exact hturns
    · rfl
  · rfl

/-- The station before its turn's wear is credited. -/
def State.beforeWear (s : State) (now : Nat) : State :=
  { ((s.pulsed now).turned now).recomputeDepth with
    depth := { ((s.pulsed now).turned now).recomputeDepth.depth with
      wear := some (((s.pulsed now).turned now).ret.turns, ((s.pulsed now).turned now).ret.spinTurns) } }

/-- The wear a turn credits: 1, or 0 while a spin runs (R101). -/
def State.turnWear (s : State) : Option Nat :=
  if s.depth.wear.isSome then some (if s.spin.state = .running then 0 else 1) else none

section

variable {s : State} {now : Nat}

theorem turnWear_eq (hturns : s.ret.turns < 4294967296) (hspins : s.ret.spinTurns < 4294967296)
    (hwear : s.depth.wear = none ∨ s.depth.wear = some (s.ret.turns, s.ret.spinTurns)) :
    wearOf s.depth.wear (next32 s.ret.turns)
      (if s.spin.state = SpinState.running then next32 s.ret.spinTurns else s.ret.spinTurns) = s.turnWear := by
  unfold wearOf State.turnWear
  obtain h | h := hwear
  · rw [h]
    rfl
  · rw [h, Option.bind_some, diff32_next hturns]
    refine Eq.trans ?_ (if_pos rfl).symm
    by_cases hspin : s.spin.state = .running
    · rw [if_pos hspin, if_pos hspin, diff32_next hspins, if_pos (by omega)]
    · rw [if_neg hspin, if_neg hspin, diff32_self hspins, if_pos (by omega)]

theorem rotationPulse_part (h : ¬s.cfg Item.pulsesPerTurn 0 ≤ s.depth.pulses + 1) :
    (s.stamp now).rotationPulse now = s.pulsed now := if_neg h

variable (hrun : s.mode = .run) (hown : s.depth.headSource = some s.straps.number) (hturns : s.ret.turns < 4294967296)
  (hspins : s.ret.spinTurns < 4294967296)
  (hwear : s.depth.wear = none ∨ s.depth.wear = some (s.ret.turns, s.ret.spinTurns))
include hrun hown hturns hspins hwear

theorem rotationPulse_turn (h : s.cfg Item.pulsesPerTurn 0 ≤ s.depth.pulses + 1) :
    (s.stamp now).rotationPulse now = (s.beforeWear now).credited s.turnWear := by
  have hdone : (s.stamp now).rotationPulse now = (((s.pulsed now).turned now).depthFollows (s.pulsed now)).wearCredit :=
    if_pos h
  obtain ⟨hvalues, -, hdepth⟩ := turned_formed (s := s.pulsed now) (now := now) hrun hown
  have hbase : ((s.pulsed now).turned now).recomputeDepth.depth.wear = s.depth.wear := by rw [hdepth]; rfl
  refine hdone.trans ((congrArg _ (turned_follows (s := s.pulsed now) hown hturns)).trans ((wearCredit_eq hvalues).trans ?_))
  rw [hbase]
  exact congrArg _ (turnWear_eq hturns hspins hwear)

/-- A completed turn, part by part. -/
theorem rotationPulse_holds (h : s.cfg Item.pulsesPerTurn 0 ≤ s.depth.pulses + 1) :
    let w := (s.stamp now).rotationPulse now
    LeavesOther [.clock, .ret, .depth, .link, .alarm] s w ∧ w.clockMs = max s.clockMs now ∧
      w.ret.turns = next32 s.ret.turns ∧
      w.ret.spinTurns = (if s.spin.state = .running then next32 s.ret.spinTurns else s.ret.spinTurns) ∧
      w.ret.hole = max s.ret.hole (s.depthNow.getD 0) ∧
      w.depth = { s.depth with
        pulses := 0
        idleTimer := some 2000
        rpm := s.depth.turnRpm now
        turnRef := some now
        wear := some (next32 s.ret.turns, if s.spin.state = .running then next32 s.ret.spinTurns else s.ret.spinTurns)
        bitDepth := s.depthNow
        onBottom := onBottomAt s.depthNow (max s.ret.hole (s.depthNow.getD 0)) } ∧
      w.ret.rods = (s.turnWear.map s.rodsWorn).getD s.ret.rods := by
  intro w
  obtain ⟨-, hhole, hdepth⟩ := turned_formed (s := s.pulsed now) (now := now) hrun hown
  have hnow : (s.pulsed now).depthNow = s.depthNow := rfl
  have hdeep := deepens_recomputeDepth ((s.pulsed now).turned now)
  have hmoves := (moves_recomputeDepth ((s.pulsed now).turned now)).other
  have hpulsed : LeavesOther [.clock, .ret, .depth] s ((s.pulsed now).turned now) := by
    constructor <;> first | rfl | (intro _; rfl) | simp
  have hbefore : LeavesOther [.clock, .ret, .depth, .link, .alarm] s (s.beforeWear now) :=
    (hpulsed.after hmoves (r := [.clock, .ret, .depth, .link, .alarm]) (by decide) (by decide)).after
      (moves_depth _ _).other (List.Subset.refl _) (by decide)
  have hdepth' : (s.beforeWear now).depth = _ := congrArg (fun d : DepthUnit => { d with
    wear := some (((s.pulsed now).turned now).ret.turns, ((s.pulsed now).turned now).ret.spinTurns) }) hdepth
  have hwhole : w = (s.beforeWear now).credited s.turnWear := rotationPulse_turn hrun hown hturns hspins hwear h
  have hclock : (s.beforeWear now).clockMs = max s.clockMs now := hmoves.clock (by decide)
  have hturns' : (s.beforeWear now).ret.turns = next32 s.ret.turns := by
    unfold Retained.Deepens at hdeep
    show ((s.pulsed now).turned now).recomputeDepth.ret.turns = _
    rw [hdeep]
    rfl
  have hspins' : (s.beforeWear now).ret.spinTurns =
      if s.spin.state = .running then next32 s.ret.spinTurns else s.ret.spinTurns := by
    unfold Retained.Deepens at hdeep
    show ((s.pulsed now).turned now).recomputeDepth.ret.spinTurns = _
    rw [hdeep]
    rfl
  have hworn : ∀ n, (s.beforeWear now).rodsWorn n = s.rodsWorn n := fun n => by
    have hrods : (s.beforeWear now).ret.rods = s.ret.rods := hdeep.rods
    have hstring : (s.beforeWear now).ret.string = s.ret.string := hdeep.string
    have hitems : (s.beforeWear now).ret.items = s.ret.items := hdeep.items
    unfold State.rodsWorn State.wearRod State.cfg
    rw [hrods, hstring, hitems, hbefore.straps]
  cases hn : s.turnWear with
  | none =>
    rw [hn] at hwhole
    rw [hwhole]
    exact ⟨hbefore, hclock, hturns', hspins', hhole, hdepth', hdeep.rods⟩
  | some n =>
    rw [hn] at hwhole
    rw [hwhole]
    unfold State.credited
    have hcredit := moves_creditTurns (s.beforeWear now) n
    refine ⟨hbefore.after hcredit.other (List.Subset.refl _) (by decide), (hcredit.other.clock (by decide)).trans hclock,
      (creditTurns_same _ n (·.turns) fun _ _ => rfl).trans hturns',
      (creditTurns_same _ n (·.spinTurns) fun _ _ => rfl).trans hspins',
      (creditTurns_same _ n (·.hole) fun _ _ => rfl).trans hhole, (hcredit.other.depth (by decide)).trans hdepth', ?_⟩
    exact (creditTurns_same _ n (·.rods) fun _ _ => rfl).trans (hworn n)

end

end Sys2Proof.Machine

namespace Sys2Proof

open Machine Host

/-- Settles O54: a count, the top limit, a pulse and the idle timeout. -/
theorem headMotionIsMeasured : Obligations.HeadMotionIsMeasured := by
  unfold Obligations.HeadMotionIsMeasured
  intro s hrun hs hseq d travel feed formed far
  have hfar : ∀ h : Nat, ({ d with h := h } : DepthUnit).movedFar = far h := fun h => movedFar_eq _
  refine ⟨fun up => ?_, fun level => ?_, fun now => ?_, ?_⟩
  · intro h
    have hexec : exec (.encoderCount up) s = .next (s.inRunDo fun s => if s.straps.head then
        ({ s with depth := { s.depth with h := s.movedHead up } } : State).headMoved s false else s) := rfl
    by_cases hhead : s.straps.head = true
    · have hset : HeadSet s { s with depth := { d with h := h } } := ⟨rfl, ⟨rfl, rfl⟩, (moves_depth s _).other.mono (by decide)⟩
      have hform := headMoved_formed hrun hseq hset hhead false
      have hbody : (if s.straps.head then ({ s with depth := { s.depth with h := s.movedHead up } } : State).headMoved s false
          else s) = ({ s with depth := { d with h := h } } : State).headMoved s false := (if_pos hhead).trans (by rw [movedHead_eq])
      refine ⟨_, hexec.trans (congrArg _ (inRunDo_eq hrun hbody)), fun hno => absurd hhead (by rw [hno]; decide), fun _ => ?_⟩
      rw [Bool.false_or, show ({ d with h := h } : DepthUnit).movedFar = far h from hfar h] at hform
      exact formed_of_blocks hset hform
    · refine ⟨_, hexec.trans (congrArg _ (inRunDo_eq hrun (if_neg hhead))), fun _ => finish_leaves s s rfl hs,
        fun hyes => absurd hyes hhead⟩
  · intro w homes
    have hexec : exec (.topLimit level) s = .next (w.inRunDo fun u =>
      if (level && !s.pins.topLimit) && u.straps.head then u.homed else u) := rfl
    have hhomes : ((level && !s.pins.topLimit) && w.straps.head) = true ↔ homes := by
      simp only [homes, w, Bool.and_eq_true, Bool.not_eq_true', and_assoc]
    by_cases hh : homes
    · have hset : HeadSet s { w with depth := { d with h := travel, headKnown := true } } :=
        ⟨rfl, ⟨rfl, rfl⟩, ((moves_pins s _).other.after (moves_depth _ _).other (by decide) (by decide))⟩
      have hform := headMoved_formed hrun hseq hset hh.2.2 (!d.headKnown)
      refine ⟨_, exec_pins hrun hexec (if_pos (hhomes.mpr hh)), fun hno => absurd hh hno, fun _ => ?_⟩
      rw [show ({ d with h := travel, headKnown := true } : DepthUnit).movedFar = far travel from movedFar_eq _] at hform
      exact formed_of_blocks hset hform
    · refine ⟨_, exec_pins hrun hexec (if_neg fun h => hh (hhomes.mp h)), fun _ => finish_leaves s w rfl (pins_settled hs _),
        fun hyes => absurd hyes hh⟩
  · intro clock turn
    have hexec : exec (.rotationPulse now) s = .next (s.inRunDo fun s => if (s.stamp now).straps.head then
      (s.stamp now).rotationPulse now else s.stamp now) := rfl
    refine ⟨fun hno => ?_, fun hhead hturn => ?_, fun hhead hturn hown => ?_⟩
    · exact run_leaves hrun hexec (if_neg (by rw [show (s.stamp now).straps.head = s.straps.head from rfl, hno]; decide)) rfl
        (settled_of_quiet hs ((moves_clock s _).other.mono (by decide)))
    · refine run_leaves hrun hexec ((if_pos hhead).trans (rotationPulse_part hturn)) rfl (settled_of_quiet hs ?_)
      exact (pulsed_leaves s now).mono (by decide)
    · intro turns spinning spins rpm wears worn hturns hspins hwear
      obtain ⟨hother, hclock, hnext, hspin, hhole, hdepth, hrods⟩ := rotationPulse_holds (now := now) hrun hown hturns hspins
        hwear hturn
      have hsettles := finish_settles s _ hother.pending
      have o := hsettles.rest.other
      have hret := o.ret (by decide)
      refine ⟨_, hexec.trans (congrArg _ (inRunDo_eq hrun (if_pos hhead))), ?_, ?_, (o.clock (by decide)).trans hclock, ?_, ?_,
        fun hw => ?_, fun hnone => ?_, fun hspinning hlow => ?_, hsettles.changes hother (by decide) (by decide)⟩
      · rw [hret, hnext]
        rfl
      · rw [hret, hspin]
        rfl
      · rw [hret, hhole]
      · rw [hret, hhole]
        rw [onBottomAt_eq] at hdepth
        exact (o.depth (by decide)).trans hdepth
      · obtain ⟨hbase, hstill, hrole⟩ := hw
        have hn : s.turnWear = some 1 := by
          unfold State.turnWear
          rw [if_pos (by rw [hbase]; rfl), if_neg hstill]
        rw [hret, hrods, hn]
        refine (if_pos hrole).trans (List.map_congr_left fun r _ => if_congr List.contains_iff_mem rfl rfl)
      · rw [hret, hrods]
        obtain hrole | hbase := hnone
        · have hsame : s.rodsWorn = fun _ => s.ret.rods := funext fun n => if_neg (by rw [hrole]; decide)
          rw [hsame]
          cases s.turnWear <;> rfl
        · have hn : s.turnWear = none := if_neg (by rw [show s.depth.wear = none from hbase]; decide)
          rw [hn]
          rfl
      · rw [hret, hrods]
        unfold State.turnWear
        rw [if_pos hspinning]
        split
        · exact rodsWorn_zero hlow
        · rfl
  · have hexec : exec .rotationIdleTimeout s = .next (s.inRunDo fun s => if s.depth.idleTimer.isSome then
        ({ s with depth := { s.depth with rpm := 0, turnRef := none, idleTimer := none } } : State).depthFollows s else s) := rfl
    by_cases hon : d.idleTimer.isSome = true
    · have hset : HeadSet s { s with depth := { d with rpm := 0, turnRef := none, idleTimer := none } } :=
        ⟨rfl, ⟨rfl, rfl⟩, (moves_depth s _).other.mono (by decide)⟩
      have hform := depthFormed (calls := false) hrun hset (called_false _).symm (.refl _ _)
      refine ⟨_, hexec.trans (congrArg _ (inRunDo_eq hrun (if_pos hon))), fun hno => absurd hon (by rw [hno]; decide), fun _ => ?_⟩
      exact formed_of_blocks hset hform
    · exact ⟨_, hexec.trans (congrArg _ (inRunDo_eq hrun (if_neg hon))), fun _ => finish_leaves s s rfl hs,
        fun hyes => absurd hyes hon⟩

end Sys2Proof

/-! A rise of H (O55): the records, tags and sums of the intervals it closes (R131 to R134, R152). -/

namespace Sys2Proof.Machine

open Host

/-! ## Saturating sums -/

/-- A sum saturated at each step from the first is the saturated sum. -/
theorem foldl_satAdd (top a : Nat) (f : Nat → Nat) (n : Nat) :
    (List.range (n + 1)).foldl (fun b i => satAdd top b (f i)) a = min top (a + ((List.range (n + 1)).map f).sum) := by
  induction n with
  | zero => simp [satAdd]
  | succ n ih =>
    rw [List.range_succ, List.foldl_append, ih, List.map_append, List.sum_append]
    simp only [List.foldl_cons, List.foldl_nil, List.map_cons, List.map_nil, List.sum_cons, List.sum_nil, satAdd]
    omega

/-! ## One interval closed -/

/-- What stands of the items' charges and volumes at a state. -/
structure SameItems (s t : State) : Prop where
  items : t.ret.items = s.ret.items
  pumped : t.ret.pumped = s.ret.pumped
  jobTime : t.ret.jobTime = s.ret.jobTime

section

variable {s t : State} (h : SameItems s t)
include h

theorem SameItems.cfg : t.cfg = s.cfg := by
  funext i k
  unfold State.cfg
  rw [h.items]

theorem SameItems.intervalCharge : t.intervalCharge = s.intervalCharge := by
  funext i c
  simp only [State.intervalCharge, State.bandOf, h.cfg]

theorem SameItems.volumeMark : t.volumeMark = s.volumeMark := by
  funext b
  simp only [State.volumeMark, State.annVol, State.sectionVolume, State.overlap, State.sectionTop, h.cfg, h.pumped]

end

/-- The tag of an interval (R134). -/
def State.tagOf (s : State) (k : Nat) : LagTag :=
  ⟨k, s.volumeMark ((k + 1) * s.cfg Item.intervalLength 0), (k + 1) * s.cfg Item.intervalLength 0, s.ret.jobTime⟩

/-- The record of a closed interval, with room for its tag or none (R132, R134, R152). -/
def State.doneRecord (s : State) (iv : Interval) (room : Bool) : Interval :=
  { iv.rates (s.cfg Item.intervalLength 0) with
    provisional := some (s.intervalCharge iv.index s.defaultClass)
    current := some (s.intervalCharge iv.index (s.classInForce iv))
    sample := if room then .inTransit else .untracked }

section

variable {s t : State} (h : SameItems s t)
include h

theorem SameItems.defaultClass : t.defaultClass = s.defaultClass := by
  unfold State.defaultClass
  rw [h.cfg]

theorem SameItems.classInForce : t.classInForce = s.classInForce := by
  funext iv
  unfold State.classInForce
  rw [h.defaultClass]

theorem SameItems.doneRecord : t.doneRecord = s.doneRecord := by
  funext iv room
  simp only [State.doneRecord, h.classInForce, h.defaultClass, h.cfg, h.intervalCharge]

theorem SameItems.tagOf : t.tagOf = s.tagOf := by
  funext j
  simp only [State.tagOf, h.cfg, h.volumeMark, h.jobTime]

end

/-- The records, the tags, the footage and the two sums set. -/
def Retained.ran (r : Retained) (intervals : List Interval) (lag : List LagTag) (footage provisional current : Nat) :
    Retained :=
  { r with
    intervals := intervals
    lag := lag
    closedFootage := footage
    sumProvisional := provisional
    sumCurrent := current }

/-- The records, the tags and the sums after the closing of `n` intervals from `k` on. -/
def State.afterRun (s : State) (op : Interval) (n k : Nat) : Retained :=
  s.ret.ran
    (s.ret.intervals ++ (List.range n).map fun i =>
      s.doneRecord (op.passed (n - 1 - i) (k + i) s.ret.jobTime) (decide (i < 32 - s.ret.lag.length)))
    (s.ret.lag ++ (List.range (min n (32 - s.ret.lag.length))).map fun i => s.tagOf (k + i))
    (s.ret.closedFootage + n * s.cfg Item.intervalLength 0)
    ((List.range n).foldl (fun a i => satAdd top32 a (s.intervalCharge (k + i) s.defaultClass)) s.ret.sumProvisional)
    ((List.range n).foldl (fun a i => satAdd top32 a (s.intervalCharge (k + i) (s.classInForce op))) s.ret.sumCurrent)

theorem passed_cls (op : Interval) (n k time : Nat) : (op.passed n k time).cls = op.cls := by
  unfold Interval.passed
  split <;> rfl

theorem closeOne_passed (op : Interval) (n k : Nat) (s : State) :
    (s.closeOne (op.passed n k s.ret.jobTime)).ret =
      s.ret.ran
        (s.ret.intervals ++ [s.doneRecord (op.passed n k s.ret.jobTime) (decide (s.ret.lag.length < 32))])
        (if s.ret.lag.length < 32 then s.ret.lag ++ [s.tagOf k] else s.ret.lag)
        (s.ret.closedFootage + s.cfg Item.intervalLength 0)
        (satAdd top32 s.ret.sumProvisional (s.intervalCharge k s.defaultClass))
        (satAdd top32 s.ret.sumCurrent (s.intervalCharge k (s.classInForce op))) := by
  have hclass : s.classInForce (op.passed n k s.ret.jobTime) = s.classInForce op := by
    unfold State.classInForce
    rw [passed_cls]
  rw [closeOne_ret]
  unfold State.closeRecord State.tagOf State.doneRecord Retained.ran
  dsimp only
  simp only [hclass, passed_index, decide_eq_true_eq]

theorem closeRun_ret (op : Interval) (n : Nat) : ∀ (k : Nat) (s : State), (s.closeRun op n k).ret = s.afterRun op n k := by
  induction n with
  | zero =>
    intro k s
    simp [State.closeRun, State.afterRun, Retained.ran]
  | succ n ih =>
    intro k s
    rw [closeRun_succ, ih (k + 1)]
    have hret := closeOne_passed op n k s
    generalize s.closeOne (op.passed n k s.ret.jobTime) = t at hret
    have hsame : SameItems s t := ⟨by rw [hret]; rfl, by rw [hret]; rfl, by rw [hret]; rfl⟩
    have hlag : t.ret.lag = if s.ret.lag.length < 32 then s.ret.lag ++ [s.tagOf k] else s.ret.lag := by rw [hret]; rfl
    have hfree : 32 - t.ret.lag.length = 32 - s.ret.lag.length - 1 := by
      rw [hlag]
      split
      · rw [List.length_append, List.length_singleton]
        omega
      · omega
    have hshift : ∀ i, k + 1 + i = k + (i + 1) := fun i => by omega
    unfold State.afterRun
    rw [hsame.doneRecord, hsame.tagOf, hsame.defaultClass, hsame.classInForce, hsame.cfg, hsame.intervalCharge, hsame.jobTime, hfree, hlag]
    simp only [hshift]
    rw [hret]
    refine congr (congr (congr (congrArg₂ (Retained.ran s.ret) ?_ ?_) ?_) ?_) ?_
    · rw [List.range_succ_eq_map, List.map_cons, List.map_map]
      refine (List.append_assoc _ _ _).trans (congrArg (s.ret.intervals ++ ·) ?_)
      refine congrArg₂ List.cons ?_ (List.map_congr_left fun i _ => ?_)
      · rw [Nat.add_sub_cancel, Nat.sub_zero, Nat.add_zero]
        exact congrArg (s.doneRecord _) (decide_eq_decide.mpr (by omega))
      · rw [Function.comp_apply, Nat.succ_eq_add_one, show n + 1 - 1 - (i + 1) = n - 1 - i by omega]
        exact congrArg (s.doneRecord _) (decide_eq_decide.mpr (by omega))
    · by_cases hroom : s.ret.lag.length < 32
      · rw [if_pos hroom, show min (n + 1) (32 - s.ret.lag.length) = min n (32 - s.ret.lag.length - 1) + 1 by omega,
          List.range_succ_eq_map, List.map_cons, List.map_map, List.append_assoc]
        rfl
      · rw [if_neg hroom, show min n (32 - s.ret.lag.length - 1) = 0 by omega,
          show min (n + 1) (32 - s.ret.lag.length) = 0 by omega]
        rfl
    · show s.ret.closedFootage + s.cfg Item.intervalLength 0 + n * s.cfg Item.intervalLength 0 = _
      rw [Nat.add_mul, Nat.one_mul]
      omega
    · rw [List.range_succ_eq_map, List.foldl_cons, List.foldl_map]
      rfl
    · rw [List.range_succ_eq_map, List.foldl_cons, List.foldl_map]
      rfl

end Sys2Proof.Machine

/-! A rise of H at a count of the own head (O55). -/

namespace Sys2Proof.Machine

open Host

/-! ## The count that moves nothing, and the one that moves bit depth -/

section

variable {s w : State} (hrun : s.mode = .run) (hseq : s.seq.state ≠ .running) (hset : HeadSet s w)
include hseq hset

theorem headMoved_eq (call : Bool) :
    w.headMoved s call = (if (call || w.depth.movedFar) = true then w.headCall else w).depthFollows s := by
  unfold State.headMoved
  dsimp only
  refine seqRun_of_waiting (.inl ?_)
  rw [(moves_depthFollows _ _).other.seq (by decide), (called_leaves w _).seq (by decide), hset.other.seq (by decide)]
  exact hseq

omit hseq hset

theorem called_inputs (call : Bool) : (if call = true then w.headCall else w).depthInputs = w.depthInputs := by
  have hleaves := called_leaves w call
  refine depthInputs_of_same ?_ ?_ hleaves.straps (hleaves.peers (by decide)) (hleaves.rod (by decide))
  · rw [hleaves.ret (by decide)]
    exact .refl _
  · split
    · unfold State.headCall
      split
      · split <;> exact ⟨rfl, rfl, rfl, rfl⟩
      · exact .refl _
    · exact .refl _

end

/-! ## The rise (R131 to R134) -/

theorem newInterval_eq {s : State} {d : Nat} (hd : s.depth.bitDepth = some d) (i : Nat) :
    s.newInterval i =
      { index := i, closedTime := none, seconds := 0, turns := 0, rop := none, meanRpm := none, loss := 0, gain := 0
        flags := ⟨s.ret.balState = .losing ∨ s.ret.balState = .totalLoss, s.ret.balState = .totalLoss,
          s.ret.balState = .gaining ∨ s.ret.balState = .flowing, false, false, false, false⟩
        sample := .none, sampleTime := none, lithology := none, cls := none, source := none, provisional := none
        current := none } := by
  unfold State.newInterval
  rw [hd]
  cases s.ret.balState <;> rfl

/-- The records after a rise that reaches bottoms (R131, R133). -/
theorem holeRose_ret {t : State} {op : Interval} (hop : t.openInterval = some op) (h : op.index < t.reached) :
    t.holeRose.ret =
      { t.dropOpen.afterRun op (t.reached - op.index) op.index with
        intervals := (t.dropOpen.afterRun op (t.reached - op.index) op.index).intervals ++
          if t.ret.hole < t.cfg Item.depthLimit 0 then [t.newInterval (t.ret.hole / t.cfg Item.intervalLength 0)] else [] } := by
  have honly := closeRun_closesOnly op (t.reached - op.index) op.index t.dropOpen
  have hmoves := (moves_closeRun op (t.reached - op.index) op.index t.dropOpen).other
  have hret := closeRun_ret op (t.reached - op.index) op.index t.dropOpen
  rw [holeRose_of_reached hop h]
  by_cases hlow : t.ret.hole < t.cfg Item.depthLimit 0
  · rw [if_pos hlow, if_pos hlow]
    unfold State.openNext
    have hcfg : (t.dropOpen.closeRun op (t.reached - op.index) op.index).cfg Item.intervalLength 0 =
        t.cfg Item.intervalLength 0 := by
      unfold State.cfg
      rw [honly.items]
      rfl
    have hbal : (t.dropOpen.closeRun op (t.reached - op.index) op.index).ret.balState = t.ret.balState := by
      rw [hret]
      rfl
    have hnew := newInterval_congr (s := t) hbal (hmoves.depth (by decide))
    rw [hcfg, honly.hole, hnew, hret]
    rfl
  · rw [if_neg hlow, if_neg hlow, hret, List.append_nil]

/-- The closed records of a run, in the statement's words (R131, R132, R152). -/
theorem doneRecord_passed (s : State) (op : Interval) {n i : Nat} (hi : i < n) (room : Prop) [Decidable room] :
    let deepest := decide (i + 1 = n)
    let seconds := if deepest then op.seconds else 0
    s.doneRecord (op.passed (n - 1 - i) (op.index + i) s.ret.jobTime) (decide room) =
      { op with
        index := op.index + i
        closedTime := some s.ret.jobTime
        seconds := seconds
        turns := if deepest then op.turns else 0
        loss := if deepest then op.loss else 0
        gain := if deepest then op.gain else 0
        flags := { op.flags with coarse := op.flags.coarse || !deepest }
        rop := if seconds = 0 then op.rop else some (s.cfg Item.intervalLength 0 * 60 / op.seconds)
        meanRpm := if seconds = 0 then op.meanRpm else some (min 65535 (op.turns * 60 / op.seconds))
        sample := if room then SampleState.inTransit else .untracked
        provisional := some (s.intervalCharge (op.index + i) s.defaultClass)
        current := some (s.intervalCharge (op.index + i) (s.classInForce op)) } := by
  intro deepest seconds
  unfold State.doneRecord Interval.passed Interval.rates
  simp only [decide_eq_true_eq]
  by_cases hdeep : i + 1 = n
  · have hyes : deepest = true := decide_eq_true hdeep
    have hzero : n - 1 - i = 0 := by omega
    simp only [hyes, hzero, seconds, if_true, Bool.not_true, Bool.or_false]
    by_cases hsec : op.seconds = 0
    · simp only [hsec, if_true]
      rfl
    · simp only [hsec, if_false]
      rfl
  · have hno : deepest = false := decide_eq_false hdeep
    have hpos : n - 1 - i ≠ 0 := by omega
    simp only [hno, hpos, seconds, Bool.false_eq_true, if_false, if_true, Bool.not_false, Bool.or_true]
    rfl

end Sys2Proof.Machine

namespace Sys2Proof

open Machine Host

/-- Settles O55: a count that changes no value of the head, then one by which H rises. -/
theorem riseOfHClosesIntervals : Obligations.RiseOfHClosesIntervals := by
  unfold Obligations.RiseOfHClosesIntervals
  intro up op bit s hrun hs hseq hhead hon hop top feed h w
  have hset : HeadSet s w := ⟨rfl, ⟨rfl, rfl⟩, (moves_depth s _).other.mono (by decide)⟩
  have hin := (inRun_iff s).mpr hrun
  have hbody : (if s.straps.head then ({ s with depth := { s.depth with h := s.movedHead up } } : State).headMoved s false
      else s) = w.headMoved s false := (if_pos hhead).trans (by rw [movedHead_eq])
  have hexec : exec (.encoderCount up) s = .next (s.finish (w.headMoved s false)) := congrArg _ (inRunDo_eq hrun hbody)
  have hmoved := headMoved_eq hseq hset false
  generalize hcalls : (false || w.depth.movedFar) = calls at hmoved
  generalize hc : (if calls = true then w.headCall else w) = c at hmoved
  have hleaves : LeavesOther [.depth, .link] s c := by
    rw [← hc]
    exact (moves_depth s _).other.after (called_leaves w calls) (by decide) (by decide)
  have hinputs : c.depthInputs = w.depthInputs := by
    rw [← hc]
    exact called_inputs calls
  refine ⟨fun hsame => ?_, fun hchange hnow hrise => ?_⟩
  · have hstill : c.depthFollows s = c := depthFollows_of_same (hinputs.trans (hset.inputs.mpr hsame))
    rw [hexec, hmoved, hstill]
    have hsettles := finish_settles s c hleaves.pending
    exact ⟨_, rfl, (hsettles.rest.other.ret (by decide)).trans (hleaves.ret (by decide)),
      hsettles.changes hleaves (by decide) (by decide)⟩
  · intro l limit n bottom charge default free closed losing gaining opened
    have hret : c.ret = s.ret := hleaves.ret (by decide)
    have hcin : c.inRun = true := (inRun_iff c).mpr (hleaves.mode.trans hrun)
    have hcnow : c.depthNow = some bit := (depthNow_of_inputs hinputs (by rw [hret]) (by rw [hret])).trans hnow
    have hcon : (c.takeDepth (some bit)).strataOn = true := by
      have hjob : (c.takeDepth (some bit)).ret.job = s.ret.job := by
        show c.ret.job = s.ret.job
        rw [hret]
      have hmode : (c.takeDepth (some bit)).inRun = s.inRun := hcin.trans hin.symm
      unfold State.strataOn at hon ⊢
      rw [hjob, hmode, show (c.takeDepth (some bit)).straps = s.straps from hleaves.straps]
      exact hon
    have htake : (c.takeDepth (some bit)).ret = { s.ret with hole := bit } := by
      show ({ c.ret with hole := max c.ret.hole bit } : Retained) = _
      rw [hret, Nat.max_eq_right (Nat.le_of_lt hrise)]
    have hgoes : c.depthFollows s = (c.takeDepth (some bit)).holeRose := by
      rw [depthFollows_of_changed fun heq => hchange (hset.inputs.mp (hinputs.symm.trans heq)), recomputeDepth_eq hcin, hcnow]
      dsimp only
      rw [Option.isNone_some, Bool.and_false, Bool.false_and, if_neg Bool.false_ne_true]
      exact if_pos ⟨by rw [hret, htake]; exact hrise, hcon⟩
    generalize hw : c.takeDepth (some bit) = u at htake hgoes
    have hdepth : u.depth.bitDepth = some bit := by rw [← hw]; rfl
    have htaken : LeavesOther [.ret, .depth] c u := by
      rw [← hw]
      exact (moves_takeDepth c (some bit)).other
    have hwhole : LeavesOther [.depth, .ret, .link, .alarm] s u.holeRose :=
      (hleaves.after htaken (r := [.depth, .ret, .link]) (by decide) (by decide)).after
        (moves_holeRose u).other (by decide) (by decide)
    have hsettles := finish_settles s u.holeRose hwhole.pending
    have htret := hsettles.rest.other.ret (by decide)
    have hreached : u.reached = min (bit / l) (limit / l) := by
      unfold State.reached State.cfg
      rw [htake]
      rfl
    have huop : u.openInterval = some op := by
      unfold State.openInterval
      rw [htake]
      exact hop
    rw [hexec, hmoved, hgoes]
    refine ⟨_, rfl, fun hzero => ?_, fun hpos => ?_, hsettles.changes hwhole (by decide) (by decide)⟩
    · rw [htret, holeRose_of_short fun op' hop' => ?_, htake]
      rw [← Option.some.inj (huop.symm.trans hop'), hreached]
      omega
    · have hn : n = u.reached - op.index := by rw [hreached]
      obtain ⟨m, hm⟩ : ∃ m, n = m + 1 := ⟨n - 1, by omega⟩
      have hrose := holeRose_ret huop (by omega)
      have hsame : SameItems s u.dropOpen :=
        ⟨(congrArg Retained.items htake :), (congrArg Retained.pumped htake :), (congrArg Retained.jobTime htake :)⟩
      have hdrop : u.dropOpen.ret = { s.ret with hole := bit, intervals := s.ret.intervals.dropLast } := by
        unfold State.dropOpen
        rw [htake]
      have hcfg : u.cfg = s.cfg := hsame.cfg
      have htail : (if u.ret.hole < u.cfg Item.depthLimit 0 then
          [u.newInterval (u.ret.hole / u.cfg Item.intervalLength 0)] else []) = if bit < limit then [opened] else [] := by
        rw [newInterval_eq hdepth, hcfg, htake]
      have hafter : u.dropOpen.afterRun op n op.index =
          u.dropOpen.ret.ran
            (s.ret.intervals.dropLast ++ (List.range n).map closed)
            (s.ret.lag ++ (List.range (min n free)).map fun i => s.tagOf (op.index + i))
            (s.ret.closedFootage + n * l)
            (min top (s.ret.sumProvisional + ((List.range n).map fun i => charge (op.index + i) default).sum))
            (min top (s.ret.sumCurrent + ((List.range n).map fun i =>
              charge (op.index + i) (op.cls.getD default)).sum)) := by
        unfold State.afterRun
        rw [hsame.doneRecord, hsame.tagOf, hsame.defaultClass, hsame.classInForce, hsame.cfg, hsame.intervalCharge,
          hsame.jobTime, hdrop]
        refine congr (congr (congr (congrArg₂ (Retained.ran _) ?_ rfl) rfl) ?_) ?_
        · refine congrArg _ (List.map_congr_left fun i hi => ?_)
          exact doneRecord_passed s op (List.mem_range.mp hi) (i < free)
        · rw [hm]
          exact foldl_satAdd _ _ _ _
        · rw [hm]
          exact foldl_satAdd _ _ _ _
      rw [htret, hrose, ← hn, hafter, htail, hdrop]
      rfl

end Sys2Proof

/-! A stroke credit (O24, O51): the tags that V releases and the close they may complete (R65, R135, R159). -/

namespace Sys2Proof.Machine

open Host

/-! ## Tags released (R135) -/

/-- The log and the lag queue set. -/
def State.tagged (s : State) (l : List Interval) (lag : List LagTag) : State :=
  { s with ret := { s.ret with intervals := l, lag := lag } }

theorem releaseDue_eq (tags : List LagTag) : ∀ s : State,
    s.releaseDue tags =
      s.tagged (upAll (tags.takeWhile fun g => decide (g.mark ≤ s.ret.pumped)) s.sampleLost s.ret.jobTime s.ret.intervals)
        (tags.dropWhile fun g => decide (g.mark ≤ s.ret.pumped)) := by
  induction tags with
  | nil =>
    intro s
    rw [List.takeWhile_nil, upAll_nil]
    rfl
  | cons g rest ih =>
    intro s
    unfold State.releaseDue
    by_cases hdue : g.mark ≤ s.ret.pumped
    · have hyes := decide_eq_true hdue
      rw [if_pos hdue, ih, List.takeWhile_cons, List.dropWhile_cons, if_pos hyes, if_pos hyes, ← upAll_cons]
      rfl
    · have hno : ¬decide (g.mark ≤ s.ret.pumped) = true := by simpa using hdue
      rw [if_neg hdue, List.takeWhile_cons, List.dropWhile_cons, if_neg hno, if_neg hno, upAll_nil]
      rfl

/-! ## The credit (R65) -/

section

variable (s : State) (v : Nat)

/-- V rises to `v` and the strata unit is told. -/
abbrev State.Rises : Prop := s.strataOn = true ∧ v ≠ s.ret.pumped

/-- The tags V at `v` releases. -/
def State.released : List LagTag :=
  if s.strataOn = true ∧ v ≠ s.ret.pumped then s.ret.lag.takeWhile fun g => decide (g.mark ≤ v) else []

/-- The tags V at `v` leaves in the lag queue. -/
def State.left : List LagTag :=
  if s.strataOn = true ∧ v ≠ s.ret.pumped then s.ret.lag.dropWhile fun g => decide (g.mark ≤ v) else s.ret.lag

/-- The station with V at `v` and the tags it releases gone. -/
def State.creditedTo : State :=
  { s with ret := { s.ret with
    pumped := v
    intervals := upAll (s.released v) s.sampleLost s.ret.jobTime s.ret.intervals
    lag := s.left v } }

/-- The last tag to leave completes the close (R159). -/
def State.CreditCloses : Prop :=
  s.Rises v ∧ s.ret.job = .closing ∧ s.left v = [] ∧ ∀ z ∈ s.ret.zones, z.openKind = none

end

theorem credit_rises {s : State} {volume : Nat} (h : s.Rises (satAdd top48 s.ret.pumped volume)) :
    s.credit volume = (s.creditedTo (satAdd top48 s.ret.pumped volume)).completionTest := by
  have hrelease := releaseDue_eq s.ret.lag { s with ret := { s.ret with pumped := satAdd top48 s.ret.pumped volume } }
  unfold State.credit
  dsimp only
  rw [if_neg h.2]
  unfold State.tagRelease
  refine (if_pos h.1).trans (congrArg State.completionTest (hrelease.trans ?_))
  unfold State.creditedTo State.released State.left
  rw [if_pos h, if_pos h]
  rfl

theorem credit_stands {s : State} {volume : Nat} (h : ¬s.Rises (satAdd top48 s.ret.pumped volume)) :
    s.credit volume = s.creditedTo (satAdd top48 s.ret.pumped volume) := by
  have hflat : s.creditedTo (satAdd top48 s.ret.pumped volume) =
      { s with ret := { s.ret with pumped := satAdd top48 s.ret.pumped volume } } := by
    unfold State.creditedTo State.released State.left
    rw [if_neg h, if_neg h, upAll_nil]
  rw [hflat]
  unfold State.credit
  dsimp only
  by_cases hv : satAdd top48 s.ret.pumped volume = s.ret.pumped
  · rw [if_pos hv, hv]
  · rw [if_neg hv]
    exact if_neg fun hon => h ⟨hon, hv⟩

theorem creditedTo_strataOn (s : State) (v : Nat) : (s.creditedTo v).strataOn = s.strataOn := rfl

theorem creditCloses_iff {s : State} {v : Nat} (h : s.Rises v) : (s.creditedTo v).Completes ↔ s.CreditCloses v := by
  unfold State.Completes
  rw [zoneOpen_iff, creditedTo_strataOn]
  constructor
  · rintro ⟨-, hjob, hlag, hzones⟩
    exact ⟨h, hjob, hlag, fun z hz => by_contra fun hopen => hzones ⟨z, hz, hopen⟩⟩
  · rintro ⟨-, hjob, hlag, hzones⟩
    exact ⟨h.1, hjob, hlag, fun ⟨z, hz, hopen⟩ => hopen (hzones z hz)⟩

section

variable {s : State} {volume : Nat}

/-- A credit that does not complete a close (R65, R135). -/
theorem credit_waits (h : ¬s.CreditCloses (satAdd top48 s.ret.pumped volume)) :
    s.credit volume = s.creditedTo (satAdd top48 s.ret.pumped volume) := by
  by_cases hrises : s.Rises (satAdd top48 s.ret.pumped volume)
  · rw [credit_rises hrises, completionTest_waits (mt (creditCloses_iff hrises).mp h)]
  · exact credit_stands hrises

/-- A credit whose last tag completes the close (R159). -/
theorem credit_closes (h : s.CreditCloses (satAdd top48 s.ret.pumped volume)) :
    s.credit volume = (s.creditedTo (satAdd top48 s.ret.pumped volume)).finishClose .normal := by
  rw [credit_rises h.1, completionTest_closes ((creditCloses_iff h.1).mpr h)]

theorem creditedTo_total (v : Nat) : (s.creditedTo v).total = s.total := total_congr rfl rfl rfl rfl rfl rfl rfl

end

/-- The pumps, the job and the ceiling once V is `v`, with or without the close it completes (R157, R159). -/
structure CloseFollows (s : State) (v : Nat) (w : State) : Prop where
  closes : s.CreditCloses v → w.ret.job = .closed ∧ w.ret.close = .complete ∧
    w.billing = ⟨none, ceilingNear (s.cfg Item.ceiling 0) s.total, ceilingReached (s.cfg Item.ceiling 0) s.total⟩ ∧
    (∃ frozen, w.ret.frozen = some frozen ∧ frozen.jobTime = s.ret.jobTime ∧ frozen.total = s.total) ∧
    (w.ret.zones, w.ret.unrecorded) = s.closeMarked ∧ w.pumps = ⟨s.pumps.a.jobClosed, s.pumps.b.jobClosed⟩ ∧
    w.ret.overCeiling = (s.ret.overCeiling || ceilingReached (s.cfg Item.ceiling 0) s.total)
  waits : ¬s.CreditCloses v → w.ret.job = s.ret.job ∧ w.ret.close = s.ret.close ∧ w.ret.frozen = s.ret.frozen ∧
    (w.ret.zones, w.ret.unrecorded) = (s.ret.zones, s.ret.unrecorded) ∧ w.billing = s.billing ∧ w.pumps = s.pumps ∧
    w.ret.overCeiling = s.ret.overCeiling
  rest : w.ret = { s.ret with
    pumped := w.ret.pumped
    lag := w.ret.lag
    intervals := w.ret.intervals
    zones := w.ret.zones
    unrecorded := w.ret.unrecorded
    job := w.ret.job
    close := w.ret.close
    frozen := w.ret.frozen
    overCeiling := w.ret.overCeiling }
  other : LeavesOther [.ret, .billing, .pumps] s w

/-- The records after a credit (R65, R135), beside what a close leaves. -/
structure Credited (s : State) (v : Nat) (w : State) : Prop extends CloseFollows s v w where
  records : w.ret.pumped = v ∧ w.ret.lag = s.left v ∧
    w.ret.intervals = upAll (s.released v) s.sampleLost s.ret.jobTime s.ret.intervals

theorem credit_holds (s : State) (volume : Nat) : Credited s (satAdd top48 s.ret.pumped volume) (s.credit volume) := by
  have hmoves := (moves_credit s volume).other
  by_cases h : s.CreditCloses (satAdd top48 s.ret.pumped volume)
  · have htotal : (s.creditedTo (satAdd top48 s.ret.pumped volume)).total = s.total := creditedTo_total _
    have hpair := (finishClose_normal (s.creditedTo (satAdd top48 s.ret.pumped volume))).1
    rw [credit_closes h] at hmoves ⊢
    have hzones : (((s.creditedTo (satAdd top48 s.ret.pumped volume)).finishClose .normal).ret.zones,
        ((s.creditedTo (satAdd top48 s.ret.pumped volume)).finishClose .normal).ret.unrecorded) = s.closeMarked := by
      rw [hpair]
      rfl
    rw [finishClose_eq, htotal] at hmoves hzones ⊢
    exact ⟨⟨fun _ => ⟨rfl, rfl, rfl, ⟨_, rfl, rfl, htotal⟩, hzones, rfl, rfl⟩, fun hno => absurd h hno, rfl, hmoves⟩,
      rfl, rfl, rfl⟩
  · rw [credit_waits h] at hmoves ⊢
    exact ⟨⟨fun hyes => absurd hyes h, fun _ => ⟨rfl, rfl, rfl, rfl, rfl, rfl, rfl⟩, rfl, hmoves⟩, rfl, rfl, rfl⟩

end Sys2Proof.Machine

/-! An accepted stroke edge (O51): the capture, the drive's rule and the STROKES frame (R48 to R50, R55, R59 to R62). -/

namespace Sys2Proof.Machine

open Host

/-! ## The close of the job at a channel (R58) -/

theorem jobClosed_eq (c : PumpChannel) :
    c.jobClosed =
      let c := { c with target := 0 }
      let off := { c with staged := 0, startTimer := none, highCount := 0 }
      if c.state = .starting ∨ c.state = .running then
        { off with state := if c.strokeStopped then .stopped else .stopping }
      else if c.state = .stalled then { off with state := .stopped }
      else c := by
  unfold PumpChannel.jobClosed PumpChannel.toStopping PumpChannel.toStopped
  dsimp only
  cases hstate : c.state with
  | starting => cases c.strokeStopped <;> rfl
  | running => cases c.strokeStopped <;> rfl
  | stalled => rfl
  | stopped => rfl
  | stopping => rfl
  | held => rfl

/-! ## The capture (R49, R55, R59 to R61) -/

/-- Whether the pressure is below a limit, and whether it is two steps or more above one (R60, R61). -/
theorem pressureClamp_eq (press : Threshold) (limit c d count : Nat) :
    pressureClamp press.known press.accepted limit c d count =
      let high := press.known && decide (limit + 2 ≤ press.accepted)
      (if high then max 1 (min c (d - 8)) else if press.known && decide (press.accepted < limit) then c else min c d,
        if high then min 3 (count + 1) else 0) := by
  unfold pressureClamp
  cases press.known with
  | false => rfl
  | true =>
    simp only [Bool.not_true, Bool.false_eq_true, if_false, Bool.true_and, decide_eq_true_eq]
    by_cases hlow : press.accepted < limit
    · have hno : ¬limit + 2 ≤ press.accepted := by omega
      simp only [hlow, hno, if_true, if_false]
    · by_cases hmid : press.accepted ≤ limit + 1
      · have hno : ¬limit + 2 ≤ press.accepted := by omega
        simp only [hlow, hmid, hno, if_true, if_false]
      · have hyes : limit + 2 ≤ press.accepted := by omega
        simp only [hlow, hmid, hyes, if_true, if_false]

/-- An accepted edge, in the statement's words. -/
theorem edge_eq (press : Threshold) (limit now : Nat) (c : PumpChannel) :
    c.edge press limit now =
      let edged := { c with lastEdge := some now, refValid := true, stoppedTimer := some 3000, strokeStopped := false }
      let period := min 65535 (now - c.lastEdge.getD 0)
      let spm := min 255 (60000 / period)
      let timed := { edged with period := period, spm := spm, limit := limit }
      let err := if spm ≤ c.target then c.target - spm else spm - c.target
      let by' := min 16 (max 1 (err / 2))
      let duty :=
        if err ≤ 2 then c.staged
        else if spm < c.target then max 1 (min 255 (c.staged + by'))
        else max 1 (min 255 (c.staged - by'))
      let high := press.known && decide (limit + 2 ≤ press.accepted)
      let count := if high then min 3 (c.highCount + 1) else 0
      let staged :=
        if high then max 1 (min duty (c.staged - 8))
        else if press.known && decide (press.accepted < limit) then duty
        else min duty c.staged
      let below := press.known && decide (press.accepted < limit)
      if c.refValid = false then edged
      else if c.state = .starting then
        { timed with state := .running, startTimer := none, pressureHigh := c.pressureHigh && !below }
      else if c.state = .running then
        { timed with
          staged := staged, highCount := count, pressureHigh := (c.pressureHigh || count == 3) && !below }
      else { timed with pressureHigh := c.pressureHigh && !below } := by
  unfold PumpChannel.edge PumpChannel.captured PumpChannel.pressureTest PumpChannel.control
  simp only [pressureClamp_eq]
  cases c.refValid with
  | false => rfl
  | true =>
    cases hstate : c.state with
    | starting => rfl
    | running => rfl
    | stopped => rfl
    | stopping => rfl
    | held => rfl
    | stalled => rfl

/-! ## The conditions of an edge in use (R48) -/

theorem accepts_iff (now : Nat) (c : PumpChannel) :
    c.accepts now = true ↔ ∀ last, c.lastEdge = some last → last + 200 ≤ now := by
  unfold PumpChannel.accepts
  cases c.lastEdge with
  | none => simp
  | some t => simp

theorem strokeEdgeUsed_iff (s : State) (p : PumpId) (e : Edge) :
    s.strokeEdgeUsed p e = true ↔ (e = .rising ↔ s.cfg Item.edgePolarity (pumpCode p) = 0) := by
  unfold State.strokeEdgeUsed
  rw [decide_eq_true_eq]
  by_cases h : s.cfg Item.edgePolarity (pumpCode p) = 0
  · rw [if_pos h]
    simp [h]
  · rw [if_neg h]
    cases e <;> simp [h]

end Sys2Proof.Machine

/-! STROKE_EDGE (O51). -/

namespace Sys2Proof.Machine

open Host

/-- The station with a stroke of a pump counted at a time. -/
def State.stroked (s : State) (p : PumpId) (now : Nat) : State := (s.stamp now).countStroke p

theorem stroked_ret (s : State) (p : PumpId) (now : Nat) :
    (s.stroked p now).ret = { s.ret with
      strokesA := if p = .a then next32 s.ret.strokesA else s.ret.strokesA
      strokesB := if p = .b then next32 s.ret.strokesB else s.ret.strokesB } := by cases p <;> rfl

theorem stroked_eq (s : State) (p : PumpId) (now : Nat) :
    s.stroked p now = { s with
      clockMs := max s.clockMs now
      ret := { s.ret with
        strokesA := if p = .a then next32 s.ret.strokesA else s.ret.strokesA
        strokesB := if p = .b then next32 s.ret.strokesB else s.ret.strokesB } } := by cases p <;> rfl

theorem stroked_leaves (s : State) (p : PumpId) (now : Nat) : LeavesOther [.clock, .ret] s (s.stroked p now) :=
  (moves_clock s _).other.after (moves_countStroke (s.stamp now) p).other (by decide) (by decide)

theorem stroked_same (s : State) (p : PumpId) (now : Nat) :
    (s.stroked p now).strataOn = s.strataOn ∧ (s.stroked p now).sampleLost = s.sampleLost ∧
      (s.stroked p now).total = s.total ∧ (s.stroked p now).strokes p = next32 (s.strokes p) := by
  cases p <;> exact ⟨rfl, rfl, total_congr rfl rfl rfl rfl rfl rfl rfl, rfl⟩

theorem edge_holdoff (press : Threshold) (limit now : Nat) (c : PumpChannel) :
    (c.edge press limit now).holdoff = c.holdoff ∧ (c.edge press limit now).effVolume = c.effVolume := by
  rw [edge_eq]
  dsimp only
  split_ifs <;> exact ⟨rfl, rfl⟩

/-- A call for a STROKES frame moves the channel's timing alone, beside the link unit (R62). -/
theorem callStrokes_pumps (s : State) (p : PumpId) (c : PumpChannel) :
    ((s.setChan p c).callStrokes p).pumps =
      s.pumps.set p (if c.holdoff.isSome then { c with callKept := true } else { c with holdoff := some 200 }) := by
  unfold State.callStrokes
  rw [chan_setChan_same]
  by_cases h : c.holdoff.isSome = true
  · rw [if_pos h, if_pos h]
    cases p <;> rfl
  · rw [if_neg h, if_neg h]
    cases p <;> rfl

/-- A call that is kept changes the channel alone, and another hands the frame (R62). -/
theorem callStrokes_eq (s : State) (p : PumpId) (c : PumpChannel) :
    (s.setChan p c).callStrokes p =
      let w : State := { s with
        pumps := s.pumps.set p (if c.holdoff.isSome then { c with callKept := true } else { c with holdoff := some 200 }) }
      if c.holdoff.isSome then w else w.broadcast .strokes (some p) (encodeStrokes ⟨p, s.strokes p, c.effVolume, c.spm⟩) := by
  unfold State.callStrokes
  dsimp only
  rw [chan_setChan_same]
  by_cases h : c.holdoff.isSome = true
  · rw [if_pos h, if_pos h, if_pos h]
    cases p <;> rfl
  · rw [if_neg h, if_neg h, if_neg h]
    cases p <;> rfl

theorem sampleLost_iff (s : State) :
    s.sampleLost = true ↔ s.circ.heardReturn = some 0 ∨ s.ret.balState = .totalLoss := by
  unfold State.sampleLost
  rw [Bool.or_eq_true, beq_iff_eq, beq_iff_eq]

/-- The log after the release of tags, in the statement's words. -/
theorem upAll_eq (tags : List LagTag) {lost : Bool} {P : Prop} [Decidable P] (h : lost = true ↔ P) (time : Nat)
    (l : List Interval) :
    upAll tags lost time l = l.map fun iv =>
      if ∃ g ∈ tags, g.index = iv.index then
        { iv with sample := if P then .lost else .surfaced, sampleTime := some time }
      else iv := by
  unfold upAll Interval.up
  simp only [h]

end Sys2Proof.Machine
namespace Sys2Proof

open Machine Host

/-- Settles O51: an edge not in use, then one that is, from the credit to the frame called for. -/
theorem strokeEdgeCountsAndCaptures : Obligations.StrokeEdgeCountsAndCaptures := by
  unfold Obligations.StrokeEdgeCountsAndCaptures
  intro p e now s hrun hs v rises due released left lost closes ceiling reached near ended pumps c clock used press limit
  have hexec : exec (.strokeEdge p e now) s = .next (s.inRunDo fun s =>
    if (s.stamp now).isFitted p && (s.stamp now).strokeEdgeUsed p e && ((s.stamp now).chan p).accepts now then
      (s.stamp now).strokeAccepted p now else s.stamp now) := rfl
  have hedge : c.lastEdge = (s.chan p).lastEdge := by
    unfold c ended
    dsimp only
    split_ifs <;> rfl
  have hused : ((s.stamp now).isFitted p && (s.stamp now).strokeEdgeUsed p e && ((s.stamp now).chan p).accepts now) = true ↔
      used := by
    rw [Bool.and_eq_true, Bool.and_eq_true, isFitted_iff_fitted (s := s.stamp now) hrun,
      strokeEdgeUsed_iff, accepts_iff,
      show ((s.stamp now).chan p).lastEdge = c.lastEdge from hedge.symm, and_assoc, and_assoc]
    rfl
  refine ⟨fun hno => ?_, fun hyes => ?_⟩
  · exact run_leaves hrun hexec (if_neg (mt hused.mp hno)) rfl (settled_of_quiet hs ((moves_clock s _).other.mono (by decide)))
  · intro edged period spm timed err by' duty high count staged below ruled one
    have hcredit := credit_holds (s.stroked p now) (s.chan p).effVolume
    have hbase := stroked_ret s p now
    have hb := stroked_eq s p now
    have hstands := fun h => credit_stands (s := s.stroked p now) (volume := (s.chan p).effVolume) h
    obtain ⟨hstrata, hlost, htotal, hstrokes⟩ := stroked_same s p now
    have hleaves := stroked_leaves s p now
    have hv : satAdd top48 (s.stroked p now).ret.pumped (s.chan p).effVolume = v := by rw [hbase]; rfl
    have haccepted : (s.stamp now).strokeAccepted p now =
        (((s.stroked p now).credit (s.chan p).effVolume).setChan p
          ((((s.stroked p now).credit (s.chan p).effVolume).chan p).edge
            ((s.stroked p now).credit (s.chan p).effVolume).thresholds.pressure
            (((s.stroked p now).credit (s.chan p).effVolume).pressureLimit p) now)).callStrokes p := rfl
    rw [hv] at hcredit hstands
    generalize s.stroked p now = b at hcredit hbase hb hstands hstrata hlost htotal hstrokes hleaves haccepted
    generalize b.credit (s.chan p).effVolume = x at hcredit hstands haccepted
    have hrises : b.Rises v ↔ rises := by
      unfold State.Rises
      rw [hstrata, hbase]
      exact and_congr_right fun _ => ne_comm
    have hreleased : b.released v = released := by
      unfold State.released
      refine (if_congr hrises ?_ rfl)
      rw [hbase]
    have hleft : b.left v = left := by
      unfold State.left
      refine (if_congr hrises ?_ ?_) <;> rw [hbase]
    have hcloses : b.CreditCloses v ↔ closes := by
      unfold State.CreditCloses
      rw [hrises, hleft, hbase]
    have hpumps : x.pumps = pumps := by
      by_cases h : closes
      · obtain ⟨-, -, -, -, -, hp, -⟩ := hcredit.closes (hcloses.mpr h)
        rw [hp, hleaves.pumps (by decide), jobClosed_eq, jobClosed_eq]
        exact (if_pos h).symm
      · obtain ⟨-, -, -, -, -, hp, -⟩ := hcredit.waits (mt hcloses.mp h)
        rw [hp, hleaves.pumps (by decide)]
        exact (if_neg h).symm
    have hchan : x.chan p = c := by
      unfold State.chan
      rw [hpumps]
      by_cases h : closes
      · rw [show pumps = ⟨ended s.pumps.a, ended s.pumps.b⟩ from if_pos h, show c = ended (s.chan p) from if_pos h]
        cases p <;> rfl
      · rw [show pumps = s.pumps from if_neg h, show c = s.chan p from if_neg h]
        rfl
    have hpress : x.thresholds = s.thresholds :=
      (hcredit.other.thresholds (by decide)).trans (hleaves.thresholds (by decide))
    have hlimit : x.pressureLimit p = limit := by
      unfold State.pressureLimit State.cfg
      rw [hcredit.rest, hbase]
      rfl
    have hruled : c.edge press limit now = ruled := edge_eq press limit now c
    have hholdoff := edge_holdoff press limit now c
    rw [hruled] at hholdoff
    rw [hchan, hpress, hlimit, hruled] at haccepted
    have hcalled := callStrokes_eq x p ruled
    have hcallpumps := callStrokes_pumps x p ruled
    rw [show ruled.holdoff.isSome = c.holdoff.isSome from congrArg _ hholdoff.1] at hcalled hcallpumps
    have hmoves := (moves_callStrokes (x.setChan p ruled) p).other
    have hset : LeavesOther [.pumps] x (x.setChan p ruled) := (moves_setChan x p ruled).other
    have hxz := hset.after hmoves (r := [.pumps, .link]) (by decide) (by decide)
    have hall : LeavesOther [.clock, .ret, .pumps, .link, .billing] s ((x.setChan p ruled).callStrokes p) :=
      (hleaves.after hcredit.other (r := [.clock, .ret, .pumps, .billing]) (by decide) (by decide)).after hxz (by decide)
        (by decide)
    generalize (x.setChan p ruled).callStrokes p = z at haccepted hcalled hcallpumps hxz hall
    have hsettles := finish_settles s z hall.pending
    have o := hsettles.rest.other
    have hret : (s.finish z).ret = x.ret := (o.ret (by decide)).trans (hxz.ret (by decide))
    have hbilling : (s.finish z).billing = x.billing := (o.billing (by decide)).trans (hxz.billing (by decide))
    obtain ⟨hpumped, hlag, hints⟩ := hcredit.records
    have hrest := hcredit.rest
    have hitems : b.ret.items = s.ret.items := by rw [hbase]
    have hceiling : b.cfg Item.ceiling 0 = ceiling := by
      unfold State.cfg
      rw [hitems]
      rfl
    refine ⟨_, hexec.trans (congrArg _ (inRunDo_eq hrun ((if_pos (hused.mpr hyes)).trans haccepted))), ?_, ?_, ?_, ?_, ?_, ?_, fun h => ?_, fun h => ?_, ?_, ?_,
      fun hoff => ?_, hsettles.changes hall (by decide) (by decide)⟩
    · rw [hret, hrest, hbase]
      rfl
    · rw [hret, hrest, hbase]
      rfl
    · rw [hret, hpumped]
    · rw [o.clock (by decide), hxz.clock (by decide), hcredit.other.clock (by decide), hb]
    · rw [hret, hlag, hleft]
    · rw [hret, hints, hreleased, hlost, upAll_eq released (sampleLost_iff s), hbase]
    · obtain ⟨hjob, hclose, hbill, ⟨frozen, hfrozen, htime, htot⟩, hzones, -, -⟩ := hcredit.closes (hcloses.mpr h)
      rw [hret, hbilling, hbill, hceiling, htotal, ceilingNear_eq, ceilingReached_eq]
      refine ⟨hjob, hclose, rfl, ⟨frozen, hfrozen, ?_, htot.trans htotal⟩, fun hroom => ?_⟩
      · rw [htime, hbase]
      · refine (congrArg Prod.fst hzones).trans ?_
        unfold State.closeMarked zoneEntered
        rw [hbase]
        exact congrArg Prod.fst (if_pos hroom)
    · obtain ⟨hjob, hclose, hfrozen, hzones, hbill, -, -⟩ := hcredit.waits (mt hcloses.mp h)
      rw [hret, hbilling, hbill, hjob, hclose, hfrozen, hleaves.billing (by decide), hbase]
      refine ⟨rfl, rfl, rfl, ?_, rfl⟩
      exact (congrArg Prod.fst hzones).trans (by rw [hbase])
    · have hover : x.ret.overCeiling = (s.ret.overCeiling || decide (closes ∧ reached)) := by
        by_cases h : closes
        · obtain ⟨-, -, -, -, -, -, hclosed⟩ := hcredit.closes (hcloses.mpr h)
          rw [hclosed, hceiling, htotal, ceilingReached_eq, hbase]
          exact congrArg _ (decide_eq_decide.mpr (and_iff_right h).symm)
        · obtain ⟨-, -, -, -, -, -, hstays⟩ := hcredit.waits (mt hcloses.mp h)
          rw [hstays, hbase, decide_eq_false fun hboth => h hboth.1, Bool.or_false]
      rw [hret, ← hover]
      have hA : x.ret.strokesA = b.ret.strokesA := (congrArg Retained.strokesA hrest :)
      have hB : x.ret.strokesB = b.ret.strokesB := (congrArg Retained.strokesB hrest :)
      refine hrest.trans ?_
      rw [hA, hB, hbase]
    · rw [o.pumps (by decide), hcallpumps, hpumps]
    · have hno : ¬rises := fun h => Bool.false_ne_true (hoff.symm.trans h.1)
      have hflat : ¬closes := fun h => hno h.1
      have hx := hstands (mt hrises.mp hno)
      unfold State.creditedTo at hx
      rw [hreleased, hleft, show released = [] from if_neg hno, show left = s.ret.lag from if_neg hno, upAll_nil, hb] at hx
      have hs' : x.strokes p = one (s.strokes p) := by
        refine Eq.trans ?_ hstrokes
        rw [hx, hb]
        cases p <;> rfl
      have hcontents : encodeStrokes ⟨p, x.strokes p, ruled.effVolume, ruled.spm⟩ =
          encodeStrokes ⟨p, one (s.strokes p), c.effVolume, ruled.spm⟩ := by rw [hs', hholdoff.2]
      rw [hcontents, hx] at hcalled
      rw [hcalled] at hsettles ⊢
      exact hsettles

end Sys2Proof

/-! STROKES heard from a peer (O24): the credit or the gap, then the effective volume (R65, R67, R68, R130, R141). -/

namespace Sys2Proof.Machine

open Host

/-! ## The credit and the gap (R67, R130) -/

section

variable (s : State) (credit : Option Nat)

/-- V once a peer's strokes are credited, if they are. -/
def State.pumpedBy : Nat :=
  match credit with
  | some volume => satAdd top48 s.ret.pumped volume
  | none => s.ret.pumped

/-- The station once a peer's strokes are credited, or the gap is flagged. -/
def State.creditedBy : State :=
  match credit with
  | some volume => s.credit volume
  | none => s.strokeGap

/-- The log once a peer's strokes are credited, or the gap is flagged. -/
def State.creditedLog : List Interval :=
  s.ret.intervals.map fun iv =>
    if ∃ g ∈ s.released (s.pumpedBy credit), g.index = iv.index then
      { iv with sample := if s.sampleLost = true then .lost else .surfaced, sampleTime := some s.ret.jobTime }
    else if (s.strataOn = true ∧ credit = none) ∧ s.opens iv = true then
      { iv with flags := { iv.flags with gap := true } }
    else iv

end

/-- The records after a peer's strokes (R67), beside what a close leaves. -/
structure PeerCredited (s : State) (credit : Option Nat) (w : State) : Prop
    extends CloseFollows s (s.pumpedBy credit) w where
  records : w.ret.pumped = s.pumpedBy credit ∧ w.ret.lag = s.left (s.pumpedBy credit) ∧
    w.ret.intervals = s.creditedLog credit

theorem strokeGap_eq (s : State) : s.strokeGap = s.logged (s.creditedLog none) := by
  have hreleased : s.released (s.pumpedBy none) = [] := if_neg fun h => h.2 rfl
  have hlog : s.creditedLog none = s.ret.intervals.map fun iv =>
      if s.strataOn = true ∧ s.opens iv = true then { iv with flags := { iv.flags with gap := true } } else iv := by
    unfold State.creditedLog
    rw [hreleased]
    simp
  rw [hlog]
  unfold State.strokeGap
  by_cases hon : s.strataOn = true
  · simp only [hon, true_and, if_true]
    exact mapOpen_eq s _ (opens_iff s)
  · simp only [hon, false_and, if_false, Bool.false_eq_true, List.map_id']
    rfl

theorem creditedBy_holds (s : State) (credit : Option Nat) : PeerCredited s credit (s.creditedBy credit) := by
  cases credit with
  | some volume =>
    have h := credit_holds s volume
    obtain ⟨hpumped, hlag, hlog⟩ := h.records
    refine ⟨h.toCloseFollows, hpumped, hlag, hlog.trans ((upAll_eq _ Iff.rfl _ _).trans ?_)⟩
    refine List.map_congr_left fun iv _ => ?_
    rw [if_neg (c := (s.strataOn = true ∧ some volume = none) ∧ s.opens iv = true) (by simp)]
    rfl
  | none =>
    have hmoves := (moves_strokeGap s).other
    have hno : ¬s.CreditCloses (s.pumpedBy none) := fun h => h.1.2 rfl
    have hlag : s.left (s.pumpedBy none) = s.ret.lag := if_neg fun h => h.2 rfl
    rw [show s.creditedBy none = s.strokeGap from rfl]
    rw [strokeGap_eq] at hmoves ⊢
    exact ⟨⟨fun h => absurd h hno, fun _ => ⟨rfl, rfl, rfl, rfl, rfl, rfl, rfl⟩, rfl, hmoves.mono (by decide)⟩, rfl,
      hlag.symm, rfl⟩

/-- After a close that a credit completes the strata rules no longer apply (R129). -/
theorem CloseFollows.strataOn {s : State} {v : Nat} {w : State} (h : CloseFollows s v w) :
    w.strataOn = true ↔ s.strataOn = true ∧ ¬s.CreditCloses v := by
  have hsame : w.strataOn = (s.inRun && s.straps.record && (w.ret.job == .opened || w.ret.job == .closing)) := by
    unfold State.strataOn State.inRun
    rw [h.other.mode, h.other.straps]
  rw [hsame]
  by_cases hcloses : s.CreditCloses v
  · obtain ⟨hjob, -⟩ := h.closes hcloses
    rw [hjob]
    simp [hcloses]
  · obtain ⟨hjob, -⟩ := h.waits hcloses
    rw [hjob]
    simp only [hcloses, not_false_eq_true, and_true]
    rfl

/-! ## The effective volume (R141) -/

section

variable (s : State) (k : Nat) (i : PumpId) (volume : Nat)

/-- A volume heard that differs from the last one of its pump. -/
def State.Serviced : Prop :=
  s.strataOn = true ∧
    ∃ x, (s.strata.lastVolumes.find? fun x => x.station == k && x.pump == i) = some x ∧ x.volume ≠ volume

/-- The zones once a SERVICE mark stands. -/
def State.serviceMarked : List ZoneEntry × Nat :=
  zoneEntered (.mark .service s.ret.hole s.ret.jobTime (serviceCode k i)) (s.ret.zones, s.ret.unrecorded)

variable {s k i volume}

theorem serviced_iff : s.Serviced k i volume ↔
    s.strataOn = true ∧ s.lastVolume k i ≠ none ∧ s.lastVolume k i ≠ some volume := by
  unfold State.Serviced State.lastVolume
  refine and_congr_right fun _ => ?_
  cases s.strata.lastVolumes.find? fun x => x.station == k && x.pump == i with
  | none => simp
  | some x => simp

theorem volumeHeard_serviced (h : s.Serviced k i volume) :
    (s.volumeHeard k i volume).ret = (s.zoned (s.serviceMarked k i)).ret := by
  obtain ⟨hon, hsome, hother⟩ := serviced_iff.mp h
  unfold State.volumeHeard
  dsimp only
  rw [if_neg (by simp [hon, hother]), if_pos (Option.isSome_iff_ne_none.mpr hsome)]
  unfold State.appendMark
  rw [appendZone_eq]
  rfl

theorem volumeHeard_stands (h : ¬s.Serviced k i volume) : (s.volumeHeard k i volume).ret = s.ret := by
  unfold State.volumeHeard
  dsimp only
  split
  · rfl
  · next hchange =>
    have hnone : ¬(s.lastVolume k i).isSome = true := fun hsome => h (serviced_iff.mpr (by
      simp only [Bool.or_eq_true, Bool.not_eq_true', decide_eq_true_eq, not_or, Bool.not_eq_false] at hchange
      exact ⟨hchange.1, Option.isSome_iff_ne_none.mp hsome, hchange.2⟩))
    rw [if_neg hnone]

theorem volumeHeard_strata :
    (s.volumeHeard k i volume).strata =
      if s.strataOn = true ∧ s.lastVolume k i ≠ some volume then
        ⟨(s.strata.lastVolumes.filter fun v => !(v.station == k && v.pump == i)) ++ [⟨k, i, volume⟩]⟩
      else s.strata := by
  unfold State.volumeHeard
  dsimp only
  by_cases h : s.strataOn = true ∧ s.lastVolume k i ≠ some volume
  · rw [if_pos h, if_neg (by simp [h.1, h.2])]
    split
    · unfold State.appendMark
      rw [appendZone_eq]
      rfl
    · rfl
  · rw [if_neg h, if_pos]
    rw [Bool.or_eq_true, Bool.not_eq_true', decide_eq_true_eq]
    by_cases hon : s.strataOn = true
    · exact .inr (by_contra fun hne => h ⟨hon, hne⟩)
    · exact .inl (Bool.not_eq_true _ ▸ hon)

/-- A list of volumes in which one pump's has been replaced. -/
theorem find?_replaced (l : List LastVolume) (k' : Nat) (i' : PumpId) :
    (((l.filter fun v => !(v.station == k && v.pump == i)) ++ [LastVolume.mk k i volume]).find? fun v =>
        v.station == k' && v.pump == i').map LastVolume.volume =
      if k' = k ∧ i' = i then some volume
      else (l.find? fun v => v.station == k' && v.pump == i').map LastVolume.volume := by
  rw [List.find?_append, List.find?_filter]
  by_cases h : k' = k ∧ i' = i
  · obtain ⟨rfl, rfl⟩ := h
    rw [if_pos ⟨rfl, rfl⟩]
    have hgone : (l.find? fun v => decide ((!(v.station == k' && v.pump == i')) = true ∧
        (v.station == k' && v.pump == i') = true)) = none := by
      rw [List.find?_eq_none]
      intro v _
      simp only [Bool.not_eq_true', decide_eq_true_eq, not_and, Bool.not_eq_true]
      exact fun h => h
    rw [hgone]
    simp
  · rw [if_neg h]
    have hlast : ([⟨k, i, volume⟩] : List LastVolume).find? (fun v => v.station == k' && v.pump == i') = none := by
      rw [List.find?_eq_none]
      rintro v hv hmatch
      obtain rfl := List.mem_singleton.mp hv
      simp only [Bool.and_eq_true, beq_iff_eq] at hmatch
      exact h ⟨hmatch.1.symm, hmatch.2.symm⟩
    have hkept : (fun v : LastVolume => decide ((!(v.station == k && v.pump == i)) = true ∧
        (v.station == k' && v.pump == i') = true)) = fun v => v.station == k' && v.pump == i' := by
      funext v
      rw [Bool.eq_iff_iff, decide_eq_true_eq]
      refine ⟨fun hboth => hboth.2, fun hmatch => ⟨?_, hmatch⟩⟩
      obtain ⟨rfl, rfl⟩ : v.station = k' ∧ v.pump = i' := by simpa using hmatch
      rw [Bool.not_eq_true', Bool.and_eq_false_iff, beq_eq_false_iff_ne, beq_eq_false_iff_ne, ← not_and_or]
      exact h
    rw [hlast, hkept, Option.or_none]

/-- The last volumes after one is heard. -/
theorem volumeHeard_lastVolume (k' : Nat) (i' : PumpId) :
    (s.volumeHeard k i volume).lastVolume k' i' =
      if s.strataOn = true ∧ k' = k ∧ i' = i then some volume else s.lastVolume k' i' := by
  unfold State.lastVolume
  rw [volumeHeard_strata]
  by_cases hon : s.strataOn = true
  · simp only [hon, true_and]
    by_cases hnew : s.lastVolume k i ≠ some volume
    · rw [if_pos hnew]
      exact find?_replaced s.strata.lastVolumes k' i'
    · rw [if_neg hnew]
      split
      · next h =>
        obtain ⟨rfl, rfl⟩ := h
        exact not_not.mp hnew
      · rfl
  · simp only [hon, false_and, if_false, Bool.false_eq_true]

end

end Sys2Proof.Machine

/-! STROKES heard from a peer (O24). -/

namespace Sys2Proof.Machine

open Host

/-- The credit a peer's count gives against what is stored of it (R67). -/
def PeerStrokes.creditOf (c : PeerStrokes) (m : StrokesMsg) : Option Nat :=
  c.last.bind fun last =>
    if c.baseline = true ∧ diff32 m.count last ≤ 1000 then some (diff32 m.count last * m.volume) else none

section

variable {c : PeerStrokes} {m : StrokesMsg} {last : Nat}

theorem diff32_of_lt (n : Nat) (h : last < 4294967296) : diff32 n last = (n + 4294967296 - last) % 4294967296 := by
  unfold diff32
  rw [Nat.mod_eq_of_lt h]

theorem creditOf_near (hlast : c.last = some last) (hbase : c.baseline = true) (hd : diff32 m.count last ≤ 1000) :
    c.creditOf m = some (diff32 m.count last * m.volume) := by
  unfold PeerStrokes.creditOf
  rw [hlast]
  exact if_pos ⟨hbase, hd⟩

theorem creditOf_far (hlast : c.last = some last) (hd : 1000 < diff32 m.count last) : c.creditOf m = none := by
  unfold PeerStrokes.creditOf
  rw [hlast]
  exact if_neg fun h => absurd h.2 (Nat.not_le.mpr hd)

theorem creditOf_unset (h : c.last = none ∨ c.baseline = false) : c.creditOf m = none := by
  unfold PeerStrokes.creditOf
  rw [Option.bind_eq_none_iff]
  rintro last hlast
  obtain h | h := h
  · exact absurd (hlast.symm.trans h) (Option.some_ne_none last)
  · exact if_neg fun hboth => Bool.false_ne_true (h.symm.trans hboth.1)

end

section

variable {s : State} {k : Nat} {m : StrokesMsg} {p : PeerEntry}

theorem peerCredit_eq (hp : s.peer? k = some p) :
    s.peerCredit k m = s.creditedBy ((p.strokes m.pump).creditOf m) := by
  have hlast : ∀ {a : Option Nat} {b : Bool} {f : Nat → Nat} (g : Nat → Nat),
      (match (⟨a, b⟩ : PeerStrokes).baselineCount with
        | some last => if f last ≤ 1000 then s.credit (g (f last)) else s.strokeGap
        | none => s.strokeGap) =
      s.creditedBy (a.bind fun last => if b = true ∧ f last ≤ 1000 then some (g (f last)) else none) := by
    intro a b f g
    cases a with
    | none => cases b <;> rfl
    | some last =>
      cases b with
      | false => rfl
      | true => by_cases h : f last ≤ 1000 <;> simp [h, State.creditedBy, PeerStrokes.baselineCount]
  unfold State.peerCredit PeerStrokes.creditOf
  rw [hp]
  exact hlast (a := (p.strokes m.pump).last) (b := (p.strokes m.pump).baseline) (f := diff32 m.count) (· * m.volume)

/-- A STROKES frame in RUN: the credit, the stored count, the volume heard. -/
theorem strokesFrom_eq (hrun : s.mode = .run) (hp : s.peer? k = some p) :
    s.strokesFrom k m =
      ((s.creditedBy ((p.strokes m.pump).creditOf m)).mapPeer k
        (PeerEntry.setStrokes m.pump ⟨some m.count, true⟩)).volumeHeard k m.pump m.volume := by
  rw [← peerCredit_eq hp]
  unfold State.strokesFrom
  rw [inRun_of_mode hrun]
  rfl

/-- A mark entered in the zones, if there is one. -/
def marked (mark : Option ZoneEntry) (l : List ZoneEntry × Nat) : List ZoneEntry × Nat :=
  match mark with
  | some z => zoneEntered z l
  | none => l

theorem marked_eq (mark : Option ZoneEntry) (zs : List ZoneEntry) (n : Nat) :
    marked mark (zs, n) =
      (match mark with
        | some z => if zs.length < 96 then zs ++ [z] else zs
        | none => zs,
        if mark.isSome ∧ 96 ≤ zs.length then min 65535 (n + 1) else n) := by
  unfold marked zoneEntered
  cases mark with
  | none => rfl
  | some z =>
    by_cases h : zs.length < 96
    · simp [h]
    · simp [h, Nat.not_lt.mp h]

theorem strokes_setStrokes (i : PumpId) (c : PeerStrokes) (p : PeerEntry) : (p.setStrokes i c).strokes i = c := by
  cases i <;> rfl

theorem strokes_eq (i : PumpId) (p : PeerEntry) :
    p.strokes i = (match i with
      | .a => p.strokesA
      | .b => p.strokesB) := by cases i <;> rfl

end

end Sys2Proof.Machine

namespace Sys2Proof

open Machine Host

/-- Settles O24, from what the credit or the gap leaves and what the volume heard adds. -/
theorem peerStrokesAreCredited : Obligations.PeerStrokesAreCredited := by
  unfold Obligations.PeerStrokesAreCredited
  intro bytes f m p s hrun h hbody hp hfresh old since credit v rises due released left lost gap opened closes ceiling
    reached near stored applies service mark heardVolume
  have hold : p.strokes m.pump = old := strokes_eq m.pump p
  have hcredit : (p.strokes m.pump).creditOf m = credit := by
    rw [hold]
    rfl
  have hentry : (s.heardFrom f).peer? f.source = some (p.refresh f.seq (3 * s.statusPeriod)) := by
    rw [heardFrom_peer?, if_pos rfl, hp]
    rfl
  have hstrokes : (p.refresh f.seq (3 * s.statusPeriod)).strokes m.pump = p.strokes m.pump := by
    cases m.pump <;> rfl
  have heffect := strokesFrom_eq (m := m) (show (s.heardFrom f).mode = .run from hrun) hentry
  rw [hstrokes, hcredit] at heffect
  have hexec := exec_frameReceived h hp hfresh
  rw [show (s.heardFrom f).handOn f = (s.heardFrom f).strokesFrom f.source m by unfold State.handOn; rw [hbody], heffect]
    at hexec
  have hv : (s.heardFrom f).pumpedBy credit = v := by
    have hmatch : ∀ c : Option Nat, (s.heardFrom f).pumpedBy c = (match c with
      | some volume => min 281474976710655 (s.ret.pumped + volume)
      | none => s.ret.pumped) := fun c => by cases c <;> rfl
    exact hmatch credit
  have hx := creditedBy_holds (s.heardFrom f) credit
  have hlog : (s.heardFrom f).creditedLog credit = s.ret.intervals.map fun iv : Interval =>
      if ∃ g ∈ released, g.index = iv.index then
        { iv with sample := if lost then .lost else .surfaced, sampleTime := some s.ret.jobTime }
      else if gap ∧ opened iv then { iv with flags := { iv.flags with gap := true } }
      else iv := by
    unfold State.creditedLog
    rw [hv]
    refine List.map_congr_left fun iv _ => ?_
    have hlost := sampleLost_iff (s.heardFrom f)
    have hopened : (s.heardFrom f).opens iv = true ↔ opened iv := by
      unfold State.opens
      rw [Option.any_eq_true]
      simp only [beq_iff_eq]
      rfl
    simp only [hlost, hopened]
    rfl
  have hbase := leavesOther_heardFrom s f
  have hclosing : (s.heardFrom f).CreditCloses ((s.heardFrom f).pumpedBy credit) ↔ closes := by
    rw [hv]
    rfl
  have hleft : (s.heardFrom f).left ((s.heardFrom f).pumpedBy credit) = left := by
    rw [hv]
    rfl
  have htotal : (s.heardFrom f).total = s.total := total_congr rfl rfl rfl rfl rfl rfl rfl
  have hmarked : (s.heardFrom f).closeMarked = s.closeMarked := rfl
  have hlast : ∀ (e : State) k i, e.strata = s.strata → e.lastVolume k i = heardVolume s k i := fun e k i he => by
    unfold State.lastVolume
    rw [he]
  have hret : (s.heardFrom f).ret = s.ret := hbase.ret (by decide)
  have hon : (s.heardFrom f).strataOn = s.strataOn := rfl
  have hceil : (s.heardFrom f).cfg Item.ceiling 0 = ceiling := rfl
  have hrefreshed : (s.heardFrom f).peer? f.source = (some p).map (PeerEntry.refresh f.seq (3 * s.statusPeriod)) := hentry
  generalize (s.heardFrom f).creditedBy credit = x at hx hexec
  have hstrata := hx.toCloseFollows.strataOn
  obtain ⟨hpumped, hlag, hints⟩ := hx.records
  have hrest := hx.rest
  have hcloses := hx.closes
  have hwaits := hx.waits
  have hother := hbase.after hx.other (r := [.link, .peers, .ret, .billing, .pumps]) (by decide) (by decide)
  have hpeers : ∀ j, x.peer? j = (s.heardFrom f).peer? j := fun j => congrArg (List.find? _) (hx.other.peers (by decide))
  rw [hv] at hpumped
  rw [hleft] at hlag
  rw [hlog] at hints
  rw [hclosing] at hcloses hwaits hstrata
  rw [hceil, htotal, ceilingNear_eq, ceilingReached_eq, hmarked, hret] at hcloses
  rw [hon] at hstrata
  rw [hret] at hwaits hrest
  have hyret : (x.mapPeer f.source (PeerEntry.setStrokes m.pump ⟨some m.count, true⟩)).ret = x.ret := rfl
  have hyon : (x.mapPeer f.source (PeerEntry.setStrokes m.pump ⟨some m.count, true⟩)).strataOn = x.strataOn := rfl
  have hyvolume : ∀ k i, (x.mapPeer f.source (PeerEntry.setStrokes m.pump ⟨some m.count, true⟩)).lastVolume k i =
      heardVolume s k i := fun k i => hlast _ k i (hother.strata (by decide))
  have hyother := hother.after (moves_mapPeer x f.source (PeerEntry.setStrokes m.pump ⟨some m.count, true⟩)).other
    (r := [.link, .peers, .ret, .billing, .pumps]) (by decide) (by decide)
  have hypeer : ((x.mapPeer f.source (PeerEntry.setStrokes m.pump ⟨some m.count, true⟩)).peer? f.source).map
      (fun q => q.strokes m.pump) = some ⟨some m.count, true⟩ := by
    rw [peer?_mapPeer x f.source (fun q => by cases m.pump <;> rfl), if_pos rfl, hpeers, hrefreshed]
    exact congrArg some (strokes_setStrokes _ _ _)
  obtain ⟨y, hy⟩ : ∃ y, y = x.mapPeer f.source (PeerEntry.setStrokes m.pump ⟨some m.count, true⟩) := ⟨_, rfl⟩
  have hymoves : LeavesOther [.peers] x y := hy ▸ (moves_mapPeer x f.source _).other
  rw [← hy] at hexec hyret hyon hyvolume hyother hypeer
  clear hy
  have hservice : y.Serviced f.source m.pump m.volume ↔ service := by
    unfold State.Serviced
    rw [hyon, hstrata, hyother.strata (by decide)]
  have hvolumes := volumeHeard_lastVolume (s := y) (k := f.source) (i := m.pump) (volume := m.volume)
  have hwother := hyother.after (moves_volumeHeard y f.source m.pump m.volume).other
    (r := [.link, .peers, .ret, .billing, .pumps, .strata]) (by decide) (by decide)
  have hwmoves := (moves_volumeHeard y f.source m.pump m.volume).other
  have hwret : (y.volumeHeard f.source m.pump m.volume).ret = { x.ret with
      zones := (marked mark (s.ret.zones, s.ret.unrecorded)).1
      unrecorded := (marked mark (s.ret.zones, s.ret.unrecorded)).2 } := by
    have hhole : x.ret.hole = s.ret.hole := (congrArg Retained.hole hrest :)
    have htime : x.ret.jobTime = s.ret.jobTime := (congrArg Retained.jobTime hrest :)
    by_cases h1 : closes
    · obtain ⟨-, -, -, -, hz, -⟩ := hcloses h1
      rw [volumeHeard_stands (mt hservice.mp fun h => h.1.2 h1), hyret, show mark = some _ from if_pos h1]
      show x.ret = { x.ret with zones := s.closeMarked.1, unrecorded := s.closeMarked.2 }
      rw [← hz]
    · obtain ⟨-, -, -, hz, -⟩ := hwaits h1
      have hz1 : x.ret.zones = s.ret.zones := congrArg Prod.fst hz
      have hz2 : x.ret.unrecorded = s.ret.unrecorded := congrArg Prod.snd hz
      by_cases h2 : service
      · rw [volumeHeard_serviced (hservice.mpr h2), show mark = some _ from (if_neg h1).trans (if_pos h2)]
        unfold State.zoned State.serviceMarked marked serviceCode
        rw [hyret, hhole, htime, hz1, hz2]
        cases m.pump <;> rfl
      · rw [volumeHeard_stands (mt hservice.mp h2), hyret, show mark = none from (if_neg h1).trans (if_neg h2)]
        unfold marked
        rw [← hz1, ← hz2]
  generalize y.volumeHeard f.source m.pump m.volume = w at hexec hvolumes hwother hwmoves hwret
  have hsettles := finish_settles s w hwother.pending
  have o := hsettles.rest.other
  have hfinal := (o.ret (by decide)).trans hwret
  have hpumpedBy : ∀ c, (p.strokes m.pump).creditOf m = c → v = s.pumpedBy c := fun c hc => by
    rw [← hv, ← hcredit, hc]
    rfl
  have hthen : (s.finish w).ret.pumped = v ∧ (s.finish w).ret.lag = left := by
    rw [hfinal]
    exact ⟨hpumped, hlag⟩
  have hstill : (p.strokes m.pump).creditOf m = none →
      (s.finish w).ret.pumped = s.ret.pumped ∧ (s.finish w).ret.lag = s.ret.lag := fun h =>
    ⟨hthen.1.trans (hpumpedBy none h), hthen.2.trans (if_neg fun hrises => hrises.2 (hpumpedBy none h))⟩
  have hbilling : (s.finish w).billing = x.billing :=
    (o.billing (by decide)).trans ((hwmoves.billing (by decide)).trans (hymoves.billing (by decide)))
  have hheard : ∀ k i, (s.finish w).lastVolume k i = w.lastVolume k i := fun k i => by
    unfold State.lastVolume
    rw [o.strata (by decide)]
  refine ⟨_, hexec, fun last h1 h2 h3 h4 _ => ?_, fun h => hstill (creditOf_unset (by rwa [hold])),
    fun last h1 h2 h3 => hstill (creditOf_far ((congrArg PeerStrokes.last hold).trans h1) (by rwa [diff32_of_lt _ h2])), ?_, ?_,
    ?_, ?_, fun h => ?_, fun h => ?_, ?_, ?_, fun h => ?_, fun k i h => ?_, ?_, ?_⟩
  · rw [← diff32_of_lt _ h4] at h3 ⊢
    rw [← hold] at h1 h2
    exact hthen.1.trans (hpumpedBy _ (creditOf_near h1 h2 h3))
  · rw [show (s.finish w).peer? f.source = y.peer? f.source from
      congrArg (List.find? _) ((o.peers (by decide)).trans (hwmoves.peers (by decide)))]
    refine Eq.trans (congrArg (fun g => (y.peer? f.source).map g) (funext fun q => ?_)) hypeer
    exact (strokes_eq m.pump q).symm
  · exact hthen.1
  · exact hthen.2
  · rw [hfinal]
    exact hints
  · obtain ⟨hjob, hclose, hbill, hfrozen, -⟩ := hcloses h
    rw [hfinal, hbilling]
    exact ⟨hjob, hclose, hbill, hfrozen⟩
  · obtain ⟨hjob, hclose, hfrozen, -, hbill, hpumps, -⟩ := hwaits h
    rw [hfinal, hbilling, (o.pumps (by decide)).trans ((hwmoves.pumps (by decide)).trans (hymoves.pumps (by decide)))]
    exact ⟨hjob, hclose, hfrozen, hpumps.trans (hbase.pumps (by decide)), hbill.trans (hbase.billing (by decide))⟩
  · rw [hfinal]
    exact (congrArg Prod.fst (marked_eq mark s.ret.zones s.ret.unrecorded) :)
  · rw [hfinal]
    exact (congrArg Prod.snd (marked_eq mark s.ret.zones s.ret.unrecorded) :)
  · show (s.finish w).lastVolume f.source m.pump = some m.volume
    rw [hheard, hvolumes, if_pos ⟨hyon.trans (hstrata.mpr h), rfl, rfl⟩]
  · show (s.finish w).lastVolume k i = s.lastVolume k i
    rw [hheard, hvolumes, if_neg fun ⟨h1, h2, h3⟩ => h ⟨hstrata.mp (hyon.symm.trans h1), h2, h3⟩]
    exact hyvolume k i
  · have hover : x.ret.overCeiling = (s.ret.overCeiling || decide (closes ∧ reached)) := by
      by_cases h : closes
      · obtain ⟨-, -, -, -, -, -, hclosed⟩ := hcloses h
        rw [hclosed]
        exact congrArg _ (decide_eq_decide.mpr (and_iff_right h).symm)
      · obtain ⟨-, -, -, -, -, -, hstays⟩ := hwaits h
        rw [hstays, decide_eq_false fun hboth => h hboth.1, Bool.or_false]
    rw [hfinal, ← hover]
    exact (congrArg (fun r : Retained => { r with
      zones := (marked mark (s.ret.zones, s.ret.unrecorded)).1
      unrecorded := (marked mark (s.ret.zones, s.ret.unrecorded)).2 }) hrest :)
  · exact hsettles.changes hwother (by decide) (by decide)

end Sys2Proof

/-! The pages of a resynchronisation (O27, O28): a page request, the data of a page, the checks of R100. -/

namespace Sys2Proof.Machine

open Host

/-! ## A page request (R13, R100) -/

theorem setQueue_outstanding (l : Link) (q : QueueId) (fs : List TxFrame) :
    (l.setQueue q fs).outstanding = l.outstanding := by cases q <;> rfl

theorem settle_outstanding (e : LinkEnv) (l : Link) : (l.settle e).outstanding = l.outstanding := by
  have harbitrate : ∀ l : Link, (l.arbitrate e).outstanding = l.outstanding := fun l => by
    unfold Link.arbitrate Link.arbitrate.next Link.take
    repeat' split
    all_goals first | rfl | exact setQueue_outstanding _ _ _
  refine (harbitrate _).trans ?_
  unfold Link.preempt
  repeat' split
  all_goals first | rfl | exact setQueue_outstanding _ _ _

/-- A request that enters stands last in the table. -/
theorem issue_outstanding (e : LinkEnv) (now dest code : Nat) (args : List Byte) (l : Link) :
    (l.issue e now dest code args).outstanding = l.outstanding ++ [⟨dest, l.nextTag, code, now⟩] := by
  unfold Link.issue Link.handOver Link.handPlain
  dsimp only
  split
  · rfl
  · split
    · next h => exact absurd h Bool.false_ne_true
    · split
      · exact (settle_outstanding e _).trans (setQueue_outstanding _ _ _)
      · rfl

/-- The rod unit asks for the next page now: the source fresh, no request on its way, an entry and a place free. -/
structure State.AsksPage (s : State) (k : Nat) : Prop where
  run : s.mode = .run
  rod : s.straps.rod = false
  unsure : s.rod.sure = false
  heard : s.link.listenOnly = false
  begun : s.rod.resync.again = false
  none : s.rod.resync.request = .none
  page : ∀ o ∈ s.link.outstanding, o.code ≠ 10
  source : s.rod.source = some k
  fresh : ∃ p, s.peer? k = some p ∧ p.stale = false
  entry : s.link.outstanding.length < 4
  place : s.link.count .exchange < 8

theorem State.AsksPage.issues {s : State} {k : Nat} (h : s.AsksPage k) :
    s.requestPage = s.issuePage k s.rod.resync.nextPage := by
  have hsource : s.freshSource = some k := by
    obtain ⟨p, hp, hfresh⟩ := h.fresh
    unfold State.freshSource
    rw [h.source, Option.bind_some, hp]
    exact if_pos (by simp [hfresh])
  have hpage : s.link.pageOutstanding = false := by
    unfold Link.pageOutstanding
    rw [List.any_eq_false]
    exact fun o ho hcode => h.page o ho (by simpa [stringReadCode] using hcode)
  unfold State.requestPage
  rw [inRun_of_mode h.run, h.rod, h.unsure, h.heard, h.begun, h.none, hpage, hsource]
  exact if_pos (canIssue_of_room h.entry h.place)

/-- The request a page request makes (R13). -/
theorem State.AsksPage.asked {s : State} {k : Nat} (h : s.AsksPage k) :
    ∃ o : OutEntry, s.requestPage.link.outstanding = s.link.outstanding ++ [o] ∧ o.dest = k ∧ o.code = 10 ∧
      s.requestPage.rod.resync.request = .sent k o.tag false :=
  ⟨⟨k, s.link.nextTag, 10, s.clockMs⟩, by rw [h.issues]; exact issue_outstanding _ _ _ _ _ _, rfl, rfl, by rw [h.issues]; rfl⟩

/-- A page request changes the request of the resynchronisation alone of the rod view. -/
theorem requestPage_rod (s : State) :
    s.requestPage.rod =
      { s.rod with resync := { s.rod.resync with request := s.requestPage.rod.resync.request } } := by
  unfold State.requestPage
  split
  · split
    · rfl
    · split <;> rfl
  · rfl

/-- A request that enters records no fault. -/
theorem issue_fault (e : LinkEnv) (now dest code : Nat) (args : List Byte) (l : Link) :
    (l.issue e now dest code args).fault = l.fault := handOver_fault_of_routine e .exchange rfl _

/-- A change of the resynchronisation leaves the flags as their conditions stand. -/
theorem resync_settled {s : State} (hs : s.AlarmsSettled) (r : Resync) :
    ({ s with rod := { s.rod with resync := r } } : State).AlarmsSettled :=
  settled_of_conds hs rfl rfl fun d => by cases d <;> rfl

theorem requestPage_settled {s : State} (hs : s.AlarmsSettled) : s.requestPage.AlarmsSettled := by
  unfold State.requestPage
  split
  · split
    · exact hs
    · split
      · exact resync_settled (settled_of_link (leavesOther_link s _) (issue_fault _ _ _ _ _ _) hs) _
      · exact resync_settled hs _
  · exact hs

/-! ## The data of a page (section 11.4) -/

theorem byteAt_eq_natAt (l : List Byte) (i : Nat) : byteAt l i = natAt l i 1 := by
  unfold byteAt natAt
  by_cases h : i < l.length
  · rw [List.drop_eq_getElem_cons h, List.getElem?_eq_getElem h]
    rfl
  · rw [List.drop_eq_nil_of_le (Nat.not_lt.mp h), List.getElem?_eq_none (Nat.not_lt.mp h)]
    rfl

theorem natAt_drop (l : List Byte) (n i k : Nat) : natAt (l.drop n) i k = natAt l (n + i) k := by
  unfold natAt
  rw [List.drop_drop]

theorem idPairs_eq : ∀ l : List Byte, idPairs l = (List.range (l.length / 2)).map fun i => natAt l (2 * i) 2
  | [] => rfl
  | [a] => by
    rw [List.length_singleton, show 1 / 2 = 0 by decide, idPairs.eq_def]
    rfl
  | a :: b :: rest => by
    have hlen : (a :: b :: rest).length / 2 = rest.length / 2 + 1 := by
      rw [List.length_cons, List.length_cons]
      omega
    have hnext : ∀ i, natAt (a :: b :: rest) (2 * (i + 1)) 2 = natAt rest (2 * i) 2 := fun i => by
      rw [show 2 * (i + 1) = 2 + 2 * i by omega, ← natAt_drop]
      rfl
    rw [hlen, List.range_succ_eq_map, List.map_cons, List.map_map]
    unfold idPairs
    rw [idPairs_eq rest]
    exact congrArg _ (List.map_congr_left fun i _ => (hnext i).symm)

theorem readPage_eq {data : List Byte} (h : 8 ≤ data.length) :
    readPage data = some ⟨natAt data 1 1, natAt data 2 3, natAt data 5 2, .ofCode (natAt data 7 1 % 8),
      (List.range ((data.length - 8) / 2)).map fun i => natAt data (8 + 2 * i) 2⟩ := by
  have hids : idPairs (data.drop 8) = (List.range ((data.length - 8) / 2)).map fun i => natAt data (8 + 2 * i) 2 := by
    rw [idPairs_eq, List.length_drop]
    exact List.map_congr_left fun i _ => natAt_drop data 8 (2 * i) 2
  unfold readPage
  rw [if_neg (by omega), byteAt_eq_natAt, byteAt_eq_natAt, hids]
  unfold field
  rw [Nat.pow_zero, Nat.div_one]
  rfl

/-! ## The checks at the last page (R92, R100) -/

theorem holdApplies_iff (r : HoldRec) (l : List Nat) :
    r.applies l = true ↔ r = ⟨.hung, .latched, false⟩ ∨ r = ⟨.clamped, .free, false⟩ ∨ r = ⟨.clamped, .latched, false⟩ ∨
      (r = ⟨.clamped, .latched, true⟩ ∧ l ≠ []) := by
  obtain ⟨hold, head, above⟩ := r
  cases hold <;> cases head <;> cases above <;> simp [HoldRec.applies, HoldRec.valid]

theorem findRod_isSome (rods : List Rod) (id : Nat) : (findRod rods id).isSome = true ↔ ∃ d ∈ rods, d.id = id := by
  unfold findRod
  rw [List.find?_isSome]
  simp

theorem resyncChecks_iff {s : State} {k : Nat} {p : PeerEntry} (hsource : s.rod.source = some k) (hp : s.peer? k = some p)
    (ids : List Nat) (hold : HoldRec) :
    s.resyncChecks ids hold = true ↔ (∀ id ∈ ids, ∃ d ∈ s.ret.rods, d.id = id) ∧ ids.Nodup ∧ ids.length ≤ 128 ∧
      hold.applies ids = true ∧ ∃ n, p.status = some n ∧ ids.length = n.stringCount ∧ s.lengthOf ids = n.stringLength := by
  unfold State.resyncChecks
  rw [hsource, Option.bind_some, hp, Option.bind_some]
  simp only [Bool.and_eq_true, decide_eq_true_eq, List.all_eq_true, findRod_isSome, Config.stringRoom]
  cases p.status with
  | none => simp
  | some n =>
    simp only [Bool.and_eq_true, beq_iff_eq, Option.some.injEq, exists_eq_left']
    tauto

end Sys2Proof.Machine

/-! A REQUEST and an ANSWER heard (O28). -/

namespace Sys2Proof.Machine

open Host

/-! ## What a frame that is heard leaves -/

theorem heardFrom_settled {s : State} (hs : s.AlarmsSettled) (f : RxFrame) : (s.heardFrom f).AlarmsSettled :=
  mapPeer_settled (settled_of_link (leavesOther_link s _) rfl hs) fun _ _ _ => ⟨rfl, rfl, rfl⟩

/-- Where the flags stand as their conditions do, what is heard leaves the station as its effect does, but for the
peer table. -/
theorem heard_leaves {s w : State} {c : Instr} {v : List PeerEntry} (hw : w.pending = s.pending)
    (hsettled : ({ w with peers := v } : State).AlarmsSettled)
    (hexec : exec c s = .next (s.finish { w with peers := v })) : ∃ t, exec c s = .next t ∧ Leaves [.peers] s w t :=
  ⟨_, hexec, .of_peers (m := { w with peers := v }) (finish_leaves s _ hw hsettled) (moves_peers w v).other⟩

/-- Bit depth is the same where nothing it reads has moved. -/
theorem depthNow_of_other {p : List Part} {s t : State} (h : LeavesOther p s t) (hr : Part.ret ∉ p) (hd : Part.depth ∉ p)
    (hp : Part.peers ∉ p) (hu : Part.rod ∉ p) : t.depthNow = s.depthNow :=
  depthNow_of_inputs (depthInputs_of_other h hr hd hp hu) (by rw [h.ret hr]) (by rw [h.ret hr])

/-- Retained records but for H and what a rise of H closes. -/
theorem keeps_of_deepens {t : State} {r : Retained} (h : r.Deepens t.ret) : t.Keeps r := by
  unfold Retained.Deepens at h
  unfold State.Keeps
  rw [h]

/-! ## The end of a SPIN request (R116, R119) -/

theorem spinEnded_accepted (s : State) (k : Nat) (data : List Byte) :
    s.spinEnded k (some (1, data)) =
      { s with seq := { s.seq with spin := .accepted k ((data.head?.map (·.toNat)).getD 0) } } := by
  have hnumber : byteAt data 0 = (data.head?.map (·.toNat)).getD 0 := by cases data <;> rfl
  rw [← hnumber]
  rfl

theorem spinEnded_other {s : State} {code : Nat} (k : Nat) (data : List Byte) (h : code ≠ 1) :
    s.spinEnded k (some (code, data)) =
      if s.seq.state = .running then ({ s with seq := { s.seq with spin := .none } } : State).seqFault .spin
      else { s with seq := { s.seq with spin := .none } } := by
  have hrejected : ((some (code, data)).bind fun a : Nat × List Byte =>
      if a.1 = ResultCode.accepted.code then some (byteAt a.2 0) else none) = none := if_neg h
  unfold State.spinEnded
  rw [hrejected]

/-! ## The end of a page request (R100) -/

section

variable (u : State)

/-- The rod view's resynchronisation changed. -/
def State.resynced (r : Resync) : State := { u with rod := { u.rod with resync := r } }

variable {u}

theorem pageEnded_unused {k : Nat} {drop : Bool} (h : drop = true ∨ u.rod.sure = true ∨ u.rod.source ≠ some k)
    (answer : Option (Nat × List Byte)) :
    u.pageEnded k drop answer = u.resynced { u.rod.resync with request := .none } := by
  unfold State.pageEnded
  refine if_pos ?_
  rw [Bool.or_eq_true, Bool.or_eq_true, bne_iff_ne]
  obtain h | h | h := h
  · exact .inl (.inl h)
  · exact .inl (.inr h)
  · exact .inr (Ne.symm h)

theorem pageEnded_used {k : Nat} {drop : Bool} (h : ¬(drop = true ∨ u.rod.sure = true ∨ u.rod.source ≠ some k))
    (code : Nat) (data : List Byte) :
    u.pageEnded k drop (some (code, data)) =
      if code = 0 then
        match readPage data with
        | some p => (u.resynced { u.rod.resync with request := .none }).takePage p
        | none => u.resynced { u.rod.resync with request := .none }
      else if code = 9 then (u.resynced { u.rod.resync with request := .none }).resyncAgain
      else u.resynced { u.rod.resync with request := .none } := by
  unfold State.pageEnded
  refine if_neg fun hskip => h ?_
  rw [Bool.or_eq_true, Bool.or_eq_true, bne_iff_ne] at hskip
  obtain (hskip | hskip) | hskip := hskip
  · exact .inl hskip
  · exact .inr (.inl hskip)
  · exact .inr (.inr (Ne.symm hskip))

theorem resyncAgain_idle (hsure : u.rod.sure = false) (r : Resync) (hr : r.request = .none) :
    (u.resynced r).resyncAgain = u.resynced ⟨0, [], none, true, .none⟩ := by
  unfold State.resyncAgain
  rw [if_neg (by rw [show (u.resynced r).rod.sure = u.rod.sure from rfl, hsure]; exact Bool.false_ne_true)]
  unfold State.resynced Resync.beginAgain
  dsimp only
  rw [hr]

theorem takePage_other {p : PageData} {n : Nat} (h : u.rod.resync.firstEvent = some n) (hne : n ≠ p.event) :
    u.takePage p = u.resyncAgain := by
  unfold State.takePage
  rw [h]
  exact if_neg hne

/-- The scratch list with one page more. -/
def State.scratched (p : PageData) (u : State) : State :=
  u.resynced { u.rod.resync with
    scratch := u.rod.resync.scratch ++ p.ids, nextPage := u.rod.resync.nextPage + 1, firstEvent := some p.event }

theorem takePage_next {p : PageData} (h : ∀ n, u.rod.resync.firstEvent = some n → n = p.event) :
    u.takePage p =
      if (u.rod.resync.scratch ++ p.ids).length = p.count then
        if (u.scratched p).resyncChecks (u.rod.resync.scratch ++ p.ids) p.hold = true then
          (u.scratched p).resyncComplete (u.rod.resync.scratch ++ p.ids) p.hold p.event
        else (u.scratched p).resyncAgain
      else (u.scratched p).requestPage := by
  unfold State.takePage
  cases hfirst : u.rod.resync.firstEvent with
  | none => rfl
  | some n => exact if_pos (h n hfirst)

/-- The records and the view of a resynchronisation that completes (R100). -/
def State.resyncTaken (ids : List Nat) (hold : HoldRec) (event : Nat) (u : State) : State :=
  { u with
    ret := { u.ret.replaceString ids with hold := hold, eventNo := event }
    rod := ⟨true, u.rod.source, 0, [], ⟨0, [], none, false, .none⟩⟩ }

theorem resyncTaken_leaves (ids : List Nat) (hold : HoldRec) (event : Nat) :
    LeavesOther [.ret, .rod] u (u.resyncTaken ids hold event) :=
  (moves_ret u { u.ret.replaceString ids with hold := hold, eventNo := event } (.of_eq rfl rfl rfl rfl)).other.after
    (moves_rod _ _).other (by decide) (by decide)

theorem resyncComplete_eq (hheld : u.rod.held = []) (ids : List Nat) (hold : HoldRec) (event : Nat) :
    u.resyncComplete ids hold event = ((u.resyncTaken ids hold event).depthFollows u).alarmsFollow := by
  unfold State.resyncComplete
  rw [hheld]
  refine if_pos ?_
  show ((u.resyncTaken ids hold event).depthFollows u).alarmsFollow.rod.sure = true
  rw [(moves_alarmsFollow _).other.rod (by decide), (moves_depthFollows _ u).other.rod (by decide)]
  rfl

end

/-- The station once a request of the table has been answered: its entry freed, the peer's entry refreshed. -/
def State.freed (s : State) (f : RxFrame) (o : OutEntry) : State :=
  { s with
    link := { s.link with rx := .complete, outstanding := s.link.outstanding.filter fun x => decide (x ≠ o) }
    peers := (s.heardFrom f).peers }

theorem freed_settled {s : State} (hs : s.AlarmsSettled) (f : RxFrame) (o : OutEntry) : (s.freed f o).AlarmsSettled :=
  settled_of_link (s := s.heardFrom f) (leavesOther_link (s.heardFrom f) _) rfl (heardFrom_settled hs f)

theorem leavesOther_freed (s : State) (f : RxFrame) (o : OutEntry) : LeavesOther [.link, .peers] s (s.freed f o) :=
  (leavesOther_heardFrom s f).after (leavesOther_link (s.heardFrom f) _) (by decide) (by decide)

theorem freed_answer {s : State} {f : RxFrame} {tag : Nat} {o : OutEntry}
    (h : (s.link.outstanding.find? fun o => o.dest == f.source && o.tag == tag) = some o) (code : Nat) (data : List Byte) :
    (s.heardFrom f).answerFrom f.source tag code data = (s.freed f o).requestEnded o (some (code, data)) := by
  unfold State.answerFrom
  rw [show (s.heardFrom f).link.outstanding = s.link.outstanding from rfl, h]
  dsimp only
  rw [dropOutstanding_eq]
  rfl

end Sys2Proof.Machine

namespace Sys2Proof

open Machine Host

/-- Settles O28: a request that joins, an answer that matches nothing, then the two requests an answer can end. -/
theorem requestAndAnswerHeard : Obligations.RequestAndAnswerHeard := by
  unfold Obligations.RequestAndAnswerHeard
  intro bytes f p s h hs hk hfresh heard busy
  have hexec := exec_frameReceived h hk.1 hfresh
  have hheard := heardFrom_settled hs f
  have leaves : ∀ {l : Link}, (s.heardFrom f).handOn f = { s.heardFrom f with link := l } → l.fault = s.link.fault →
      ∃ t, exec (.frameReceived bytes) s = .next t ∧ Leaves [.peers] s { s with link := l } t := fun {l} hw hfault =>
    heard_leaves (w := { s with link := l }) (v := (s.heardFrom f).peers) rfl
      (settled_of_link (s := s.heardFrom f) (leavesOther_link _ l) hfault hheard) (by rw [hexec, hw]; rfl)
  refine ⟨fun tag code args hbody => ?_, fun tag code data hbody hnone => ?_, fun tag code data o hbody hfind => ?_⟩
  · have heffect : (s.heardFrom f).handOn f = (s.heardFrom f).arrive ⟨f.source, f.dest == 31, tag, code, args⟩ := by
      unfold State.handOn
      rw [hbody]
    by_cases hsilent : s.link.listenOnly = true ∧ f.dest ≠ 31
    · rw [if_pos hsilent]
      exact leaves (heffect.trans (arrive_silent hsilent.1 (beq_eq_false_iff_ne.mpr hsilent.2))) rfl
    rw [if_neg hsilent]
    have hopen : (s.heardFrom f).link.listenOnly = false ∨ (f.dest == 31) = true := by
      by_cases hall : f.dest = 31
      · exact .inr (beq_iff_eq.mpr hall)
      · exact .inl (Bool.not_eq_true _ ▸ fun hlisten => hsilent ⟨hlisten, hall⟩)
    by_cases hroom : s.link.intake.length < 8
    · rw [if_pos hroom]
      exact leaves (heffect.trans (arrive_room hopen hroom)) rfl
    rw [if_neg hroom]
    have hfull := heffect.trans (arrive_full (s := s.heardFrom f) (r := ⟨f.source, f.dest == 31, tag, code, args⟩) hopen
      (Nat.not_lt.mp hroom))
    by_cases hall : f.dest = 31
    · rw [if_pos hall]
      exact leaves (hfull.trans (answer_toAll (beq_iff_eq.mpr hall) _ _ _ _)) rfl
    · rw [if_neg hall]
      have hone := answer_one (r := ⟨f.source, f.dest == 31, tag, code, args⟩) (beq_eq_false_iff_ne.mpr hall)
        (s.heardFrom f) .exchange .busy (data := []) (by decide)
      have hfault := answer_fault (s.heardFrom f) .exchange ⟨f.source, f.dest == 31, tag, code, args⟩ .busy []
      rw [hone] at hfault
      exact leaves (hfull.trans hone) hfault
  · have hmiss : ((s.heardFrom f).link.outstanding.find? fun e => e.dest == f.source && e.tag == tag) = none :=
      List.find?_eq_none.mpr fun o ho hmatch => hnone o ho (by simpa using hmatch)
    refine leaves ?_ rfl
    unfold State.handOn
    rw [hbody]
    show (s.heardFrom f).answerFrom f.source tag code data = _
    unfold State.answerFrom
    rw [hmiss]
    rfl
  · intro freed w
    have hdest : o.dest = f.source ∧ o.tag = tag := by simpa using List.find?_some hfind
    have hu := freed_settled hs f o
    have heffect : (s.heardFrom f).handOn f = (s.freed f o).requestEnded o (some (code, data)) := by
      unfold State.handOn
      rw [hbody]
      exact freed_answer hfind code data
    rw [heffect] at hexec
    refine ⟨fun hcode hspin => ?_, fun drop hcode hreq hrun hrod => ?_⟩
    · have hended : (s.freed f o).requestEnded o (some (code, data)) =
          (s.freed f o).spinEnded f.source (some (code, data)) := by
        unfold State.requestEnded
        rw [if_pos hcode, hdest.1, hdest.2]
        exact if_pos hspin
      rw [hended] at hexec
      have spins : ∀ {q : SpinRequest}, (s.freed f o).spinEnded f.source (some (code, data)) =
          { s.freed f o with seq := { s.seq with spin := q } } →
          Leaves [.peers] s { w with seq := { s.seq with spin := q } }
            (s.finish ((s.freed f o).spinEnded f.source (some (code, data)))) := fun {q} hw => by
        rw [hw]
        exact .of_peers (finish_leaves s _ rfl (settled_of_conds hu rfl rfl fun d => by cases d <;> rfl))
          (moves_peers { w with seq := { s.seq with spin := q } } (s.heardFrom f).peers).other
      refine ⟨_, hexec, fun hone => ?_, fun hother hidle => ?_, fun hother hrun hstate hphase => ?_⟩
      · subst hone
        exact spins (spinEnded_accepted _ _ _)
      · exact spins ((spinEnded_other f.source data hother).trans (if_neg hidle))
      · have hundone : ({ s.freed f o with seq := { s.seq with spin := .none } } : State).stepDone = false :=
          stepDone_of_phase hphase
        have hfaulted := ((spinEnded_other (s := s.freed f o) f.source data hother).trans (if_pos hstate)).trans
          (seqStop_of_undone hundone (.fault .spin))
        rw [hfaulted]
        have hsettles := finish_settles s { s.freed f o with seq := { s.seq with
          state := .fault .spin, phase := .first, timer := none, spin := .none
          index := false, present := false, store := false, retract := false } } rfl
        refine ⟨hsettles.rest.other.seq (by decide), ?_, hsettles.changes (p := [.link, .peers, .seq])
          ((leavesOther_freed s f o).after (moves_seq (s.freed f o) _).other (by decide) (by decide)) (by decide) (by decide)⟩
        exact finish_isActive s (inRun_of_mode (s := { s.freed f o with seq := _ }) hrun) (by decide)
    · intro r resynced again ended unused count event hold ids list known valid passes
      have hended : (s.freed f o).requestEnded o (some (code, data)) =
          (s.freed f o).pageEnded f.source drop (some (code, data)) := by
        unfold State.requestEnded
        rw [if_neg (by rw [hcode]; decide), hdest.1, hdest.2, show (s.freed f o).rod = s.rod from rfl, hreq]
        exact if_pos ⟨rfl, rfl⟩
      rw [hended] at hexec
      have resyncs : ∀ {q : Resync}, (s.freed f o).pageEnded f.source drop (some (code, data)) = (s.freed f o).resynced q →
          resynced q := fun {q} hw => by
        rw [hw] at hexec
        exact ⟨_, hexec, .of_peers (finish_leaves s _ rfl (settled_of_conds hu rfl rfl fun d => by cases d <;> rfl))
          (moves_peers { w with rod := { s.rod with resync := q } } (s.heardFrom f).peers).other⟩
      have used := fun h => pageEnded_used (u := s.freed f o) (k := f.source) (drop := drop) h code data
      have hsure : ¬unused → s.rod.sure = false := fun h => Bool.eq_false_iff.mpr fun hsure => h (.inr (.inl hsure))
      have hsource : ¬unused → s.rod.source = some f.source := fun h => by_contra fun hne => h (.inr (.inr hne))
      have hshort : data.length < 8 → readPage data = none := fun h => if_pos h
      have paged : ∀ {page : PageData}, ¬unused → code = 0 → readPage data = some page →
          (s.freed f o).pageEnded f.source drop (some (code, data)) =
            ((s.freed f o).resynced { r with request := .none }).takePage page := fun h h0 hread => by
        rw [used h, if_pos h0, hread]
        rfl
      refine ⟨fun h => resyncs (pageEnded_unused (u := s.freed f o) h _), fun h h0 h9 => resyncs ((used h).trans ((if_neg h0).trans (if_neg h9))),
        fun h h9 => resyncs ?_, fun h h0 hless => resyncs ?_, fun h h0 hlen hfirst => resyncs ?_, fun h h0 hlen hfirst => ?_⟩
      · refine (used h).trans ((if_neg (by rw [h9]; decide)).trans ((if_pos h9).trans ?_))
        exact resyncAgain_idle (u := s.freed f o) (hsure h) _ rfl
      · rw [used h, if_pos h0, hshort hless]
        rfl
      · obtain ⟨n, hn, hne⟩ := hfirst
        refine (paged h h0 (readPage_eq hlen)).trans ((takePage_other (u := (s.freed f o).resynced { r with request := .none }) (n := n) hn hne).trans ?_)
        exact resyncAgain_idle (u := s.freed f o) (hsure h) _ rfl
      · have hnext := (paged h h0 (readPage_eq hlen)).trans
          (takePage_next (u := (s.freed f o).resynced { r with request := .none }) (p := ⟨count, _, event, hold, ids⟩) hfirst)
        generalize hv : ((s.freed f o).resynced { r with request := .none }).scratched
          ⟨count, natAt data 2 3, event, hold, ids⟩ = v at hnext
        have hpeer : v.peer? f.source = some (p.refresh f.seq (3 * s.statusPeriod)) := by
          rw [← hv]
          exact (heardFrom_peer? s f f.source).trans (by rw [if_pos rfl, hk.1]; rfl)
        have hvother : LeavesOther [.link, .peers, .rod] s v := by
          rw [← hv]
          exact (leavesOther_freed s f o).after (moves_rod (s.freed f o) _).other (by decide) (by decide)
        have hvrod : v.rod = { s.rod with resync := ⟨r.nextPage + 1, list, some event, r.again, .none⟩ } := by
          rw [← hv]
          rfl
        have hvlink : v.link = freed := by
          rw [← hv]
          rfl
        have hvagain : v.resyncAgain = (s.freed f o).resynced ⟨0, [], none, true, .none⟩ := by
          rw [← hv]
          exact resyncAgain_idle (u := s.freed f o) (hsure h) _ rfl
        have hpasses : v.resyncChecks list hold = true ↔ passes := by
          have hlength : v.lengthOf list = s.lengthOf list := by rw [← hv]; rfl
          have hsv : v.rod.source = some f.source := by rw [hvrod]; exact hsource h
          rw [resyncChecks_iff hsv hpeer, holdApplies_iff, hvother.ret (by decide), hlength]
          rfl
        have hvsettled : v.AlarmsSettled := hv ▸ resync_settled hu _
        clear hv
        refine ⟨fun hmore => ?_, fun hlast hfails => resyncs ?_, fun hlast hpass hheld => ?_⟩
        · have hw := hnext.trans (if_neg hmore)
          rw [hw] at hexec
          have hmoves := hvother.after (moves_requestPage v).other (r := [.peers, .link, .rod]) (by decide) (by decide)
          have hquiet := finish_quiet s v.requestPage hmoves (requestPage_settled hvsettled)
          have hleaves := (finish_leaves s v.requestPage hmoves.pending (requestPage_settled hvsettled)).other
          refine ⟨_, hexec, ?_, fun hbegun hheard hpage hentry hplace => ?_, hquiet⟩
          · rw [hleaves.rod (by decide), requestPage_rod, hvrod]
          · have hasks : v.AsksPage f.source :=
              ⟨hvother.mode.trans hrun, (congrArg Straps.rod hvother.straps).trans hrod, by rw [hvrod]; exact hsure h,
                by rw [hvlink]; exact hheard, by rw [hvrod]; exact hbegun, by rw [hvrod], ?_, by rw [hvrod]; exact hsource h,
                ⟨_, hpeer, hfresh⟩, by rw [hvlink]; exact hentry, by rw [hvlink]; exact hplace⟩
            · rw [hleaves.link (by decide), hleaves.rod (by decide), ← hvlink]
              exact hasks.asked
            · rw [hvlink]
              intro x hx
              obtain ⟨hmem, hne⟩ := List.mem_filter.mp hx
              exact hpage x hmem (of_decide_eq_true hne)
        · exact hnext.trans ((if_pos hlast).trans ((if_neg (mt hpasses.mp hfails)).trans hvagain))
        · have hw := hnext.trans ((if_pos hlast).trans ((if_pos (hpasses.mpr hpass)).trans
            (resyncComplete_eq (u := v) (by rw [hvrod]; exact hheld) list hold event)))
          have hmode : v.mode = .run := hvother.mode.trans hrun
          have hin : (v.resyncTaken list hold event).inRun = true := inRun_of_mode hmode
          have hformed : (v.resyncTaken list hold event).depthFollows v = (v.resyncTaken list hold event).recomputeDepth :=
            depthFollows_of_changed fun hsame => by
              have hview : v.viewSure = true := (congrArg DepthInputs.sure hsame).symm.trans (Bool.or_true _)
              unfold State.viewSure at hview
              rw [hvother.straps, hrod, hvrod] at hview
              exact Bool.false_ne_true ((hsure h).symm.trans hview)
          rw [hformed] at hw
          rw [hw] at hexec
          have hret : (v.resyncTaken list hold event).ret = { s.ret with
              string := list
              hold := hold
              eventNo := event
              rods := s.ret.rods.map fun d : Rod =>
                if d.id ∈ list then { d with state := .string, slot := none }
                else if d.state = .string then { d with state := .offRig, slot := none }
                else d } := by
            unfold State.resyncTaken Retained.replaceString
            rw [hvother.ret (by decide)]
            simp only [List.contains_iff_mem]
          have hrod' : (v.resyncTaken list hold event).rod = ⟨true, s.rod.source, 0, [], ⟨0, [], none, false, .none⟩⟩ := by
            unfold State.resyncTaken
            rw [hvrod]
          have hdeep := deepens_recomputeDepth (v.resyncTaken list hold event)
          have hdepth := recomputeDepth_depth hin
          have hnow := recomputeDepth_now hin
          have hmoves := (moves_recomputeDepth (v.resyncTaken list hold event)).other
          have hother : LeavesOther [.peers, .link, .ret, .depth, .rod, .alarm] s (v.resyncTaken list hold event).recomputeDepth :=
            (hvother.after (resyncTaken_leaves list hold event) (r := [.peers, .link, .ret, .depth, .rod, .alarm]) (by decide)
              (by decide)).after hmoves (by decide) (by decide)
          rw [hret] at hdeep
          rw [← hrod', ← hmoves.rod (by decide)]
          generalize (v.resyncTaken list hold event).recomputeDepth = x at hexec hdeep hdepth hnow hmoves hother ⊢
          have hafter := hother.after (moves_alarmsFollow x).other (r := [.peers, .link, .ret, .depth, .rod, .alarm])
            (by decide) (by decide)
          have hxt := (moves_alarmsFollow x).other.after (finish_rest s x.alarmsFollow hafter.pending) (r := [.alarm, .link])
            (by decide) (by decide)
          have hsure' : x.rod.sure = true := by
            rw [hmoves.rod (by decide), hrod']
          refine ⟨_, hexec, keeps_of_deepens ?_, hxt.rod (by decide), ?_, ?_,
            (finish_settles s _ hafter.pending).changes hafter (by decide) (by decide)⟩
          · rw [hxt.ret (by decide)]
            exact hdeep
          · rw [depthNow_of_other hxt (by decide) (by decide) (by decide) (by decide), hnow, hxt.depth (by decide), hdepth]
          · rw [finish_isActive s (inRun_of_mode (hafter.mode.trans hrun)) (by decide)]
            show (!x.alarmsFollow.viewSure) = false
            unfold State.viewSure
            rw [(moves_alarmsFollow x).other.rod (by decide), hsure', Bool.or_true]
            rfl

end Sys2Proof

/-! A rod table that lists one ID twice (O27): an event moves both records, and R96's RETIRED rod stays RETIRED record by
record, not as the first record of its ID is. -/

namespace Sys2Proof.Machine

open Host

/-- Station 5 in RUN without a role, whose rod source is the peer 7, with two records of the rod 1: a RETIRED one in slot 3
and one in the rack. -/
def twiceListed : State := { State.reset with
  mode := .run
  straps := ⟨5, false, false, false, false, false, false⟩
  ret := { Retained.cold with rods := [⟨1, 1, 0, .retired, true, some 3⟩, ⟨1, 1, 0, .rack, false, none⟩] }
  rod := { RodUnit.start with sure := true, source := some 7 }
  peers := [PeerEntry.new 7 0 750] }

/-- The rod leaves the rack: event 1 of the peer 7. -/
def unrackTwice : RodEventMsg := ⟨1, .rackUnloaded, some 1, some 3, none, 0, 0, ⟨.clamped, .free, false⟩⟩

/-- The event on the line, as the sender's frame 1. -/
def unrackTwiceFrame : RxFrame := ⟨7, 31, .rodEvent, 1, .rodEvent unrackTwice⟩

/-- The bytes of the event's frame. -/
def unrackTwiceBytes : List Byte := wireFrame 7 ⟨.rodEvent, 31, false, none, encodeRodEvent unrackTwice, 0, 0, none⟩ 1

theorem unrackTwice_fits : unrackTwice.Fits where
  number := by decide
  rod r h := by cases h; decide
  slot k h := by cases h; decide
  place := ⟨fun _ => rfl, fun h => by cases h⟩
  present := rfl
  string := by decide

theorem unrackTwice_decodes : decodeFrame unrackTwiceBytes = some unrackTwiceFrame := by
  obtain ⟨-, -, -, hevent, -⟩ := payloadsReadBack
  have hread := hevent unrackTwice unrackTwice_fits
  exact wireFrameIsAGoodFrame 7 ⟨.rodEvent, 31, false, none, encodeRodEvent unrackTwice, 0, 0, none⟩ 1 (.rodEvent unrackTwice)
    (by decide) (by decide) (by decide) (by decide) (by decide) (by decide) (by
      show (decodeRodEvent (encodeRodEvent unrackTwice)).map RxBody.rodEvent = _
      rw [hread]
      rfl)

theorem twiceListed_hears : twiceListed.Hears unrackTwiceBytes unrackTwiceFrame where
  powered := rfl
  busy := by decide
  listening := rfl
  receiving := .inl rfl
  good := unrackTwice_decodes
  other := by decide
  handed := .inr rfl

theorem twiceListed_settled : twiceListed.AlarmsSettled := by
  intro _ c
  cases c <;> rfl

theorem twiceListed_knows : twiceListed.Knows 7 (PeerEntry.new 7 0 750) :=
  ⟨rfl, fun _ hq _ => List.mem_singleton.mp hq⟩

/-- The second record of the rod goes off the rig, while the first stays RETIRED. -/
theorem twiceListed_unracked :
    ((twiceListed.heardFrom unrackTwiceFrame).handOn unrackTwiceFrame).ret.rods =
      [⟨1, 1, 0, .retired, true, none⟩, ⟨1, 1, 0, .offRig, false, none⟩] := by decide

end Sys2Proof.Machine

namespace Sys2Proof

open Machine Host

/-- Refutes O27: a station whose rod table lists the rod 1 twice, RETIRED in slot 3 and then in the rack, hears that the
rod 1 has left slot 3. The statement makes both records RETIRED, as the first one is; the model keeps each record's own
RETIRED state, so the second is OFF RIG. -/
theorem not_rodEventHeard : ¬Obligations.RodEventHeard := by
  unfold Obligations.RodEventHeard
  intro h
  have hclaim := h unrackTwiceBytes unrackTwiceFrame unrackTwice (PeerEntry.new 7 0 750) twiceListed rfl rfl twiceListed_hears
    twiceListed_settled rfl twiceListed_knows rfl
  obtain ⟨t, hexec, -, -, hsource⟩ := hclaim
  obtain ⟨-, -, htaken⟩ := hsource rfl rfl (fun d hd => by cases hd; decide)
  obtain ⟨hkeeps, -⟩ := htaken [⟨1, 1, 0, .retired, true, none⟩, ⟨1, 1, 0, .retired, false, none⟩] [] (by decide) rfl rfl
  have ht : t = twiceListed.finish ((twiceListed.heardFrom unrackTwiceFrame).handOn unrackTwiceFrame) :=
    Outcome.next.inj (hexec.symm.trans (exec_frameReceived twiceListed_hears rfl rfl))
  have hrods : t.ret.rods = [⟨1, 1, 0, .retired, true, none⟩, ⟨1, 1, 0, .offRig, false, none⟩] := by
    rw [ht, finish_ret]
    exact twiceListed_unracked
  have hkept : t.ret.rods = [⟨1, 1, 0, .retired, true, none⟩, ⟨1, 1, 0, .retired, false, none⟩] :=
    congrArg Retained.rods hkeeps
  exact absurd (hkept.symm.trans hrods) (by decide)

end Sys2Proof

/-! Units begun and ended (O42 to O44, O58): the own claim's moves, and the next unit, part by part. -/

namespace Sys2Proof.Machine

open Host

/-! ## Moves of the own claim (R31 to R34) -/

section

variable (s : State)

/-- The own claim set. -/
def State.claimIs (ph : ClaimPhase) : State := { s with ret := { s.ret with claim := ⟨.connection, ph⟩ } }

theorem moveClaim_leaves (ph : ClaimPhase) : LeavesOther [.pumps, .spin, .depth, .link] (s.claimIs ph) (s.moveClaim ph) :=
  ((moves_announceClaim (s.claimIs ph)).other.after (moves_spinOwnerCheck _).other (r := [.pumps, .spin, .depth, .link])
    (by decide) (by decide)).after (moves_viewChanged _ _).other (by decide) (by decide)

theorem moveClaim_ret (ph : ClaimPhase) : (s.moveClaim ph).ret = { s.ret with claim := ⟨.connection, ph⟩ } :=
  (moveClaim_leaves s ph).ret (by decide)

variable {s}

/-- A claim that can be taken is PENDING, with its settle timer running, and a sequencer that waited is in CLAIMING. -/
theorem takeTest_takes (h : s.mayTake = true) :
    s.takeTest.ret = { s.ret with claim := ⟨.connection, .pending⟩ } ∧
      s.takeTest.claims = { s.claims with settle := some (2 * s.statusPeriod) } ∧
      s.takeTest.seq = { s.seq with state := if s.seq.state = .waitClaim then .claiming else s.seq.state } := by
  have hmoves := moveClaim_leaves s .pending
  have hret := moveClaim_ret s .pending
  have hseq := hmoves.seq (by decide)
  have hclaims := hmoves.claims (by decide)
  have htake : s.takeTest = { (s.moveClaim .pending).startSettle with
      seq := { s.seq with state := if s.seq.state = .waitClaim then .claiming else s.seq.state } } := by
    unfold State.takeTest
    rw [if_pos h]
    dsimp only
    rw [seqState_ite]
    show ({ (s.moveClaim .pending).startSettle with seq := { (s.moveClaim .pending).seq with
      state := if (s.moveClaim .pending).seq.state = .waitClaim then _ else (s.moveClaim .pending).seq.state } } : State) = _
    rw [hseq]
    rfl
  rw [htake, startSettle_eq]
  dsimp only
  refine ⟨hret, ?_, rfl⟩
  rw [hclaims]
  unfold State.cfg
  rw [hret]
  rfl

theorem releaseClaim_ret (s : State) :
    s.releaseClaim.ret = { s.ret with
      claim := if s.ret.claim.phase = .none then s.ret.claim else ⟨.connection, .none⟩ } := by
  unfold State.releaseClaim
  dsimp only
  by_cases h : s.ret.claim.phase = .none
  · rw [if_pos h, if_pos h]
  · rw [if_neg h, if_neg h, moveClaim_ret]

theorem releaseClaim_rest (s : State) :
    s.releaseClaim.seq = s.seq ∧ s.releaseClaim.claims.takeRequest = false ∧ s.releaseClaim.ret.claim.phase = .none := by
  unfold State.releaseClaim
  dsimp only
  by_cases h : s.ret.claim.phase = .none
  · rw [if_pos h]
    exact ⟨rfl, rfl, h⟩
  · rw [if_neg h]
    have hmoves := moveClaim_leaves { s with claims := { s.claims with takeRequest := false, settle := none } } .none
    refine ⟨hmoves.seq (by decide), congrArg ClaimUnit.takeRequest (hmoves.claims (by decide)), ?_⟩
    rw [moveClaim_ret]

end

/-! ## The next unit (R107) -/

/-- No entry is left: the sequencer is IDLE and the claim is released. -/
theorem beginUnit_none {s : State} (h : s.seq.queue = []) (n : Nat) : s.beginUnit n = s.seqIdle.releaseClaim := by
  cases n with
  | zero => rfl
  | succ n =>
    unfold State.beginUnit
    rw [h]

theorem seqIdle_releaseClaim (s : State) :
    s.seqIdle.releaseClaim.seq = s.seqIdle.seq ∧ s.seqIdle.releaseClaim.ret.unit = none ∧
      s.seqIdle.releaseClaim.claims.takeRequest = false ∧ s.seqIdle.releaseClaim.ret.claim.phase = .none := by
  obtain ⟨hseq, htake, hclaim⟩ := releaseClaim_rest s.seqIdle
  refine ⟨hseq, ?_, htake, hclaim⟩
  rw [releaseClaim_ret]
  rfl

/-- A break-out with an empty string ends at once (R107). -/
theorem beginUnit_empty {s : State} {e : OpEntry} {rest : List OpEntry} (h : s.seq.queue = e :: rest)
    (hempty : e.kind = .breakOut ∧ s.ret.string = []) (n : Nat) :
    s.beginUnit (n + 1) =
      (({ s with seq := { s.seq with queue := rest } } : State).setLastOp .breakOut .empty (some e)).beginUnit n := by
  rw [State.beginUnit, h]
  exact if_pos hempty

/-- The station with a unit of an entry begun, that waits for the claim. -/
def State.unitWaits (s : State) (e : OpEntry) : State :=
  { s.seqIdle with
    ret := { s.ret with unit := some ⟨e.kind, 1, none, none, false⟩ }
    seq := { s.seqIdle.seq with state := if s.ret.claim.phase = .pending then .claiming else .waitClaim }
    claims := { s.claims with takeRequest := true } }

/-- Without the ACTIVE claim a unit that begins waits for it (R107). -/
theorem beginUnit_waits {s : State} {e : OpEntry} {rest : List OpEntry} (h : s.seq.queue = e :: rest)
    (hfull : ¬(e.kind = .breakOut ∧ s.ret.string = [])) (hclaim : s.ret.claim.phase ≠ .active) (n : Nat) :
    s.beginUnit (n + 1) = (s.unitWaits e).takeTest := by
  rw [State.beginUnit, h]
  refine (if_neg hfull).trans (if_neg ?_)
  exact fun hactive => hclaim (beq_iff_eq.mp hactive)

/-- With the ACTIVE claim kept the next unit goes to its second step (R107). -/
theorem beginUnit_goes {s : State} {e : OpEntry} {rest : List OpEntry} (h : s.seq.queue = e :: rest)
    (hfull : ¬(e.kind = .breakOut ∧ s.ret.string = [])) (hclaim : s.ret.claim.phase = .active) (n : Nat) :
    s.beginUnit (n + 1) =
      ({ s.seqIdle with ret := { s.ret with unit := some ⟨e.kind, 1, none, none, false⟩ } } : State).waitsPumps
        ⟨e.kind, 1, none, none, false⟩ := by
  rw [State.beginUnit, h]
  refine (if_neg hfull).trans ((if_pos (beq_iff_eq.mpr hclaim)).trans ?_)
  exact enterStep_two rfl

end Sys2Proof.Machine

/-! ROD_OP (O42). -/

namespace Sys2Proof.Machine

open Host

theorem stopped_iff (q : SeqState) : q.stopped = true ↔ ∃ c, q = .hold c ∨ q = .fault c := by
  cases q <;> simp [SeqState.stopped]

section

variable (rq : ReqHead) (kind count : Byte) (s : State)

theorem serveRodOp_range (h : 1 < kind.toNat ∨ count.toNat < 1 ∨ 32 < count.toNat) :
    serveRodOp (requestOf rq 11 [kind, count]) s = s.refuse .range := by
  unfold serveRodOp
  rw [arg_zero_requestOf]
  by_cases hkind : 1 < kind.toNat
  · have hnone : OpKind.ofCode kind.toNat = none := by
      obtain ⟨n, hn⟩ : ∃ n, kind.toNat = n + 2 := ⟨kind.toNat - 2, by omega⟩
      rw [hn]
      rfl
    rw [hnone]
  · have hcount := h.resolve_left hkind
    cases OpKind.ofCode kind.toNat with
    | none => rfl
    | some k => exact if_pos hcount

/-- The end of a step whose effect is answered. -/
theorem finish_replied {s w : State} {k : QueueId} {rq : ReqHead} {result : ResultCode} {data : List Byte}
    (h : w.pending = s.pending) : LeavesOther [.alarm, .link] w (s.finish (w.replied k rq result data)) :=
  (moves_answer w k _ result data).other.after (finish_rest s _ ((replied_pending w k rq result data).trans h)) (by decide)
    (by decide)

/-- The tests of ROD_OP on the station (R106). -/
def State.opBarred (s : State) : Bool := s.seq.state.stopped || s.ret.job == .closed || s.link.listenOnly

theorem opBarred_iff : s.opBarred = true ↔
    (∃ c, s.seq.state = .hold c ∨ s.seq.state = .fault c) ∨ s.ret.job = .closed ∨ s.link.listenOnly = true := by
  unfold State.opBarred
  rw [Bool.or_eq_true, Bool.or_eq_true, stopped_iff, beq_iff_eq, or_assoc]

/-- The station with an entry more in the op queue. -/
def State.opQueued (e : OpEntry) (s : State) : State := { s with seq := { s.seq with queue := s.seq.queue ++ [e] } }

theorem serveRodOp_kind {k : OpKind} (hkind : kind.toNat = if k = .makeUp then 0 else 1) (hlow : 1 ≤ count.toNat)
    (hhigh : count.toNat ≤ 32) :
    serveRodOp (requestOf rq 11 [kind, count]) s =
      if s.opBarred = true then s.refuse .state
      else if 8 ≤ s.seq.queue.length then s.refuse .full
      else
        ⟨if s.seq.state = .idle then
            ((s.opQueued ⟨k, count.toNat, rq.source, s.ret.jobTime⟩).beginUnit 9).seqRun
          else s.opQueued ⟨k, count.toNat, rq.source, s.ret.jobTime⟩, .accepted, []⟩ := by
  have hsome : OpKind.ofCode kind.toNat = some k := by
    rw [hkind]
    cases k <;> rfl
  unfold serveRodOp
  rw [arg_zero_requestOf, hsome]
  refine (if_neg (c := count.toNat < 1 ∨ 32 < count.toNat) (by omega)).trans ?_
  rfl

end

end Sys2Proof.Machine

namespace Sys2Proof

open Machine Host

/-- Settles O42: the tests, then the unit an entry begins at a sequencer that is IDLE. -/
theorem rodOpQueuesAndBegins : Obligations.RodOpQueuesAndBegins := by
  unfold Obligations.RodOpQueuesAndBegins
  intro rq kind count s hrun hrole hs hserves refused barred
  have answered := fun {w result} => exec_served (g := fun s => ⟨s.straps.rod, 2, false⟩) (f := serveRodOp)
    (i := .rodOp rq kind count) (w := w) (result := result) (data := []) rfl hserves hrun hrole (by simp)
  have refuse : ∀ code, serveRodOp (requestOf rq 11 [kind, count]) s.taken = s.taken.refuse code → refused code :=
    fun code h => taken_answered hs (answered h)
  refine ⟨fun h => refuse _ (serveRodOp_range rq kind count s.taken h), fun k hkind hlow hhigh => ?_⟩
  intro e
  have hserve := serveRodOp_kind rq kind count s.taken hkind hlow hhigh
  have hbarred : s.taken.opBarred = true ↔ barred := opBarred_iff s.taken
  refine ⟨fun h => refuse _ (hserve.trans (if_pos (hbarred.mpr h))),
    fun h hfull => refuse _ (hserve.trans ((if_neg (mt hbarred.mp h)).trans (if_pos hfull))), fun h hroom hbusy => ?_,
    fun h hidle hempty hclaim => ?_⟩
  · refine answered_settles (w := s.taken.opQueued e) rfl (answered (hserve.trans ((if_neg (mt hbarred.mp h)).trans
      ((if_neg (Nat.not_le.mpr hroom)).trans ?_))))
    exact congrArg (Served.mk · _ _) (if_neg hbusy)
  · have hroom : ¬8 ≤ s.seq.queue.length := by
      rw [hempty]
      decide
    have hqueue : (s.taken.opQueued e).seq.queue = [e] := by
      show s.seq.queue ++ [e] = [e]
      rw [hempty]
      rfl
    have hexec := answered (hserve.trans ((if_neg (mt hbarred.mp h)).trans ((if_neg hroom).trans
      (congrArg (Served.mk · _ _) (if_pos hidle)))))
    have hqueued : LeavesOther [.link, .seq] s (s.taken.opQueued e) :=
      (leavesOther_link s s.link.popIntake).after (moves_seq s.taken _).other (by decide) (by decide)
    have hbegun : LeavesOther (.link :: seqParts) s ((s.taken.opQueued e).beginUnit 9).seqRun :=
      (hqueued.after (moves_beginUnit 9 _).other (r := .link :: seqParts) (by decide) (by decide)).after
        (moves_seqRun _).other (by decide) (by decide)
    obtain ⟨x, hx⟩ : ∃ x, x = ((s.taken.opQueued e).beginUnit 9).seqRun := ⟨_, rfl⟩
    rw [← hx] at hbegun
    replace hexec : exec (.rodOp rq kind count) s = .next (s.finish (x.replied .exchange rq .accepted [])) := by
      rw [hx]
      exact hexec
    have hxt := finish_replied (k := .exchange) (rq := rq) (result := .accepted) (data := []) hbegun.pending
    refine ⟨_, hexec, fun hk hstring => ?_, fun hstring => ?_,
      (finish_settles s _ ((replied_pending _ _ _ _ _).trans hbegun.pending)).changes
        (hbegun.after (moves_answer _ _ _ _ _).other (r := .link :: seqParts) (by decide) (by decide)) (by decide) (by decide)⟩
    · have hw := (beginUnit_empty hqueue ⟨hk, hstring⟩ 8).trans (beginUnit_none rfl 8)
      generalize hv : ({ s.taken.opQueued e with seq := { (s.taken.opQueued e).seq with queue := [] } } : State).setLastOp
        .breakOut .empty (some e) = v at hw
      obtain ⟨hseq, hunit, -, -⟩ := seqIdle_releaseClaim v
      have hclaim' : v.seqIdle.releaseClaim.ret.claim = s.ret.claim := by
        rw [releaseClaim_ret]
        refine (if_pos ?_).trans ?_
        all_goals rw [← hv]
        exacts [hclaim, rfl]
      rw [hw, seqRun_of_not_running (s := v.seqIdle.releaseClaim) (by rw [hseq]; exact SeqState.noConfusion)] at hx
      rw [hxt.ret (by decide), hxt.seq (by decide), hx, hunit, hclaim', hseq, ← hv]
      exact ⟨rfl, rfl, rfl, rfl, rfl⟩
    · have hnone : (s.taken.opQueued e).ret.claim.phase = .none := hclaim
      rw [beginUnit_waits hqueue (fun h => hstring h.1 h.2) (by rw [hnone]; decide) 8] at hx
      have hwait : ((s.taken.opQueued e).unitWaits e).seq.state = .waitClaim := if_neg (by rw [hnone]; decide)
      have hfree := mayTake_iff ((s.taken.opQueued e).unitWaits e)
      by_cases hmay : ((s.taken.opQueued e).unitWaits e).mayTake = true
      · obtain ⟨hret, hclaims, hseq⟩ := takeTest_takes hmay
        rw [if_pos hwait] at hseq
        rw [seqRun_of_not_running (by rw [hseq]; exact SeqState.noConfusion)] at hx
        rw [hxt.ret (by decide), hxt.seq (by decide), hxt.claims (by decide), hx, hret, hclaims, hseq]
        obtain ⟨-, -, hview, hlisten, -, -⟩ := hfree.mp hmay
        refine ⟨hqueue, rfl, rfl, fun _ _ => ⟨rfl, rfl, rfl⟩, fun hheld => ?_⟩
        obtain hheld | hheld := hheld
        · exact absurd (hview.symm.trans hheld) Bool.false_ne_true
        · rw [show s.claims.listen = none from hlisten] at hheld
          exact absurd hheld Bool.false_ne_true
      · have hstays := takeTest_of_not (Bool.not_eq_true _ ▸ hmay)
        rw [hstays, seqRun_of_not_running (by rw [hwait]; exact SeqState.noConfusion)] at hx
        rw [hxt.ret (by decide), hxt.seq (by decide), hxt.claims (by decide), hx, hwait]
        refine ⟨hqueue, rfl, rfl, fun hview hlisten => absurd ?_ hmay, fun _ => ⟨rfl, rfl⟩⟩
        exact hfree.mpr ⟨rfl, hnone, hview, hlisten, inRun_of_mode hrun, Bool.eq_false_iff.mpr fun hl => h (.inr (.inr hl))⟩

end Sys2Proof

/-! A peer table that lists the own station number (O44): its claim keeps a spin of the own station owned after the own
release, where the statement has the spin ended. -/

namespace Sys2Proof.Machine

open Host

/-- Station 5 in RUN with the ROD role, in HOLD, with its own claim PENDING and its own spin running, that lists a peer of
number 5 with a claim. -/
def ownListed : State := { State.reset with
  mode := .run
  straps := ⟨5, false, false, true, false, false, false⟩
  ret := { Retained.cold with claim := ⟨.connection, .pending⟩ }
  peers := [{ PeerEntry.new 5 0 750 with claim := ⟨.connection, .pending⟩ }]
  seq := { Sequencer.start with state := .hold .silenced }
  spin := { SpinService.start with state := .running, owner := some 5 }
  alarm := ⟨setFlag 0 .sequenceHold true, 0⟩ }

/-- Station 20 asks for a confirmation of the hold record alone. -/
abbrev confirmer : ReqHead := ⟨20, false, 7⟩

/-- CLAMPED and FREE. -/
abbrev freeRecord : Byte := 1

theorem ownListed_settled : ownListed.AlarmsSettled := by
  intro _ c
  cases c <;> rfl

theorem ownListed_serves :
    ownListed.Serves (requestOf confirmer 14 (leBytes 2 (65535 : BitVec 16).toNat ++ [0, 0, freeRecord])) :=
  ⟨rfl, .inl ⟨rfl, .inr rfl⟩⟩

/-- What the confirmation leaves before its answer. -/
def ownConfirmed : State :=
  (serveRodConfirm (requestOf confirmer 14 (leBytes 2 (65535 : BitVec 16).toNat ++ [0, 0, freeRecord])) ownListed.taken).state

theorem ownConfirmed_served :
    serveRodConfirm (requestOf confirmer 14 (leBytes 2 (65535 : BitVec 16).toNat ++ [0, 0, freeRecord])) ownListed.taken =
      ⟨ownConfirmed, .done, []⟩ := rfl

/-- The claim of the peer of number 5 stands in the view, so the spin runs on. -/
theorem ownConfirmed_spins : ownConfirmed.spin.state = .running := by decide

theorem ownConfirmed_leaves : LeavesOther seqParts ownListed.taken ownConfirmed :=
  (moves_serveRodConfirm _ ownListed.taken).other

end Sys2Proof.Machine

namespace Sys2Proof

open Machine Host

/-- Refutes O44: station 5 in HOLD lists a peer of number 5 whose claim is PENDING, and runs a spin of its own claim. A
ROD_CONFIRM of the hold record releases the own claim. The statement then has the spin ended ABANDONED; in the model its
owner 5 still has a claim in the view, that of the peer, and the spin runs on (R118). -/
theorem not_rodConfirmSetsTheRecords : ¬Obligations.RodConfirmSetsTheRecords := by
  unfold Obligations.RodConfirmSetsTheRecords
  intro h
  have hclaim := h confirmer 65535 0 0 freeRecord ownListed rfl rfl ownListed_settled ownListed_serves (by decide)
  obtain ⟨-, -, -, hpasses⟩ := hclaim
  obtain ⟨-, hdone⟩ := hpasses ⟨⟨_, .inl rfl⟩, rfl⟩ ⟨by decide, fun hnamed => absurd rfl hnamed⟩ fun hnamed => absurd rfl hnamed
  obtain ⟨t, hexec, -, -, -, -, -, -, -, -, -, hspin, -⟩ := hdone [] [] rfl
  have hserved : exec (.rodConfirm confirmer 65535 0 0 freeRecord) ownListed =
      .next (ownListed.finish (ownConfirmed.replied .exchange confirmer .done [])) :=
    exec_served (g := fun s => ⟨s.straps.rod, 5, false⟩) (f := serveRodConfirm)
      (i := .rodConfirm confirmer 65535 0 0 freeRecord) rfl ownListed_serves rfl rfl (by decide) ownConfirmed_served
  have ht : t = ownListed.finish (ownConfirmed.replied .exchange confirmer .done []) :=
    Outcome.next.inj (hexec.symm.trans hserved)
  have hstill := (finish_replied (s := ownListed) (k := .exchange) (rq := confirmer) (result := .done) (data := [])
    ownConfirmed_leaves.pending).spin (by decide)
  have hends := congrArg SpinService.state (hspin rfl rfl (by decide))
  rw [ht, hstill, ownConfirmed_spins] at hends
  exact absurd hends (by decide)

end Sys2Proof

/-! A spin of the own service that ends while URGENT has two places left (O59): the HEAD frame of the spin's end takes one of
them, so that the second event of the step waits outside the queue, and the step with it. -/

namespace Sys2Proof.Machine

open Host

/-- A CLAIM frame, as it waits in URGENT. -/
def waitingClaim : TxFrame := newFrame .claim 31 true none []

/-- Station 5 with the HEAD and ROD roles, HEAD and ROD_EVENT frames configured URGENT, at the BREAK of a break-out: its own
spin 1 runs, and six frames wait in URGENT. -/
def crowdedBreak : State := { State.reset with
  mode := .run
  straps := ⟨5, false, true, true, false, false, false⟩
  ret := { Retained.cold with
    items := [⟨Item.kindClass, FrameKind.head.code, 0⟩, ⟨Item.kindClass, FrameKind.rodEvent.code, 0⟩]
    claim := ⟨.connection, .active⟩
    rods := [⟨7, 1, 0, .string, false, none⟩]
    string := [7]
    hold := ⟨.clamped, .latched, true⟩
    unit := some ⟨.breakOut, 9, none, none, true⟩ }
  link := { State.reset.link with urgent := List.replicate 6 waitingClaim }
  seq := { Sequencer.start with state := .running, spin := .accepted 5 1 }
  spin := { SpinService.start with state := .running, number := 1, owner := some 5, kind := some .break } }

theorem crowdedBreak_settled : crowdedBreak.AlarmsSettled := by
  intro _ c
  cases c <;> rfl

/-- What the end of the spin leaves before the alarms follow. -/
def crowdedDone : State := ({ crowdedBreak with pins := { crowdedBreak.pins with spinDone := true } } : State).spinOver .done

theorem exec_crowdedBreak : exec (.spinDoneInput true) crowdedBreak = .next (crowdedBreak.finish crowdedDone) :=
  exec_pins (p := { crowdedBreak.pins with spinDone := true }) rfl rfl rfl

/-- The HOLD_CHANGED event waits outside URGENT, and the step for it. -/
theorem crowdedDone_waits : crowdedDone.ret.unit = some ⟨.breakOut, 9, none, none, true⟩ := by decide

end Sys2Proof.Machine

namespace Sys2Proof

open Machine Host

/-- Refutes O59: at a station with the HEAD and ROD roles whose HEAD and ROD_EVENT frames are URGENT (R7), six frames wait in
URGENT as the own spin of a BREAK is DONE. The statement has the next step in hand, as two frames more find room; but the
HEAD frame called for at the end of the spin (R88) takes the seventh place and REMOVED the eighth, so HOLD_CHANGED waits
outside the queue, and with it the sequencer at step 9 (R9). -/
theorem not_spinStepCompletes : ¬Obligations.SpinStepCompletes := by
  unfold Obligations.SpinStepCompletes
  intro h
  obtain ⟨t, hexec, hstays, -⟩ := h (.spinDoneInput true) 5 1 ⟨.breakOut, 9, none, none, true⟩ .break crowdedBreak rfl
    crowdedBreak_settled rfl rfl rfl rfl (by decide) (.inl rfl) (.inl ⟨rfl, rfl, rfl, rfl, rfl⟩)
  obtain ⟨-, hnext⟩ := hstays fun _ _ => ⟨(nomatch ·), fun _ => rfl, fun hk => by rcases hk with hk | hk <;> cases hk⟩
  have hstep := hnext rfl ⟨rfl, by decide, by decide⟩ rfl
  have ht : t = crowdedBreak.finish crowdedDone := Outcome.next.inj (hexec.symm.trans exec_crowdedBreak)
  rw [ht, finish_ret, crowdedDone_waits] at hstep
  exact absurd hstep (by decide)

end Sys2Proof

/-! The SPIN service (O45): a spin begun, and its three ends; the permit and the calls for HEAD frames around them. -/

namespace Sys2Proof.Machine

open Host

/-! ## The end of a spin (R118) -/

/-- A spin service whose spin is over. -/
def SpinService.over (sp : SpinService) (st : SpinState) (permit : Bool) : SpinService :=
  { sp with state := st, timer := none, makeOut := false, breakOut := false, permit := permit }

theorem spinEnd_eq {s : State} {st : SpinState} (hrun : s.inRun = true) (hspin : s.spin.state = .running)
    (hst : st ≠ .running) :
    s.spinEnd st = ({ s with
      spin := s.spin.over st (s.straps.head && s.claims.listen.isNone && !s.viewHolds) } : State).headCall := by
  have hpermit := permitNow_of_idle
    (s := { s with spin := { s.spin with state := st, timer := none, makeOut := false, breakOut := false } }) hrun hst
  unfold State.spinEnd
  rw [if_pos hspin]
  dsimp only
  rw [hpermit]
  rfl

/-! ## Calls for a HEAD frame (R88) -/

/-- What one call or more has made of a depth unit. -/
structure DepthUnit.Called (d d' : DepthUnit) : Prop where
  kept : d.holdoff.isSome = true → d' = { d with callKept := true }
  handed : d.holdoff = none → d'.holdoff = some 200 ∧ d'.lastHanded = some d.h

theorem called_headCall {w : State} (hrun : w.inRun = true) (hhead : w.straps.head = true) :
    w.depth.Called w.headCall.depth := by
  rw [headCall_depth hrun hhead]
  refine ⟨fun hkept => ?_, fun hoff => ?_⟩
  · have hon : w.depth.holdoff ≠ none := Option.isSome_iff_ne_none.mp hkept
    rw [if_neg hon, if_neg hon, hkept, Bool.or_true]
  · rw [if_pos hoff, if_pos hoff]
    exact ⟨rfl, rfl⟩

theorem DepthUnit.Called.again {d : DepthUnit} {w : State} (h : d.Called w.depth) (hrun : w.inRun = true)
    (hhead : w.straps.head = true) : d.Called w.headCall.depth := by
  have hagain := called_headCall hrun hhead
  refine ⟨fun hkept => ?_, fun hoff => ?_⟩
  · have hw := h.kept hkept
    rw [hagain.kept (by rw [hw]; exact hkept), hw]
  · obtain ⟨hw, hlast⟩ := h.handed hoff
    rw [hagain.kept (by rw [hw]; rfl)]
    exact ⟨hw, hlast⟩

/-! ## A spin whose owner's claim is gone (R42, R118) -/

/-- `t` is `s` with its spin ABANDONED, with the permit as it stands and the HEAD frames called for. -/
structure State.Abandons (s t : State) : Prop where
  spin : t.spin = s.spin.over .abandoned t.permitNow
  depth : s.straps.head = true → s.depth.Called t.depth
  straps : t.straps = s.straps
  listen : t.claims.listen = s.claims.listen
  run : t.inRun = true

/-- What the permit depends on stands while these parts alone change. -/
theorem permitNow_congr {s t : State} (h : LeavesOther [.pumps, .spin, .depth, .link, .alarm, .seq] s t)
    (hstate : t.spin.state = s.spin.state) : t.permitNow = s.permitNow := by
  have hview : t.viewHolds = s.viewHolds :=
    viewHolds_congr (congrArg Retained.claim (h.ret (by decide))) (h.peers (by decide)) h.straps
  unfold State.permitNow State.inRun
  rw [hstate, hview, h.straps, h.claims (by decide), h.mode]

namespace State.Abandons

variable {s t : State}

theorem after {u : State} (h : s.Abandons t) (hu : LeavesOther [.pumps, .link, .alarm, .seq] t u) : s.Abandons u := by
  have hspin := hu.spin (by decide)
  refine ⟨?_, fun hhead => ?_, hu.straps.trans h.straps,
    (congrArg ClaimUnit.listen (hu.claims (by decide))).trans h.listen, (congrArg (· == Mode.run) hu.mode).trans h.run⟩
  · rw [hspin, h.spin, permitNow_congr (hu.mono (by decide)) (congrArg SpinService.state hspin)]
  · rw [hu.depth (by decide)]
    exact h.depth hhead

/-- An evaluation of the permit, whatever stood in it. -/
theorem evaluated (hspin : ∃ b, t.spin = s.spin.over .abandoned b) (hstraps : t.straps = s.straps)
    (hlisten : t.claims.listen = s.claims.listen) (hrun : t.inRun = true) (hd : s.straps.head = true → s.depth.Called t.depth) :
    s.Abandons t.reevalPermit := by
  obtain ⟨b, hb⟩ := hspin
  have hmoves := (moves_reevalPermit t).other
  have heval := reevalPermit_spin t
  have hpermit : t.reevalPermit.permitNow = t.permitNow :=
    permitNow_congr (hmoves.mono (by decide)) (congrArg SpinService.state heval :)
  refine ⟨?_, fun hhead => ?_, hmoves.straps.trans hstraps,
    (congrArg ClaimUnit.listen (hmoves.claims (by decide))).trans hlisten, (congrArg (· == Mode.run) hmoves.mode).trans hrun⟩
  · rw [hpermit, heval, hb]
    rfl
  · rw [reevalPermit_eq]
    split
    · exact hd hhead
    · exact (hd hhead).again (w := { t with spin := { t.spin with permit := t.permitNow } }) hrun
        ((congrArg Straps.head hstraps).trans hhead)

theorem reeval (h : s.Abandons t) : s.Abandons t.reevalPermit :=
  evaluated ⟨_, h.spin⟩ h.straps h.listen h.run h.depth

theorem viewChanged (h : s.Abandons t) (b : Bool) : s.Abandons (t.viewChanged b) := by
  unfold State.viewChanged
  split
  · exact h
  · split
    · exact (h.after ((moves_mapPumps t _).other.mono (by decide))).reeval
    · split
      · exact (h.after ((moves_mapPumps t _).other.mono (by decide))).reeval
      · exact h

/-- A claim taken then holds the permit back (R32, R42). -/
theorem takeTest (h : s.Abandons t) : s.Abandons t.takeTest := by
  by_cases hmay : t.mayTake = true
  · have hidle : t.spin.state ≠ .running := by rw [h.spin]; exact fun hst => nomatch hst
    have hheld : (t.claimIs .pending).announceClaim.viewHolds = true := (viewHolds_iff _).2 (.inl fun hst => nomatch hst)
    have hview := viewChanged_claimed (s := (t.claimIs .pending).announceClaim) h.run hheld
    have htaken : s.Abandons (t.claimIs .pending).announceClaim.pumpsClaimed.reevalPermit :=
      evaluated (t := (t.claimIs .pending).announceClaim.pumpsClaimed) ⟨_, h.spin⟩ h.straps h.listen h.run h.depth
    have htake := takeTest_of_may hmay hidle
    rw [show ({ t with ret := { t.ret with claim := ⟨.connection, .pending⟩ } } : State) = t.claimIs .pending from rfl,
      hview] at htake
    rw [htake]
    exact ⟨htaken.spin, htaken.depth, htaken.straps, htaken.listen, htaken.run⟩
  · rw [takeTest_of_not (Bool.eq_false_iff.mpr hmay)]
    exact h

/-- The service and its permit in the end. -/
theorem spin_eq (h : s.Abandons t) :
    t.spin = s.spin.over .abandoned (s.straps.head && s.claims.listen.isNone && t.claimView.isEmpty) := by
  have hidle : t.spin.state ≠ .running := by rw [h.spin]; exact fun hst => nomatch hst
  rw [h.spin, permitNow_of_idle h.run hidle, h.straps, h.listen, State.viewHolds, Bool.not_not]

/-- The end itself, once the owner's claim is gone. -/
theorem ofEnd (hrun : s.inRun = true) (hspin : s.spin.state = .running) : s.Abandons (s.spinEnd .abandoned) := by
  have hidle : SpinState.abandoned ≠ .running := by decide
  obtain ⟨w, hw⟩ : ∃ w : State, w = { s with
    spin := s.spin.over .abandoned (s.straps.head && s.claims.listen.isNone && !s.viewHolds) } := ⟨_, rfl⟩
  have hpermit : w.permitNow = (s.straps.head && s.claims.listen.isNone && !s.viewHolds) := by
    subst hw
    exact permitNow_of_idle hrun hidle
  have hmoves := (moves_headCall w).other
  have hstands := hmoves.spin (by decide)
  rw [spinEnd_eq hrun hspin hidle, ← hw]
  subst hw
  refine ⟨?_, fun hhead => ?_, hmoves.straps, congrArg ClaimUnit.listen (hmoves.claims (by decide)),
    (congrArg (· == Mode.run) hmoves.mode).trans hrun⟩
  · rw [hstands, permitNow_congr (hmoves.mono (by decide)) (congrArg SpinService.state hstands), hpermit]
  · exact called_headCall (w := { s with spin := s.spin.over .abandoned _ }) hrun hhead

/-- The claim of the spin's owner leaves the view (R37, R118). -/
theorem ofGone {k : Nat} {c : Claim} (hrun : s.inRun = true) (hspin : s.spin.state = .running)
    (howner : s.spin.owner = some k) (hgone : c.phase = .none) (hother : k ≠ s.straps.number)
    (hheld : (s.peerClaimOf k).phase ≠ .none) : s.Abandons (s.setPeerClaim k c) := by
  have hleft : (s.claimSet k c).claimView.any (fun v => some v.station == s.spin.owner) = false := by
    rw [howner, ← Bool.not_eq_true, List.any_eq_true]
    rintro ⟨v, hv, hk⟩
    have hstation : v.station = k := Option.some.inj (beq_iff_eq.mp hk)
    obtain hv | hv := List.mem_append.mp hv
    · split at hv
      · cases hv
      · rw [List.mem_singleton.mp hv] at hstation
        exact hother hstation.symm
    · rw [otherClaims_claimSet_none s k hgone, List.mem_filter, bne_iff_ne] at hv
      exact hv.2 hstation
  have hends : (s.claimSet k c).spinOwnerCheck = (s.claimSet k c).spinEnd .abandoned :=
    if_pos ⟨hspin, by rw [show (s.claimSet k c).spin = s.spin from rfl, hleft]; rfl⟩
  have hset : s.setPeerClaim k c = (((s.claimSet k c).spinOwnerCheck).viewChanged s.viewHolds).takeTest := by
    have hdef : s.setPeerClaim k c = if s.inRun then
        (if c.phase = .none then
          (if (s.peerClaimOf k).phase = .none then (s.claimSet k c).spinOwnerCheck.viewChanged s.viewHolds
          else ((s.claimSet k c).spinOwnerCheck.viewChanged s.viewHolds).takeTest)
        else if c.phase = (s.peerClaimOf k).phase then (s.claimSet k c).spinOwnerCheck.viewChanged s.viewHolds
        else ((s.claimSet k c).spinOwnerCheck.viewChanged s.viewHolds).examineClaim k c.phase) else s.claimSet k c := rfl
    rw [hdef, if_pos hrun, if_pos hgone, if_neg hheld]
  rw [hset, hends]
  have h := ((ofEnd (s := s.claimSet k c) hrun hspin).viewChanged s.viewHolds).takeTest
  exact ⟨h.spin, h.depth, h.straps, h.listen, h.run⟩

end State.Abandons

/-- A claim that leaves the view at the base state `m` of a command, and what the command's end `t` shows of it. -/
theorem gone_ends {s m v : State} {k : Nat} {c : Claim} {p : PeerEntry} (hm : LeavesOther [.link, .peers] s m)
    (hmpeer : ∀ j, m.peer? j = if j = k then some p else s.peer? j) (hrun : s.inRun = true)
    (hspin : s.spin.state = .running) (howner : s.spin.owner = some k) (hgone : c.phase = .none)
    (hother : k ≠ s.straps.number) (hheld : p.claim.phase ≠ .none)
    (hv : LeavesOther [.link] (m.setPeerClaim k c) v) :
    ((s.finish v).peer? k).map (·.claim.phase) = some .none ∧ (∀ j, j ≠ k → (s.finish v).peer? j = s.peer? j) ∧
      (s.finish v).spin = s.spin.over .abandoned
        (s.straps.head && s.claims.listen.isNone && (s.finish v).claimView.isEmpty) ∧
      (s.straps.head = true → s.depth.Called (s.finish v).depth) ∧
      ChangesOnly [.peers, .ret, .claims, .pumps, .spin, .depth, .link, .seq, .alarm] s (s.finish v) := by
  have hentry : m.peer? k = some p := by rw [hmpeer, if_pos rfl]
  have hset := setPeerClaim_rest m k c
  have hmoves := (hm.trans (moves_setPeerClaim m k c).other).trans hv
  have hrest := finish_rest s v hmoves.pending
  have hpeers := (hrest.peers (by decide)).trans ((hv.peers (by decide)).trans (hset.peers (by decide)))
  have hpeer : ∀ j, (s.finish v).peer? j = (m.claimSet k c).peer? j := fun j => congrArg (List.find? _) hpeers
  have hmspin := hm.spin (by decide)
  have hclaims := hm.claims (by decide)
  have habandons : m.Abandons (s.finish v) := by
    have hset := State.Abandons.ofGone (s := m) (k := k) (c := c)
      ((congrArg (· == Mode.run) hm.mode).trans hrun) (by rw [hmspin, hspin]) (by rw [hmspin, howner]) hgone
      (by rw [hm.straps]; exact hother) (by rw [peerClaimOf_of_some hentry]; exact hheld)
    exact (hset.after (hv.mono (by decide))).after (hrest.mono (by decide))
  have hover := habandons.spin_eq
  rw [hmspin, hm.straps, hclaims] at hover
  obtain ⟨hothers, himages, houts⟩ := finish_changes s v hmoves
  refine ⟨?_, fun j hj => ?_, hover, fun hhead => ?_, hothers.mono (by decide), himages, houts⟩
  · rw [hpeer, claimSet_peer?, if_pos rfl, hentry, Option.map_some, Option.map_some, hgone]
  · rw [hpeer, claimSet_peer?, if_neg hj, hmpeer, if_neg hj]
  · have hcalled := habandons.depth (by rw [hm.straps]; exact hhead)
    rwa [hm.depth (by decide)] at hcalled

/-! ## The own service's reports (R116) -/

theorem spinReport_of_none {s : State} (h : ∀ k n, s.seq.spin ≠ .accepted k n) (station : Nat) (st : SpinState)
    (number : Nat) : s.spinReport station st number = s := by
  unfold State.spinReport
  split
  · rename_i hspin
    exact absurd hspin (h _ _)
  · rfl

/-- A failed spin is a FAULT of the step that waits for it (R116). -/
theorem spinReport_failed {s : State} {u : UnitRec} {kind : SpinKind} {station number : Nat} (hunit : s.ret.unit = some u)
    (hkind : u.kindOfStep = .spin kind) (hspin : s.seq.spin = .accepted station number) (hstate : s.seq.state = .running) :
    s.spinReport station .failed number = s.seqFault .spin := by
  unfold State.spinReport
  rw [hunit, hspin]
  dsimp only
  rw [if_pos ⟨rfl, rfl⟩, hkind]
  exact if_pos hstate

/-- A spin that runs is over in a state. -/
theorem spinOver_eq {s : State} {st : SpinState} (hrun : s.inRun = true) (hspin : s.spin.state = .running)
    (hst : st ≠ .running) :
    s.spinOver st = ({ s with
      spin := s.spin.over st (s.straps.head && s.claims.listen.isNone && !s.viewHolds) } : State).headCall.ownSpinReport := by
  unfold State.spinOver
  rw [if_pos hspin, spinEnd_eq hrun hspin hst]

/-- The station ends its spin where one runs and the cause of its end is there. -/
theorem spinOver_if {s : State} {st : SpinState} {b : Bool} {P : Prop} [Decidable P]
    (h : P ↔ s.spin.state = .running ∧ b = true) : (if b then s.spinOver st else s) = if P then s.spinOver st else s := by
  by_cases hspin : s.spin.state = .running
  · exact ite_congr (propext ⟨fun hb => h.2 ⟨hspin, hb⟩, fun hp => (h.1 hp).2⟩) (fun _ => rfl) fun _ => rfl
  · have hstays : s.spinOver st = s := if_neg hspin
    rw [hstays, ite_self, ite_self]

/-! ## The tests of SPIN (R117) -/

section

variable {rq : ReqHead} {kind : Byte} {s : State}

theorem serveSpin_range (h : SpinKind.ofCode kind.toNat = none) :
    serveSpin (requestOf rq 15 [kind]) s = s.refuse .range := by
  unfold serveSpin State.spinService
  rw [show (requestOf rq 15 [kind]).arg 0 = kind.toNat from rfl, h]
  rfl

variable {k : SpinKind}

/-- The tests that remain for a kind of spin. -/
theorem serveSpin_of_kind (h : SpinKind.ofCode kind.toNat = some k) :
    serveSpin (requestOf rq 15 [kind]) s =
      if s.claims.listen.isSome || s.spinClaimed rq.source then s.refuse .claimed
      else if s.spin.state = .running then s.refuse .busy
      else ⟨s.spinBegin rq.source k, .accepted, [byteOf (s.spinBegin rq.source k).spin.number]⟩ := by
  unfold serveSpin State.spinService
  rw [show (requestOf rq 15 [kind]).arg 0 = kind.toNat from rfl, h]
  dsimp only
  rw [show (requestOf rq 15 [kind]).source = rq.source from rfl]
  split
  · rfl
  · split
    · rfl
    · rfl

theorem spinClaimed_iff (requester : Nat) :
    s.spinClaimed requester = true ↔
      (∀ v ∈ s.claimView, ¬(v.station = requester ∧ v.kind = .connection ∧ v.phase = .active)) ∨
        ∃ v ∈ s.claimView, v.station ≠ requester ∧ v.phase = .active := by
  simp [State.spinClaimed, and_assoc]

/-- A spin that begins (R118). -/
theorem spinBegin_eq (hrun : s.inRun = true) (hhead : s.straps.head = true) (requester : Nat) :
    s.spinBegin requester k = ({ s with
      spin := ⟨.running, (s.spin.number + 1) % 256, some requester, some k, some 15000, decide (k = .make ∨ k = .latch),
        !decide (k = .make ∨ k = .latch), true⟩ } : State).headCall := by
  have hpermit : ∀ sp : SpinService, sp.state = .running → ({ s with spin := sp } : State).permitNow = true := fun sp hsp => by
    show (s.inRun && s.straps.head && (_ || sp.state == .running)) = true
    rw [hrun, hhead, hsp, beq_self_eq_true, Bool.or_true]
    rfl
  have hmakes : k.makes = decide (k = .make ∨ k = .latch) := by cases k <;> rfl
  unfold State.spinBegin
  dsimp only
  rw [hpermit _ rfl, hmakes]

end

end Sys2Proof.Machine

namespace Sys2Proof

open Machine Host

/-- Settles O45: the tests of SPIN, a claim that leaves the view under a spin, and the two inputs that end one. -/
theorem spinRunsAndEnds : Obligations.SpinRunsAndEnds := by
  unfold Obligations.SpinRunsAndEnds
  refine ⟨fun rq kind s hmode hhead hs hserves => ?_, fun k p c s hmode hs hknows hheld hspin howner hcause => ?_,
    fun c s hmode hs hc => ?_⟩
  · intro refused claimed
    have hrun := inRun_of_mode hmode
    have answered := fun {w data result} => exec_served (g := fun s => ⟨s.straps.head, 1, false⟩) (f := serveSpin)
      (i := .spin rq kind) (k := .exchange) (w := w) (result := result) (data := data) rfl hserves hmode hhead (by simp)
    have refuses : ∀ {code}, serveSpin (requestOf rq 15 [kind]) s.taken = s.taken.refuse code → refused code :=
      fun {code} hr => taken_answered hs (answered hr)
    have hclaimed : (s.taken.claims.listen.isSome || s.taken.spinClaimed rq.source) = true ↔ claimed := by
      rw [Bool.or_eq_true, spinClaimed_iff]
      rfl
    have hcode : kind.toNat ≤ 3 → ∃ k, SpinKind.ofCode kind.toNat = some k := fun h => by
      interval_cases kind.toNat <;> exact ⟨_, rfl⟩
    refine ⟨fun hrange => refuses (serveSpin_range ?_), fun hrange hheld => ?_, fun hrange hfree hspin => ?_,
      fun k hk hfree hspin => ?_⟩
    · obtain ⟨n, hn⟩ := Nat.exists_eq_add_of_lt hrange
      rw [hn, show 3 + n + 1 = n + 4 by omega]
      rfl
    · obtain ⟨k, hk⟩ := hcode hrange
      exact refuses ((serveSpin_of_kind hk).trans (if_pos (hclaimed.2 hheld)))
    · obtain ⟨k, hk⟩ := hcode hrange
      exact refuses ((serveSpin_of_kind hk).trans ((if_neg fun h => hfree (hclaimed.1 h)).trans (if_pos hspin)))
    · intro n make w
      have hbegun : s.taken.spinBegin rq.source k = w.headCall := spinBegin_eq (s := s.taken) hrun hhead rq.source
      have hmoves := moves_headCall w
      have hserved := (serveSpin_of_kind (rq := rq) (s := s.taken) hk).trans
        ((if_neg fun h => hfree (hclaimed.1 h)).trans (if_neg hspin))
      rw [hbegun, hmoves.other.spin (by decide)] at hserved
      exact answered_settles (w := w.headCall) hmoves.other.pending (answered hserved)
  · have hrun := inRun_of_mode hmode
    have hother : k ≠ s.straps.number := by
      obtain ⟨bytes, f, kind, -, hears, rfl, -⟩ | ⟨rq, station, -, -, -, -, -, hother, -⟩ := hcause
      · exact hears.other
      · exact hother
    have hends : ∃ t, exec c s = .next t ∧ (t.peer? k).map (·.claim.phase) = some .none ∧
        (∀ j, j ≠ k → t.peer? j = s.peer? j) ∧
        t.spin = s.spin.over .abandoned (s.straps.head && s.claims.listen.isNone && t.claimView.isEmpty) ∧
        (s.straps.head = true → s.depth.Called t.depth) ∧
        ChangesOnly [.peers, .ret, .claims, .pumps, .spin, .depth, .link, .seq, .alarm] s t := by
      obtain ⟨bytes, f, kind, rfl, hears, rfl, hbody, hfresh⟩ |
        ⟨rq, station, rfl, hserves, rfl, hlow, hhigh, -, hstale⟩ := hcause
      · refine ⟨_, exec_claimHeard hears hbody hknows.1 hfresh rfl, gone_ends (p := p.refresh f.seq (3 * s.statusPeriod))
          ((leavesOther_heardFrom s f).mono (by decide)) (fun j => ?_) hrun hspin howner rfl hother hheld (.refl _ _)⟩
        rw [heardFrom_peer?]
        by_cases hj : j = f.source
        · rw [if_pos hj, if_pos hj, hj, hknows.1]
          rfl
        · rw [if_neg hj, if_neg hj]
      · have hentry : s.taken.peer? station.toNat = some p := hknows.1
        have hserved : serveClaimClear (requestOf rq 6 [station]) s.taken =
            ⟨s.taken.setPeerClaim station.toNat .absent, .done, []⟩ := by
          rw [serveClaimClear_of_station (by omega), if_neg (show ¬station.toNat = s.taken.straps.number from hother),
            peerClaimOf_of_some hentry, if_neg hheld, hentry, Option.any_some, hstale]
          rfl
        refine ⟨_, exec_served (g := fun _ => ⟨true, 1, false⟩) (f := serveClaimClear) (i := .claimClear rq station)
          rfl hserves hmode rfl (by simp) hserved, gone_ends (p := p) (m := s.taken)
          ((moves_link s s.link.popIntake (by simp)).other.mono (by decide)) (fun j => ?_) hrun hspin howner rfl hother
          hheld (moves_answer _ .exchange (requestOf rq 0 []) .done []).other⟩
        by_cases hj : j = station.toNat
        · rw [if_pos hj, hj, hentry]
        · rw [if_neg hj]
          rfl
    obtain ⟨t, hexec, hpeer, hpeers, hover, hcalled, hchanges⟩ := hends
    exact ⟨t, hexec, hpeer, hpeers, hover, fun hhead => ⟨(hcalled hhead).kept, (hcalled hhead).handed⟩, hchanges⟩
  · intro done w ended ends
    have hrun := inRun_of_mode hmode
    have hw : w.AlarmsSettled := by
      obtain rfl | rfl := hc
      · exact pins_settled hs _
      · exact hs
    have hpending : w.pending = s.pending := by obtain rfl | rfl := hc <;> rfl
    have hexec : ∀ {v : State}, (if ends then w.spinOver (if done then .done else .failed) else w) = v →
        exec c s = .next (s.finish v) := by
      obtain rfl | rfl := hc
      · intro v hv
        refine exec_pins (p := { s.pins with spinDone := true }) hmode rfl (Eq.trans (spinOver_if ?_) hv)
        show ends ↔ s.spin.state = .running ∧ (true && !s.pins.spinDone) = true
        rw [Bool.true_and, Bool.not_eq_true']
        exact Iff.rfl
      · intro v hv
        exact congrArg Outcome.next (inRunDo_eq hmode ((spinOver_if Iff.rfl).trans hv))
    have hspin : w.spin = s.spin := by obtain rfl | rfl := hc <;> rfl
    have hover : ends → w.spinOver (if done then .done else .failed) = ended.headCall.ownSpinReport := fun h => by
      obtain rfl | rfl := hc
      · exact spinOver_eq (s := { s with pins := { s.pins with spinDone := true } }) hrun h.1 (by decide)
      · exact spinOver_eq hrun h.1 (by decide)
    have hmoves : LeavesOther [.pins, .spin, .depth, .link] s ended.headCall := by
      have hended : LeavesOther [.pins, .spin] s ended := by
        obtain rfl | rfl := hc
        · exact ((moves_pins s _).other.trans (moves_spin _ _).other).mono (by decide)
        · exact (moves_spin s _).other.mono (by decide)
      exact hended.trans (moves_headCall ended).other
    refine ⟨fun hnot => ⟨_, hexec (if_neg hnot), finish_leaves s w hpending hw⟩, fun h hnone => ?_,
      fun h hdone hspin hstate hunit => ?_, ?_⟩
    · have hreport : ended.headCall.ownSpinReport = ended.headCall :=
        spinReport_of_none (s := ended.headCall) (by rw [hmoves.seq (by decide)]; exact hnone) _ _ _
      exact ⟨_, hexec ((if_pos h).trans ((hover h).trans hreport)), finish_settles s _ hmoves.pending⟩
    · obtain ⟨u, k, hu, hk⟩ := hunit
      have hstands := hmoves.seq (by decide)
      have hdepth := (moves_headCall ended).other
      have hservice := hdepth.spin (by decide)
      have hstation : ended.headCall.straps = s.straps := hmoves.straps
      have hfails : ended.headCall.ownSpinReport = ended.headCall.seqFault .spin := by
        unfold State.ownSpinReport
        rw [hservice, hstation, show ended.spin.state = (if done then .done else .failed) from rfl, hdone]
        refine spinReport_failed (u := u) (kind := k) ?_ hk ?_ ?_
        · rw [hmoves.ret (by decide), hu]
        · rw [hstands, hspin]
        · rw [hstands, hstate]
      have hall := hmoves.trans (moves_seqFault ended.headCall .spin).other
      have hrest := finish_rest s (ended.headCall.seqFault .spin) hall.pending
      obtain ⟨hfault, htimer, -⟩ := seqStop_seq ended.headCall (.fault .spin)
      obtain ⟨hother, himages, houts⟩ := finish_changes s _ hall
      refine ⟨_, hexec ((if_pos h).trans ((hover h).trans hfails)), ?_, ?_, ?_, hother.mono (by decide), himages, houts⟩
      · rw [hrest.seq (by decide)]
        exact hfault
      · rw [hrest.seq (by decide)]
        exact htimer
      · rw [hrest.spin (by decide), (moves_seqFault ended.headCall .spin).other.spin (by decide), hservice]
    · exact ⟨_, exec_pins (p := { s.pins with spinDone := false }) hmode rfl (if_neg Bool.false_ne_true),
        finish_leaves s _ rfl (pins_settled hs _)⟩

end Sys2Proof

/-! What goes on beside EXCHANGE (O25, O43, O57): frames of URGENT and RIG leave the request table and the places of
EXCHANGE, and ALARM frames the ROD_EVENT frames that wait. -/

namespace Sys2Proof.Machine

open Host

/-- The request table, LISTEN_ONLY and the places of EXCHANGE stand. -/
structure Link.Aside (l l' : Link) : Prop where
  table : l'.outstanding = l.outstanding
  heard : l'.listenOnly = l.listenOnly
  places : l'.placed .exchange = l.placed .exchange

section

variable {a b c : Link}

theorem Link.Aside.refl (l : Link) : l.Aside l := ⟨rfl, rfl, rfl⟩

theorem Link.Aside.last (k : b.Aside c) (h : a.Aside b) : a.Aside c :=
  ⟨k.table.trans h.table, k.heard.trans h.heard, k.places.trans h.places⟩

theorem Link.Aside.count (h : a.Aside b) : b.count .exchange = a.count .exchange := by
  rw [count_eq_placed, count_eq_placed, h.places]

variable (e : LinkEnv) (f : TxFrame) (l : Link)

theorem aside_settle : l.Aside (l.settle e) := ⟨settle_outstanding e l, settle_listenOnly e l, placed_settle e l _⟩

theorem aside_record (kind : FaultKind) (peer : Option Nat) (frame : Option FrameKind) (seqTag : Option Nat) :
    l.Aside (l.record e kind peer frame seqTag) := by
  rw [record_eq]
  exact ⟨rfl, rfl, rfl⟩

theorem aside_handUrgent : l.Aside (l.handUrgent e f) := by
  unfold Link.handUrgent
  split
  · exact ⟨rfl, rfl, rfl⟩
  · split
    · exact ⟨rfl, rfl, rfl⟩
    · split
      · exact (aside_settle e _).last ⟨rfl, rfl, rfl⟩
      · split
        · exact ⟨rfl, rfl, rfl⟩
        · exact aside_record e l _ _ _ _

theorem aside_handRig : l.Aside (l.handRig e f) := by
  unfold Link.handRig
  split
  · exact ⟨rfl, rfl, rfl⟩
  · split
    · exact ⟨rfl, rfl, rfl⟩
    · split
      · exact (aside_settle e _).last ⟨rfl, rfl, rfl⟩
      · split
        · exact (aside_settle e _).last ⟨rfl, rfl, rfl⟩
        · split
          · exact ⟨rfl, rfl, rfl⟩
          · exact .refl l

theorem aside_handOver {q : QueueId} (h : f.urgent = true ∨ q = .rig) : l.Aside (l.handOver e q f) := by
  unfold Link.handOver
  split
  · exact .refl l
  · split
    · exact aside_handUrgent e f l
    · next hroutine =>
      obtain rfl := h.resolve_left hroutine
      exact aside_handRig e f l

end

/-! ## Alarms and depth -/

/-- What an ALARM frame leaves of a link unit. -/
structure Alarming (R : Link → Link → Prop) : Prop where
  refl : ∀ l, R l l
  last : ∀ {a b c}, R b c → R a b → R a c
  alarm : ∀ e l f, f.kind = .alarm → f.urgent = true → R l (l.handOver e .urgent f)

theorem aside_alarming : Alarming Link.Aside := ⟨.refl, .last, fun e l f _ hf => aside_handOver e f l (.inl hf)⟩

/-- No ROD_EVENT frame joins those that wait, and none of them goes. -/
theorem wait_alarming : Alarming fun l l' => l'.rodWait = l.rodWait := by
  refine ⟨fun _ => rfl, fun k h => k.trans h, fun e l f hkind hf => ?_⟩
  have hevent : f.kind ≠ .rodEvent := by rw [hkind]; decide
  unfold Link.handOver
  rw [if_pos hf]
  split
  · rfl
  · unfold Link.handUrgent
    rw [if_neg fun h => hevent h.1, if_neg hevent]
    split
    · rfl
    · split
      · exact settle_rodWait e _
      · rw [record_eq]

section

variable {R : Link → Link → Prop} (hR : Alarming R)

include hR

theorem Alarming.report (s : State) (c : AlarmCond) (holds : Bool) : R s.link (s.report c holds).link := by
  have hhand : ∀ t : State, R t.link (t.sendAlarm c holds).link := fun t => hR.alarm t.linkEnv t.link _ rfl rfl
  unfold State.report
  split
  · exact hR.refl _
  · split
    · exact hhand (s.flagged c holds)
    · exact hR.refl _

theorem Alarming.alarmsFollow (s : State) : R s.link s.alarmsFollow.link := by
  have hfold : ∀ (l : List AlarmCond) (s : State), R s.link (l.foldl State.follow s).link := by
    intro l
    induction l with
    | nil => exact fun s => hR.refl _
    | cons c l ih => exact fun s => hR.last (ih (s.follow c)) (hR.report s c _)
  unfold State.alarmsFollow
  split
  · exact hR.last (hR.report _ _ _) (hfold _ s)
  · exact hR.refl _

theorem Alarming.closeOne (s : State) (iv : Interval) : R s.link (s.closeOne iv).link :=
  hR.last (hR.report (s.closeRecord iv) .sampleUntracked _) (by
    rw [(moves_closeRecord s iv).other.link (by decide)]
    exact hR.refl _)

theorem Alarming.closeRun (op : Interval) (n : Nat) : ∀ (s : State) (k : Nat), R s.link (s.closeRun op n k).link := by
  induction n with
  | zero => exact fun s _ => hR.refl _
  | succ n ih => exact fun s k => hR.last (ih _ (k + 1)) (hR.closeOne s _)

theorem Alarming.holeRose (s : State) : R s.link s.holeRose.link := by
  unfold State.holeRose
  dsimp only
  split
  · exact hR.refl _
  · next op _ =>
    split
    · have hrun := fun n k => hR.closeRun op n { s with ret := { s.ret with intervals := s.ret.intervals.dropLast } } k
      split
      · exact hrun _ _
      · exact hrun _ _
    · exact hR.refl _

theorem Alarming.recomputeDepth (s : State) : R s.link s.recomputeDepth.link := by
  have hrose := hR.holeRose (s.takeDepth s.depthNow)
  have hopen : ∀ (t : State) f, (t.mapOpen f).link = t.link := fun t f => (moves_mapOpen t f).other.link (by decide)
  by_cases hrun : s.inRun = true
  · rw [recomputeDepth_eq hrun]
    dsimp only
    rw [ite_same State.link fun _ => hopen _ _]
    exact Walk.ite (R := fun s t => R s.link t.link) (fun _ => hrose) fun _ => hR.refl _
  · rw [show s.recomputeDepth = s from if_neg hrun]
    exact hR.refl _

theorem Alarming.depthFollows (s before : State) : R s.link (s.depthFollows before).link := by
  unfold State.depthFollows
  split
  · exact hR.refl _
  · exact hR.recomputeDepth s

end

end Sys2Proof.Machine

/-! ROD_ABORT and ROD_RESUME (O43): the step in hand entered anew, kind by kind. -/

namespace Sys2Proof.Machine

open Host

/-! ## The entry of a step (R108 to R116) -/

/-- A step becomes the step in hand of a unit, at its first phase. -/
def State.freshStep (s : State) (v : UnitRec) : State :=
  { s with
    ret := { s.ret with unit := some v }
    seq := { s.seq with state := .running, phase := .first, timer := none, spin := .none } }

/-- What each kind of step does on entry. -/
def State.enterKind (x : State) (v : UnitRec) : StepKind → State
  | .claim => x
  | .waitPumps => x.alignOutputs.startTimer 20000
  | .waitPosition => if v.kind = .makeUp ∧ v.step = 7 then x.enterSelect else x.startTimer 60000
  | .clamp => (x.driveClamp v true).startTimer 5000
  | .release =>
    (if v.kind = .makeUp ∧ v.step = 10 then (x.driveClamp v false).loaderBack else x.driveClamp v false).startTimer 5000
  | .fetch => x.indexOn.startTimer 15000
  | .spin kind => x.enterSpin kind
  | .grip => (x.driveGrip true).startTimer 5000
  | .store => x.enterStore

theorem enterStep_eq {s : State} {u : UnitRec} (hu : s.ret.unit = some u) (n : Nat) :
    s.enterStep n = (s.freshStep { u with step := n }).enterKind { u with step := n }
      ({ u with step := n } : UnitRec).kindOfStep := by
  have hfresh : s.stepFresh n = s.freshStep { u with step := n } := by
    unfold State.stepFresh State.mapUnit
    rw [hu]
    rfl
  unfold State.enterStep
  rw [hfresh]
  show (match ({ u with step := n } : UnitRec).kindOfStep with
    | .claim => _
    | .waitPumps => _
    | .waitPosition => _
    | .clamp => _
    | .release => _
    | .fetch => _
    | .spin kind => _
    | .grip => _
    | .store => _) = _
  cases ({ u with step := n } : UnitRec).kindOfStep <;> rfl

theorem enterStep_inHand {s : State} {u : UnitRec} (hu : s.ret.unit = some u) :
    s.enterStep u.step = (s.freshStep u).enterKind u u.kindOfStep := enterStep_eq hu u.step

/-- Whether a step of a kind has ended at its first phase. -/
def State.firstReady (s : State) (u : UnitRec) : StepKind → Bool
  | .claim => false
  | .waitPumps => s.pumpsDown
  | .waitPosition => s.headNear (s.targetHeight u)
  | .clamp => s.pins.clampClosed
  | .release => s.pins.clampOpen
  | .fetch => u.slot == some s.pins.slotCode
  | .store => u.slot == some s.pins.slotCode
  | .grip => s.pins.gripped
  | .spin _ => false

theorem phaseReady_first {s : State} {u : UnitRec} (hu : s.ret.unit = some u) (hphase : s.seq.phase = .first) :
    s.phaseReady = s.firstReady u u.kindOfStep := by
  unfold State.phaseReady
  rw [hu]
  dsimp only
  rw [hphase]
  cases u.kindOfStep <;> rfl

/-! ## The resumption (R121) -/

theorem report_eq (s : State) (c : AlarmCond) (holds : Bool) :
    s.report c holds = { s with link := (s.report c holds).link, alarm := (s.report c holds).alarm } := by
  unfold State.report
  split
  · rfl
  · split
    · rfl
    · rfl

/-- The station whose step in hand is entered anew, once SEQUENCE_HOLD is cleared (R121). -/
def State.anew (s : State) : State :=
  ({ s with seq := { s.seq with aborted := s.seq.aborted && s.seq.state != SeqState.hold .aborted } } : State).report
    .sequenceHold false

theorem resume_eq (s : State) (u : UnitRec) : s.resume u = (s.anew.enterStep u.step).seqRun := rfl

/-- The same with the link unit and the flags as they stand then. -/
def State.anewOn (s : State) (l : Link) (a : AlarmUnit) : State :=
  { s with
    seq := { s.seq with aborted := s.seq.aborted && decide (s.seq.state ≠ SeqState.hold .aborted) }
    link := l
    alarm := a }

theorem anew_eq (s : State) : s.anew = s.anewOn s.anew.link s.anew.alarm := by
  have hbne : (s.seq.state != SeqState.hold .aborted) = decide (s.seq.state ≠ SeqState.hold .aborted) := by
    rw [Bool.eq_iff_iff, bne_iff_ne, decide_eq_true_iff]
  have h := report_eq { s with seq := { s.seq with
    aborted := s.seq.aborted && s.seq.state != SeqState.hold .aborted } } .sequenceHold false
  refine h.trans ?_
  rw [hbne]
  unfold State.anew
  rw [hbne]
  rfl

section

variable {rq : ReqHead} {s : State} {u : UnitRec}

/-- The station of the test of R121. -/
def State.Resumable (s : State) : Prop :=
  (∃ c, s.seq.state = .hold c ∨ s.seq.state = .fault c) ∧ s.link.listenOnly = false ∧ s.ret.claim.phase = .active

theorem resumable_iff : (!s.seq.state.stopped || s.link.listenOnly || !s.claimActive) = false ↔ s.Resumable := by
  rw [Bool.or_eq_false_iff, Bool.or_eq_false_iff, Bool.not_eq_false', Bool.not_eq_false', stopped_iff, and_assoc]
  exact and_congr_right fun _ => and_congr_right fun _ => beq_iff_eq

theorem serveRodResume_barred (h : ¬s.Resumable) : serveRodResume (requestOf rq 13 []) s = s.refuse .state :=
  if_pos (Bool.not_eq_false _ ▸ mt resumable_iff.mp h)

theorem serveRodResume_claimed (h : s.Resumable) (hothers : s.otherClaims ≠ []) :
    serveRodResume (requestOf rq 13 []) s = s.refuse .claimed := by
  unfold serveRodResume
  rw [resumable_iff.mpr h, if_neg Bool.false_ne_true]
  exact if_pos (by simpa using hothers)

theorem serveRodResume_over (h : s.Resumable) (hothers : s.otherClaims = []) (hu : s.ret.unit = none) :
    serveRodResume (requestOf rq 13 []) s = s.unitOver.done := by
  unfold serveRodResume
  rw [resumable_iff.mpr h, if_neg Bool.false_ne_true, hothers, hu]
  rfl

theorem serveRodResume_goes (h : s.Resumable) (hothers : s.otherClaims = []) (hu : s.ret.unit = some u) :
    serveRodResume (requestOf rq 13 []) s = (s.resume u).done := by
  unfold serveRodResume
  rw [resumable_iff.mpr h, if_neg Bool.false_ne_true, hothers, hu]
  rfl

end

/-! ### The kinds of step entered -/

section

variable (x : State)

theorem enterSelect_full (h : 128 ≤ x.ret.string.length) : x.enterSelect = x.seqFault .stringFull := if_pos h

theorem enterSelect_none (h : x.ret.string.length < 128) (hnone : x.findSlot x.slotUsable = none) :
    x.enterSelect = x.seqFault .noRod := by
  unfold State.enterSelect
  rw [if_neg (Nat.not_le.mpr h), hnone]

theorem enterSelect_some {n : Nat} (h : x.ret.string.length < 128) (hslot : x.findSlot x.slotUsable = some n) :
    x.enterSelect =
      (x.mapUnit fun u => { u with rod := (rodInSlot x.ret.rods n).map (·.id), slot := some n }).startTimer 60000 := by
  unfold State.enterSelect
  rw [if_neg (Nat.not_le.mpr h), hslot]

theorem enterStore_none (hnone : x.findSlot x.slotEmpty = none) : x.enterStore = x.seqFault .rackFull := by
  unfold State.enterStore
  rw [hnone]

theorem enterStore_some {n : Nat} (hslot : x.findSlot x.slotEmpty = some n) :
    x.enterStore = ((x.mapUnit fun u => { u with slot := some n }).startTimer 15000).indexOn := by
  unfold State.enterStore
  rw [hslot]
  rfl

variable {x} {kind : SpinKind}

theorem enterSpin_none (h : x.depth.headSource = none) : x.enterSpin kind = x.seqFault .spin := by
  unfold State.enterSpin
  rw [h]

/-- The sequencer in a SPIN step with its request. -/
def State.spinAsked (x : State) (r : SpinRequest) : State := { x with seq := { x.seq with timer := some 20000, spin := r } }

theorem enterSpin_waits {dest : Nat} (h : x.depth.headSource = some dest) (hother : dest ≠ x.straps.number)
    (hroom : x.link.canIssue = false) : x.enterSpin kind = x.spinAsked (.waiting dest kind) := by
  unfold State.enterSpin
  rw [h]
  dsimp only
  rw [if_neg (show ¬dest = (x.startTimer 20000).straps.number from hother),
    show (x.startTimer 20000).link.canIssue = false from hroom, if_neg Bool.false_ne_true]
  rfl

theorem enterSpin_asks {dest : Nat} (h : x.depth.headSource = some dest) (hother : dest ≠ x.straps.number)
    (hroom : x.link.canIssue = true) :
    x.enterSpin kind = { x.spinAsked (.sent dest x.link.nextTag) with
      link := x.link.issue x.linkEnv x.clockMs dest 15 [byteOf kind.code] } := by
  unfold State.enterSpin
  rw [h]
  dsimp only
  rw [if_neg (show ¬dest = (x.startTimer 20000).straps.number from hother),
    show (x.startTimer 20000).link.canIssue = true from hroom, if_pos rfl]
  rfl

/-- The tests of the service for a kind of spin (R117). -/
theorem spinService_eq (requester : Nat) :
    x.spinService requester kind.code =
      if x.claims.listen.isSome || x.spinClaimed requester then (x, .claimed, [])
      else if x.spin.state = .running then (x, .busy, [])
      else (x.spinBegin requester kind, .accepted, [byteOf (x.spinBegin requester kind).spin.number]) := by
  have hkind : SpinKind.ofCode kind.code = some kind := by cases kind <;> rfl
  unfold State.spinService
  rw [hkind]

/-- The own service refuses. -/
theorem enterSpin_refused (h : x.depth.headSource = some x.straps.number)
    (hrefused : (x.claims.listen.isSome || x.spinClaimed x.straps.number) = true ∨ x.spin.state = .running) :
    x.enterSpin kind = (x.startTimer 20000).seqFault .spin := by
  have hservice : (x.startTimer 20000).spinService x.straps.number kind.code = if x.claims.listen.isSome ||
      x.spinClaimed x.straps.number then (x.startTimer 20000, .claimed, []) else if x.spin.state = .running then
      (x.startTimer 20000, .busy, []) else _ := spinService_eq (x := x.startTimer 20000) x.straps.number
  unfold State.enterSpin
  rw [h]
  dsimp only
  rw [if_pos (show x.straps.number = (x.startTimer 20000).straps.number from rfl)]
  by_cases hclaimed : (x.claims.listen.isSome || x.spinClaimed x.straps.number) = true
  · rw [hservice, if_pos hclaimed]
  · rw [hservice, if_neg hclaimed, if_pos (hrefused.resolve_left hclaimed)]

/-- The own service accepts. -/
theorem enterSpin_own (h : x.depth.headSource = some x.straps.number)
    (hfree : ¬(x.claims.listen.isSome || x.spinClaimed x.straps.number) = true) (hspin : x.spin.state ≠ .running) :
    x.enterSpin kind =
      let begun := (x.startTimer 20000).spinBegin x.straps.number kind
      { begun with seq := { begun.seq with spin := .accepted x.straps.number begun.spin.number } } := by
  have hservice : (x.startTimer 20000).spinService x.straps.number kind.code = if x.claims.listen.isSome ||
      x.spinClaimed x.straps.number then (x.startTimer 20000, .claimed, []) else if x.spin.state = .running then
      (x.startTimer 20000, .busy, []) else _ := spinService_eq (x := x.startTimer 20000) x.straps.number
  rw [if_neg hfree, if_neg hspin] at hservice
  unfold State.enterSpin
  rw [h]
  dsimp only
  rw [if_pos (show x.straps.number = (x.startTimer 20000).straps.number from rfl), hservice]

end

/-- RELEASE entered: the last one of a make-up also opens the grip and retracts the loader (R112). -/
theorem enterKind_release (x : State) (u : UnitRec) {last : Bool} (h : last = decide ((u.kind, u.step) = (OpKind.makeUp, 10))) :
    (x.freshStep u).enterKind u .release = { x with
      ret := { x.ret with
        unit := some { u with moved := true }
        clampOut := false
        gripOut := x.ret.gripOut && !last }
      seq := { x.seq with
        state := .running, phase := .first, timer := some 5000, spin := .none, retract := x.seq.retract || last } } := by
  by_cases hlast : u.kind = .makeUp ∧ u.step = 10
  · have hback : (x.freshStep u).enterKind u .release = ((x.freshStep u).driveClamp u false).loaderBack.startTimer 5000 :=
      congrArg (State.startTimer · 5000) (if_pos hlast)
    rw [hback, h, decide_eq_true (Prod.ext hlast.1 hlast.2), Bool.or_true, Bool.not_true, Bool.and_false]
    unfold State.freshStep State.driveClamp State.loaderBack State.driveGrip State.retractOn State.startTimer
    rfl
  · have hstays : (x.freshStep u).enterKind u .release = ((x.freshStep u).driveClamp u false).startTimer 5000 :=
      congrArg (State.startTimer · 5000) (if_neg hlast)
    rw [hstays, h, decide_eq_false fun k => hlast (Prod.mk.inj k), Bool.or_false, Bool.not_false, Bool.and_true]
    unfold State.freshStep State.driveClamp State.startTimer
    rfl

/-- WAIT_PUMPS entered: the maintained outputs align with the records (R108). -/
theorem enterKind_waitPumps (x : State) (u : UnitRec) :
    (x.freshStep u).enterKind u .waitPumps = { x with
      ret := { x.ret with
        unit := some u
        clampOut := decide (x.ret.hold.hold = .clamped)
        gripOut := x.ret.rods.any fun r => r.state == .loader }
      seq := { x.seq with state := .running, phase := .first, timer := some 20000, spin := .none } } := by
  have hclamp : (x.ret.hold.hold == Hold.clamped) = decide (x.ret.hold.hold = .clamped) := by
    rw [Bool.eq_iff_iff, beq_iff_eq, decide_eq_true_iff]
  rw [← hclamp, ← List.isSome_find?]
  rfl

theorem canIssue_iff (l : Link) : l.canIssue = true ↔ l.outstanding.length < 4 ∧ l.count .exchange < 8 := by
  refine ⟨fun h => ?_, fun h => canIssue_of_room h.1 h.2⟩
  obtain ⟨hentry, hroom⟩ := (Bool.and_eq_true _ _).mp h
  exact ⟨of_decide_eq_true hentry, Nat.lt_of_le_of_lt (Nat.le_add_right _ _) (of_decide_eq_true hroom)⟩

/-- A spin of the own service that begins (R118): the permit is on where the station has the role. -/
theorem spinBegin_permit {x : State} {kind : SpinKind} (hrun : x.inRun = true) (requester : Nat) :
    x.spinBegin requester kind = ({ x with
      spin := ⟨.running, (x.spin.number + 1) % 256, some requester, some kind, some 15000,
        decide (kind = .make ∨ kind = .latch), !decide (kind = .make ∨ kind = .latch), x.straps.head⟩ } : State).headCall := by
  have hpermit : ∀ sp : SpinService, sp.state = .running → ({ x with spin := sp } : State).permitNow = x.straps.head :=
    fun sp hsp => by
      show (x.inRun && x.straps.head && (_ || sp.state == .running)) = x.straps.head
      rw [hrun, hsp, beq_self_eq_true, Bool.or_true, Bool.and_true, Bool.true_and]
  have hmakes : kind.makes = decide (kind = .make ∨ kind = .latch) := by cases kind <;> rfl
  unfold State.spinBegin
  dsimp only
  rw [hpermit _ rfl, hmakes]

/-- With the own claim alone in view, the service of the own station refuses what its tests say (R117). -/
theorem ownSpin_refused {x : State} (hactive : x.ret.claim.phase = .active) (hothers : x.otherClaims = []) :
    (x.claims.listen.isSome || x.spinClaimed x.straps.number) = true ∨ x.spin.state = .running ↔
      x.claims.listen.isSome = true ∨ x.ret.claim.kind ≠ .connection ∨ x.spin.state = .running := by
  have hview : x.claimView = [⟨x.straps.number, x.ret.claim.kind, x.ret.claim.phase, false⟩] := by
    unfold State.claimView
    rw [hothers, if_neg (by rw [hactive]; decide)]
    rfl
  rw [Bool.or_eq_true, spinClaimed_iff, hview]
  simp [hactive, or_assoc]

/-! ### The unit that is over (R120) -/

theorem unitOver_empty {v : State} (h : v.seq.queue = []) :
    v.unitOver.seq = v.seqIdle.seq ∧ v.unitOver.ret.unit = none ∧ v.unitOver.claims.takeRequest = false ∧
      v.unitOver.ret.claim.phase = .none := by
  obtain ⟨y, hy⟩ : ∃ y, y = v.seqIdle.releaseClaim := ⟨_, rfl⟩
  obtain ⟨hseq, -, -, -⟩ := seqIdle_releaseClaim v
  rw [← hy] at hseq
  have hover : v.unitOver = y.seqIdle.releaseClaim := by
    unfold State.unitOver
    rw [← hy]
    exact beginUnit_none (by rw [hseq]; exact h) _
  obtain ⟨hidle, hunit, htake, hclaim⟩ := seqIdle_releaseClaim y
  rw [hover]
  refine ⟨hidle.trans ?_, hunit, htake, hclaim⟩
  show ({ y.seq.still with state := _, phase := _, timer := _, spin := _, aborted := _, emptied := _ } : Sequencer) = _
  rw [hseq]
  rfl

/-! ### The abort (R120) -/

theorem stepKind_waitPosition (kind : OpKind) (n : Nat) :
    stepKind kind n = .waitPosition ↔
      (kind, n) ∈ [(OpKind.makeUp, 4), (.makeUp, 7), (.breakOut, 3), (.breakOut, 6), (.breakOut, 11)] := by
  by_cases h : n ≤ 13
  · interval_cases n <;> cases kind <;> decide
  · obtain ⟨m, rfl⟩ : ∃ m, n = m + 14 := ⟨n - 14, by omega⟩
    have hrelease : stepKind kind (m + 14) = .release := by cases kind <;> rfl
    rw [hrelease]
    simp

section

variable {s : State} {u : UnitRec} (hu : s.ret.unit = some u)

include hu

theorem abortsAtOnce_iff :
    s.abortsAtOnce = true ↔ s.seq.state = .waitClaim ∨ s.seq.state = .claiming ∨ (s.seq.state = .running ∧
      (u.kindOfStep = .waitPumps ∨ (u.kindOfStep = .waitPosition ∧ u.moved = false ∧
        (u.kind, u.step) ≠ (.breakOut, 11)))) := by
  unfold State.abortsAtOnce
  rw [hu]
  cases hstate : s.seq.state with
  | running =>
    simp only [reduceCtorEq, false_or, true_and, Bool.or_eq_true, beq_iff_eq, Bool.and_eq_true, Bool.not_eq_true']
    refine or_congr_right ?_
    have hposition : u.kindOfStep = .waitPosition ↔ _ := stepKind_waitPosition u.kind u.step
    rw [hposition, and_left_comm]
    refine and_congr_right fun _ => ?_
    split
    · next hkind hstep => simp [hkind, hstep]
    · next hkind hstep => simp [hkind, hstep]
    · next hkind hstep => simp [hkind, hstep]
    · next hkind hstep => simp [hkind, hstep]
    · next h4 h7 h3 h6 =>
      simp only [Bool.false_eq_true, false_iff, not_and, List.mem_cons, Prod.mk.injEq, List.not_mem_nil, or_false, ne_eq]
      rintro (h | h | h | h | h)
      · exact absurd h.2 (h4 h.1)
      · exact absurd h.2 (h7 h.1)
      · exact absurd h.2 (h3 h.1)
      · exact absurd h.2 (h6 h.1)
      · exact fun hnot => hnot h.1 h.2
  | _ => simp

theorem rodAbort_atOnce (h : s.abortsAtOnce = true) :
    s.rodAbort = ({ s with seq := { s.seq with queue := [] } } : State).unitAborted u s.seq.queue.head? := by
  unfold State.rodAbort
  rw [hu]
  exact if_pos h

theorem rodAbort_marks (h : ¬s.abortsAtOnce = true) :
    s.rodAbort = { s with seq := { s.seq with
      queue := []
      emptied := s.seq.emptied || !s.seq.queue.isEmpty
      aborted := s.seq.aborted || decide (s.seq.state = .running) } } := by
  unfold State.rodAbort
  rw [hu]
  exact if_neg h

end

/-! ### The answer leaves the request table -/

theorem handOver_outstanding (e : LinkEnv) (q : QueueId) (f : TxFrame) (l : Link) :
    (l.handOver e q f).outstanding = l.outstanding := by
  by_cases h : f.urgent = true ∨ q = .rig
  · exact (aside_handOver e f l h).table
  · obtain ⟨hroutine, hplain⟩ := not_or.mp h
    unfold Link.handOver
    split
    · rfl
    · have hhand : ∀ q, (l.handPlain e q f).outstanding = l.outstanding := fun q => by
        unfold Link.handPlain
        split
        · exact (settle_outstanding e _).trans (setQueue_outstanding _ _ _)
        · rfl
      cases q with
      | rig => exact absurd rfl hplain
      | urgent => exact hhand _
      | exchange => exact hhand _
      | bulk => exact hhand _

theorem replied_outstanding (w : State) (q : QueueId) (rq : ReqHead) (code : ResultCode) (data : List Byte) :
    (w.replied q rq code data).link.outstanding = w.link.outstanding := by
  have hfold : ∀ (fs : List TxFrame) (w : State),
      (fs.foldl (fun s f => s.hand q f) w).link.outstanding = w.link.outstanding := by
    intro fs
    induction fs with
    | nil => exact fun w => rfl
    | cons f fs ih => exact fun w => (ih (w.hand q f)).trans (handOver_outstanding _ _ _ _)
  unfold State.replied State.answer
  split
  · rfl
  · exact hfold _ w

theorem finish_outstanding (s w : State) : (s.finish w).link.outstanding = w.link.outstanding := by
  rw [finish_link]
  exact (aside_alarming.alarmsFollow w).table

/-! ### The station resumed -/

/-- The station with its sequencer, records, link unit and flags changed. -/
def State.enteredWith (s : State) (l : Link) (a : AlarmUnit) (q : Sequencer) (r : Retained) : State :=
  { s with seq := q, ret := r, link := l, alarm := a }

section

variable {rq : ReqHead} {s : State} {u : UnitRec} (hrun : s.mode = .run)
  (hexec : ∀ {w : State}, (s.taken.anew.enterStep u.step).seqRun = w →
    exec (.rodResume rq) s = .next (s.finish (w.replied .exchange rq .done [])))

include hrun hexec

/-- The step entered anew, where it does not end at once. -/
theorem resumed_enters {w : State} {l : Link} {a : AlarmUnit} {q : Sequencer} {r : Retained}
    (hw : w = s.enteredWith l a q r) (henter : s.taken.anew.enterStep u.step = w)
    (hwaits : q.state ≠ .running ∨ w.phaseReady = false) :
    ∃ t, exec (.rodResume rq) s = .next t ∧ t.seq = q ∧ t.ret = r ∧
      t.alarm.isActive .sequenceHold = q.state.stopped ∧ t.link.outstanding = l.outstanding ∧
      ChangesOnly [.ret, .link, .seq, .alarm] s t := by
  have hwseq : w.seq = q := by rw [hw]; rfl
  have hwret : w.ret = r := by rw [hw]; rfl
  have hwlink : w.link = l := by rw [hw]; rfl
  have hwaiting : (s.taken.anew.enterStep u.step).seqRun = w := by
    rw [henter]
    exact seqRun_of_waiting (hwaits.imp_left fun h => by rwa [hwseq])
  have hmoves : LeavesOther [.ret, .link, .seq, .alarm] s w := by
    rw [hw]
    constructor <;> simp [State.enteredWith]
  have hxt := finish_replied (k := .exchange) (rq := rq) (result := .done) (data := []) hmoves.pending
  have hreply : LeavesOther [.link] w (w.replied .exchange rq .done []) := (moves_answer w .exchange _ .done []).other
  have hwrun : (w.replied .exchange rq .done []).inRun = true := by
    rw [inRun_iff, hreply.mode, hmoves.mode, hrun]
  obtain ⟨hother, himages, houts⟩ := finish_changes s _ (hmoves.trans hreply)
  refine ⟨_, hexec hwaiting, ?_, ?_, ?_, ?_, hother.mono (by decide), himages, houts⟩
  · rw [hxt.seq (by decide), hwseq]
  · rw [hxt.ret (by decide), hwret]
  · rw [finish_isActive s hwrun (by decide), ← hwseq, ← hreply.seq (by decide)]
    rfl
  · rw [finish_outstanding, replied_outstanding, hwlink]

/-- A SPIN step entered anew whose spin the own service accepts. -/
theorem resumed_accepts {kind : SpinKind} {l : Link} {a : AlarmUnit} {q : Sequencer} (hu : s.ret.unit = some u)
    (hk : u.kindOfStep = .spin kind) (hphase : q.phase = .first)
    (henter : s.taken.anew.enterStep u.step =
      let begun := (s.enteredWith l a q s.ret).spinBegin s.straps.number kind
      { begun with seq := { begun.seq with spin := .accepted s.straps.number begun.spin.number } }) :
    ∃ t, exec (.rodResume rq) s = .next t ∧ t.ret = s.ret ∧
      t.seq = { q with spin := .accepted s.straps.number ((s.spin.number + 1) % 256) } ∧
      t.spin = ⟨.running, (s.spin.number + 1) % 256, some s.straps.number, some kind, some 15000,
        decide (kind = .make ∨ kind = .latch), !decide (kind = .make ∨ kind = .latch), s.straps.head⟩ ∧
      ChangesOnly [.ret, .link, .seq, .spin, .depth, .alarm] s t := by
  obtain ⟨sp, hsp⟩ : ∃ sp : SpinService, sp = ⟨.running, (s.spin.number + 1) % 256, some s.straps.number, some kind,
    some 15000, decide (kind = .make ∨ kind = .latch), !decide (kind = .make ∨ kind = .latch), s.straps.head⟩ := ⟨_, rfl⟩
  obtain ⟨v, hv⟩ : ∃ v : State, v = { s.enteredWith l a q s.ret with spin := sp } := ⟨_, rfl⟩
  have hbegun : (s.enteredWith l a q s.ret).spinBegin s.straps.number kind = v.headCall := by
    rw [hv, hsp]
    exact spinBegin_permit (x := s.enteredWith l a q s.ret) (inRun_of_mode (s := s) hrun) _
  rw [hbegun] at henter
  have hvleaves : LeavesOther [.ret, .link, .seq, .spin, .alarm] s v := by
    rw [hv]
    constructor <;> simp [State.enteredWith]
  have hcall := (moves_headCall v).other
  have hspin : v.headCall.spin = sp := (hcall.spin (by decide)).trans (by rw [hv])
  obtain ⟨w, hw⟩ : ∃ w : State, w = { v.headCall with
    seq := { v.headCall.seq with spin := .accepted s.straps.number v.headCall.spin.number } } := ⟨_, rfl⟩
  have hwspin : w.spin = sp := by rw [hw, hspin]
  have hwret : w.ret = s.ret := by
    rw [hw]
    exact (hcall.ret (by decide)).trans (by rw [hv]; rfl)
  have hwseq : w.seq = { q with spin := .accepted s.straps.number ((s.spin.number + 1) % 256) } := by
    rw [hw, hcall.seq (by decide), hspin, hsp, hv]
    rfl
  have hmoves : LeavesOther [.ret, .link, .seq, .spin, .depth, .alarm] s w := by
    rw [hw]
    exact ((hvleaves.trans hcall).trans (moves_seq v.headCall _).other).mono (by decide)
  have hready : w.phaseReady = false := by
    rw [phaseReady_first (s := w) (by rw [hwret]; exact hu) (by rw [hwseq]; exact hphase), hk]
    rfl
  have hx := hexec (w := w) (by rw [henter, ← hw]; exact seqRun_of_waiting (.inr hready))
  have hxt := finish_replied (k := .exchange) (rq := rq) (result := .done) (data := []) hmoves.pending
  obtain ⟨hother, himages, houts⟩ := finish_changes s _ (hmoves.trans (moves_answer w .exchange
    (requestOf rq 0 []) .done []).other)
  exact ⟨_, hx, (hxt.ret (by decide)).trans hwret, (hxt.seq (by decide)).trans hwseq,
    ((hxt.spin (by decide)).trans hwspin).trans hsp, hother.mono (by decide), himages, houts⟩

end

end Sys2Proof.Machine

namespace Sys2Proof

open Machine Host

/-- Settles O43: an abort by what the unit waits for, and each kind of step entered anew. -/
theorem abortAndResumeActOnTheUnit : Obligations.AbortAndResumeActOnTheUnit := by
  unfold Obligations.AbortAndResumeActOnTheUnit
  intro rq s hrun hrole hs
  refine ⟨fun hserves => ?_, fun hserves => ?_⟩
  · have answered := fun {w result} => exec_served (g := fun s => ⟨s.straps.rod, 0, false⟩) (f := serveRodAbort)
      (i := .rodAbort rq) (w := w) (result := result) (data := []) rfl hserves hrun hrole (by simp)
    refine ⟨fun hu => ?_, fun u hu => ?_⟩
    · have habort : s.taken.rodAbort = { s.taken with seq := { s.seq with queue := [] } } := by
        unfold State.rodAbort
        rw [show s.taken.ret.unit = none from hu]
        rfl
      refine answered_leaves (w := { s.taken with seq := { s.seq with queue := [] } }) rfl (fun hin c => ?_)
        (answered (congrArg (Served.mk · .done []) habort))
      cases c <;> exact taken_settled hs hin _
    · intro waits
      have hwaits : s.taken.abortsAtOnce = true ↔ waits := abortsAtOnce_iff (s := s.taken) hu
      refine ⟨fun h => ?_, fun h hbusy => ?_⟩
      · obtain ⟨v, hv⟩ : ∃ v : State, v = ({ s.taken with seq := { s.seq with queue := [] } } : State).setLastOp u.kind
          .aborted s.seq.queue.head? := ⟨_, rfl⟩
        obtain ⟨hseq, hunit, htake, hclaim⟩ := unitOver_empty (v := v) (by rw [hv]; rfl)
        have habort : s.taken.rodAbort = v.unitOver := by
          rw [rodAbort_atOnce (s := s.taken) hu (hwaits.mpr h), hv]
          rfl
        have hmoves : LeavesOther (.link :: seqParts) s v.unitOver := by
          have hvleaves : LeavesOther [.link, .seq] s v := by
            rw [hv]
            constructor <;> simp [State.setLastOp, State.taken]
          exact hvleaves.after (moves_unitOver v).other (by decide) (by decide)
        have hxt := finish_replied (k := .exchange) (rq := rq) (result := .done) (data := []) hmoves.pending
        obtain ⟨hother, himages, houts⟩ := finish_changes s _ (hmoves.trans (moves_answer v.unitOver .exchange
          (requestOf rq 0 []) .done []).other)
        refine ⟨_, answered (congrArg (Served.mk · .done []) habort), ?_, ?_, ?_, ?_, ?_, ?_, hother.mono (by decide),
          himages, houts⟩
        · rw [hxt.seq (by decide), hseq, hv]
          rfl
        · rw [hxt.seq (by decide), hseq]
          rfl
        · rw [hxt.ret (by decide), hunit]
        · rw [hxt.ret (by decide), hclaim]
        · rw [hxt.claims (by decide), htake]
        · rw [hxt.seq (by decide), hseq, hv]
          rfl
      · exact answered_settles (w := { s.taken with seq := { s.seq with
          queue := []
          emptied := s.seq.emptied || !s.seq.queue.isEmpty
          aborted := s.seq.aborted || decide (s.seq.state = .running) } }) rfl
          (answered (congrArg (Served.mk · .done []) (rodAbort_marks (s := s.taken) hu (mt hwaits.mp h))))
  · intro stopped
    have answered := fun {w result} => exec_served (g := fun s => ⟨s.straps.rod, 0, false⟩) (f := serveRodResume)
      (i := .rodResume rq) (w := w) (result := result) (data := []) rfl hserves hrun hrole (by simp)
    refine ⟨fun h => taken_answered hs (answered (serveRodResume_barred (s := s.taken) h)),
      fun h hothers => taken_answered hs (answered (serveRodResume_claimed (s := s.taken) h hothers)),
      fun h hothers hu hqueue => ?_, fun u h hothers hu => ?_⟩
    · obtain ⟨hseq, hunit, htake, hclaim⟩ := unitOver_empty (v := s.taken) hqueue
      have hmoves : LeavesOther (.link :: seqParts) s s.taken.unitOver :=
        (leavesOther_link s s.link.popIntake).after (moves_unitOver s.taken).other (by decide) (by decide)
      have hxt := finish_replied (k := .exchange) (rq := rq) (result := .done) (data := []) hmoves.pending
      obtain ⟨hother, himages, houts⟩ := finish_changes s _ (hmoves.trans (moves_answer s.taken.unitOver .exchange
        (requestOf rq 0 []) .done []).other)
      refine ⟨_, answered (serveRodResume_over (s := s.taken) h hothers hu), ?_, ?_, ?_, ?_, ?_, hother.mono (by decide),
        himages, houts⟩
      · rw [hxt.seq (by decide), hseq]
        rfl
      · rw [hxt.seq (by decide), hseq]
        exact hqueue
      · rw [hxt.ret (by decide), hunit]
      · rw [hxt.ret (by decide), hclaim]
      · rw [hxt.claims (by decide), htake]
    · intro k again timed entered fails driven last selects slots rodAt
      have hexec : ∀ {w : State}, (s.taken.anew.enterStep u.step).seqRun = w →
          exec (.rodResume rq) s = .next (s.finish (w.replied .exchange rq .done [])) := fun {w} hw =>
        answered ((serveRodResume_goes (s := s.taken) h hothers hu).trans (congrArg (Served.mk · .done []) hw))
      obtain ⟨l, a, hanew, haside⟩ : ∃ l a, s.taken.anew = s.anewOn l a ∧ s.link.Aside l :=
        ⟨_, _, anew_eq s.taken, (aside_alarming.report _ _ _).last ⟨rfl, rfl, rfl⟩⟩
      have hinhand : s.taken.anew.enterStep u.step = ((s.anewOn l a).freshStep u).enterKind u k := by
        rw [hanew]
        exact enterStep_inHand hu
      have hsame : ({ s.ret with unit := some u } : Retained) = s.ret := by rw [← hu]
      have enters : ∀ {q r}, ((s.anewOn l a).freshStep u).enterKind u k = s.enteredWith l a q r →
          (q.state ≠ .running ∨ (s.enteredWith l a q r).phaseReady = false) → entered q r := fun {q r} henter hwaits => by
        obtain ⟨t, hx, hq, hr, halarm, -, hchanges⟩ := resumed_enters hrun hexec rfl (hinhand.trans henter) hwaits
        exact ⟨t, hx, hq, hr, halarm, hchanges⟩
      have waits : ∀ {q : Sequencer} {r : Retained} {v : UnitRec}, r.unit = some v → q.phase = .first → v.kindOfStep = k →
          (s.enteredWith l a q r).firstReady v k = false → q.state ≠ .running ∨ (s.enteredWith l a q r).phaseReady = false :=
        fun {q r v} hv hphase hkind hready => .inr (by
          rw [phaseReady_first (s := s.enteredWith l a q r) hv hphase, hkind]
          exact hready)
      refine ⟨fun hk hpin => ?_, fun hk hpin => ?_, fun hk hpumps => ?_, fun hk hplain hfar => ?_, fun hselects => ?_,
        fun hk hslot => ?_, fun hk hpin => ?_, fun hk => ?_, fun kind hk => ?_⟩
      · exact enters (by rw [hk]; rfl) (waits (v := { u with moved := true }) rfl rfl rfl (by rw [hk]; exact hpin))
      · refine enters ?_ (waits (v := { u with moved := true }) rfl rfl rfl (by rw [hk]; exact hpin))
        rw [hk]
        exact enterKind_release (s.anewOn l a) u rfl
      · refine enters ?_ (waits (v := u) hu rfl rfl (by rw [hk]; exact hpumps))
        rw [hk]
        refine (enterKind_waitPumps (s.anewOn l a) u).trans ?_
        rw [← hu]
        rfl
      · refine enters ?_ (waits (v := u) hu rfl rfl (by rw [hk]; exact hfar))
        rw [hk, ← hsame]
        exact if_neg fun h => hplain (Prod.ext h.1 h.2)
      · intro usable
        have hk : k = .waitPosition := by
          obtain ⟨hkind, hstep⟩ := Prod.mk.inj hselects
          show stepKind u.kind u.step = _
          rw [hkind, hstep]
          rfl
        have henter : ((s.anewOn l a).freshStep u).enterKind u k = ((s.anewOn l a).freshStep u).enterSelect := by
          rw [hk]
          exact if_pos (Prod.mk.inj hselects)
        refine ⟨fun hfull => ?_, fun hroom hnone => ?_, fun n r hroom hslot hrod hfar => ?_⟩
        · refine enters (henter.trans ((enterSelect_full ((s.anewOn l a).freshStep u) hfull).trans ?_)) (.inl SeqState.noConfusion)
          rw [← hsame]
          rfl
        · refine enters (henter.trans ((enterSelect_none ((s.anewOn l a).freshStep u) hroom hnone).trans ?_)) (.inl SeqState.noConfusion)
          rw [← hsame]
          rfl
        · refine enters (henter.trans ((enterSelect_some ((s.anewOn l a).freshStep u) hroom hslot).trans ?_))
            (waits (v := { u with rod := some r.id, slot := some n }) rfl rfl rfl ?_)
          · have hfound : rodInSlot ((s.anewOn l a).freshStep u).ret.rods n = some r := hrod
            rw [hfound]
            rfl
          · rw [hk]
            obtain ⟨hkind, hstep⟩ := Prod.mk.inj hselects
            refine Eq.trans ?_ hfar
            show State.headNear _ (State.targetHeight _ _) = _
            unfold State.targetHeight
            dsimp only
            rw [hkind, hstep]
            rfl
      · refine enters ?_ (waits (v := u) hu rfl rfl (by rw [hk]; exact beq_false_of_ne hslot))
        rw [hk, ← hsame]
        rfl
      · refine enters ?_ (waits (v := u) hu rfl rfl (by rw [hk]; exact hpin))
        rw [hk, ← hsame]
        rfl
      · intro empty
        have henter : ((s.anewOn l a).freshStep u).enterKind u k = ((s.anewOn l a).freshStep u).enterStore := by rw [hk]; rfl
        refine ⟨fun hnone => ?_, fun n hslot hother => ?_⟩
        · refine enters (henter.trans ((enterStore_none ((s.anewOn l a).freshStep u) hnone).trans ?_)) (.inl SeqState.noConfusion)
          rw [← hsame]
          rfl
        · refine enters (henter.trans ((enterStore_some ((s.anewOn l a).freshStep u) hslot).trans ?_))
            (waits (v := { u with slot := some n }) rfl rfl rfl ?_)
          · unfold State.freshStep State.anewOn State.mapUnit State.startTimer State.indexOn
            rfl
          rw [hk]
          exact beq_false_of_ne fun h => hother (Option.some.inj h)
      · intro claimed room asked
        have henter : ((s.anewOn l a).freshStep u).enterKind u k = ((s.anewOn l a).freshStep u).enterSpin kind := by
          rw [hk]
          rfl
        have hroom : l.canIssue = true ↔ room := by
          rw [canIssue_iff, haside.table, haside.count]
        have hwaiting : ∀ {q : Sequencer} {r : Retained} {l' : Link}, r.unit = some u → q.phase = .first →
            (s.enteredWith l' a q r).phaseReady = false := fun {q r l'} hv hphase => by
          rw [phaseReady_first (s := s.enteredWith l' a q r) hv hphase, show u.kindOfStep = .spin kind from hk]
          rfl
        refine ⟨fun hnone => ?_, fun dest hsource hother => ⟨fun hfull => ?_, fun hfree => ?_⟩, fun hsource =>
          ⟨fun hclaimed => ?_, fun hfree => ?_⟩⟩
        · refine enters (henter.trans ((enterSpin_none (x := (s.anewOn l a).freshStep u) hnone).trans ?_))
            (.inl SeqState.noConfusion)
          rw [← hsame]
          rfl
        · refine enters (henter.trans ((enterSpin_waits (x := (s.anewOn l a).freshStep u) hsource hother
            (Bool.eq_false_iff.mpr (mt hroom.mp hfull))).trans ?_)) (.inr (hwaiting hu rfl))
          rw [← hsame]
          rfl
        · obtain ⟨l', hl'⟩ : ∃ l', l' = l.issue ((s.anewOn l a).freshStep u).linkEnv s.clockMs dest 15 [byteOf kind.code] :=
            ⟨_, rfl⟩
          have hasks := enterSpin_asks (x := (s.anewOn l a).freshStep u) (kind := kind) hsource hother (hroom.mpr hfree)
          have hw : ((s.anewOn l a).freshStep u).enterKind u k = s.enteredWith l' a (asked (.sent dest l.nextTag)) s.ret := by
            refine henter.trans (hasks.trans ?_)
            rw [← hsame, hl']
            rfl
          obtain ⟨t, hx, hq, hr, -, htable, hchanges⟩ := resumed_enters hrun hexec rfl (hinhand.trans hw) (.inr (hwaiting hu rfl))
          rw [hl', issue_outstanding, haside.table] at htable
          refine ⟨t, hx, hr, ⟨_, htable, rfl, rfl, fun o ho htag => ?_, hq⟩, hchanges⟩
          have hfree := (nextTag_free (l := l) (by rw [haside.table]; exact hfree.1)).1
          rw [haside.table] at hfree
          exact hfree ⟨o, ho, htag⟩
        · have hrefused := (ownSpin_refused (x := (s.anewOn l a).freshStep u) h.2.2 hothers).mpr hclaimed
          refine enters (henter.trans ((enterSpin_refused (x := (s.anewOn l a).freshStep u) hsource hrefused).trans ?_))
            (.inl SeqState.noConfusion)
          rw [← hsame]
          rfl
        · have hrefused := ownSpin_refused (x := (s.anewOn l a).freshStep u) h.2.2 hothers
          have hown := enterSpin_own (x := (s.anewOn l a).freshStep u) (kind := kind) hsource
            (fun hclaimed => hfree (hrefused.mp (.inl hclaimed))) fun hspin => hfree (hrefused.mp (.inr hspin))
          have henters : s.taken.anew.enterStep u.step =
              let begun := (s.enteredWith l a (timed 20000) s.ret).spinBegin s.straps.number kind
              { begun with seq := { begun.seq with spin := .accepted s.straps.number begun.spin.number } } := by
            rw [hinhand, henter, hown, ← hsame]
            rfl
          obtain ⟨t, hx, hr, hq, hspin, hchanges⟩ := resumed_accepts hrun hexec hu hk rfl henters
          refine ⟨t, hx, hr, hq, ?_, ?_, ?_, ?_, ?_, ?_, ?_, ?_, hchanges⟩
          all_goals rw [hspin]

end Sys2Proof

/-! What the entry of a step leaves (O57, O58). -/

namespace Sys2Proof.Machine

open Host

/-- `t` is `s` with step `n` of its unit `u` entered. -/
structure State.Entered (s : State) (u : UnitRec) (n : Nat) (t : State) : Prop where
  ret : t.ret = { s.ret with unit := t.ret.unit, clampOut := t.ret.clampOut, gripOut := t.ret.gripOut }
  unit : ∃ v, t.ret.unit = some v ∧ v.kind = u.kind ∧ v.step = n
  seq : t.seq = { s.seq with
    state := t.seq.state, phase := .first, timer := t.seq.timer, spin := t.seq.spin, index := t.seq.index,
    present := t.seq.present, store := t.seq.store, retract := t.seq.retract }
  state : t.seq.state = .running ∨ t.seq.state.stopped = true
  flags : (s.seq.present = false → t.seq.present = false) ∧ (s.seq.store = false → t.seq.store = false) ∧
    (s.seq.retract = false → ({ u with step := n } : UnitRec).kindOfStep ≠ .release → t.seq.retract = false)
  grip : ({ u with step := n } : UnitRec).kindOfStep ∉ [StepKind.release, .waitPumps, .grip] →
    t.ret.gripOut = s.ret.gripOut

namespace State.Entered

variable {s t : State} {u : UnitRec} {n : Nat}

theorem fresh (s : State) (u : UnitRec) (n : Nat) : s.Entered u n (s.freshStep { u with step := n }) :=
  ⟨rfl, ⟨_, rfl, rfl, rfl⟩, rfl, .inl rfl, ⟨id, id, fun h _ => h⟩, fun _ => rfl⟩

theorem phase (h : s.Entered u n t) : t.seq.phase = .first := by rw [h.seq]

theorem beside {t' : State} (h : s.Entered u n t) (hx : LeavesOther [.spin, .depth, .link] t t') : s.Entered u n t' := by
  obtain ⟨r, hr⟩ : ∃ r, r = t'.ret := ⟨_, rfl⟩
  obtain ⟨q, hq⟩ : ∃ q, q = t'.seq := ⟨_, rfl⟩
  obtain ⟨hret, hunit, hseq, hstate, hflags, hgrip⟩ := h
  rw [← hx.ret (by decide), ← hr] at hret hunit hgrip
  rw [← hx.seq (by decide), ← hq] at hseq hstate hflags
  subst hr hq
  exact ⟨hret, hunit, hseq, hstate, hflags, hgrip⟩

theorem timed (h : s.Entered u n t) (ms : Nat) : s.Entered u n (t.startTimer ms) :=
  ⟨h.ret, h.unit, congrArg (fun q : Sequencer => { q with timer := some ms }) h.seq, h.state, h.flags, h.grip⟩

theorem asks (h : s.Entered u n t) (r : SpinRequest) : s.Entered u n { t with seq := { t.seq with spin := r } } :=
  ⟨h.ret, h.unit, congrArg (fun q : Sequencer => { q with spin := r }) h.seq, h.state, h.flags, h.grip⟩

theorem indexed (h : s.Entered u n t) : s.Entered u n t.indexOn :=
  ⟨h.ret, h.unit, congrArg (fun q : Sequencer => { q with index := true }) h.seq, h.state, h.flags, h.grip⟩

theorem fault (h : s.Entered u n t) (c : StopCause) : s.Entered u n (t.seqFault c) := by
  have hphase := h.phase
  have hundone : t.stepDone = false := by
    unfold State.stepDone
    rw [hphase, show (StepPhase.first == StepPhase.ending) = false from rfl, Bool.and_false, Bool.false_and]
  have hstop : t.seqFault c = _ := seqStop_of_undone hundone (.fault c)
  rw [hstop]
  exact ⟨h.ret, h.unit, congrArg (fun q : Sequencer => { q with
    state := .fault c, phase := .first, timer := none, spin := t.seq.spin.dropWaiting
    index := false, present := false, store := false, retract := false }) h.seq, .inr rfl,
    ⟨fun _ => rfl, fun _ => rfl, fun _ _ => rfl⟩, h.grip⟩

theorem mapped (h : s.Entered u n t) (f : UnitRec → UnitRec) (hkind : ∀ v, (f v).kind = v.kind)
    (hstep : ∀ v, (f v).step = v.step) : s.Entered u n (t.mapUnit f) := by
  obtain ⟨v, hv, hvkind, hvstep⟩ := h.unit
  refine ⟨congrArg (fun r : Retained => { r with unit := r.unit.map f }) h.ret, ⟨f v, congrArg (Option.map f) hv, ?_, ?_⟩, h.seq,
    h.state, h.flags, h.grip⟩
  · rw [hkind, hvkind]
  · rw [hstep, hvstep]

theorem spins (h : s.Entered u n t) (kind : SpinKind) : s.Entered u n (t.enterSpin kind) := by
  unfold State.enterSpin
  split
  · exact h.fault _
  · next k _ =>
    dsimp only
    split
    · have hservice := (h.timed 20000).beside (moves_spinService (t.startTimer 20000) k kind.code).other
      split
      · next e =>
        rw [e] at hservice
        exact hservice.asks _
      · next e =>
        rw [e] at hservice
        exact hservice.fault _
    · split
      · exact ((h.timed 20000).beside (t' := (t.startTimer 20000).onLink fun e =>
          Link.issue e (t.startTimer 20000).clockMs k spinCode [byteOf kind.code])
          ((leavesOther_link _ _).mono (by decide))).asks _
      · exact (h.timed 20000).asks _

theorem selects (h : s.Entered u n t) : s.Entered u n t.enterSelect := by
  unfold State.enterSelect
  split
  · exact h.fault _
  · split
    · exact h.fault _
    · next slot _ =>
      exact (h.mapped (fun u => { u with rod := (rodInSlot t.ret.rods slot).map (·.id), slot := some slot }) (fun _ => rfl)
        fun _ => rfl).timed _

theorem stores (h : s.Entered u n t) : s.Entered u n t.enterStore := by
  unfold State.enterStore
  split
  · exact h.fault _
  · next slot _ => exact ((h.mapped (fun u => { u with slot := some slot }) (fun _ => rfl) fun _ => rfl).timed _).indexed

end State.Entered

/-- The entry of a step, whatever its kind (R108 to R116). -/
theorem enterStep_entered {s : State} {u : UnitRec} (hu : s.ret.unit = some u) (n : Nat) : s.Entered u n (s.enterStep n) := by
  have hfresh := State.Entered.fresh s u n
  have hkind : ∀ k, ({ u with step := n } : UnitRec).kindOfStep = k →
      s.Entered u n ((s.freshStep { u with step := n }).enterKind { u with step := n } k) := by
    intro k hk
    cases k with
    | claim => exact hfresh
    | waitPosition =>
      by_cases hselects : u.kind = .makeUp ∧ n = 7
      · rw [show (s.freshStep { u with step := n }).enterKind { u with step := n } .waitPosition = _ from if_pos hselects]
        exact hfresh.selects
      · rw [show (s.freshStep { u with step := n }).enterKind { u with step := n } .waitPosition = _ from if_neg hselects]
        exact hfresh.timed _
    | fetch => exact hfresh.indexed.timed _
    | spin kind => exact hfresh.spins kind
    | store => exact hfresh.stores
    | waitPumps => exact ⟨rfl, ⟨_, rfl, rfl, rfl⟩, rfl, .inl rfl, ⟨id, id, fun h _ => h⟩, fun h => by simp [hk] at h⟩
    | clamp => exact ⟨rfl, ⟨_, rfl, rfl, rfl⟩, rfl, .inl rfl, ⟨id, id, fun h _ => h⟩, fun _ => rfl⟩
    | grip => exact ⟨rfl, ⟨_, rfl, rfl, rfl⟩, rfl, .inl rfl, ⟨id, id, fun h _ => h⟩, fun h => by simp [hk] at h⟩
    | release =>
      rw [enterKind_release s { u with step := n } rfl]
      exact ⟨rfl, ⟨_, rfl, rfl, rfl⟩, rfl, .inl rfl, ⟨id, id, fun _ h => absurd hk h⟩, fun h => by simp [hk] at h⟩
  rw [enterStep_eq hu]
  exact hkind _ rfl

end Sys2Proof.Machine

/-! Steps and units that end (O57, O58): the records stand, and a running sequencer stops where it waits. -/

namespace Sys2Proof.Machine

open Host

/-! ## The records stand -/

/-- `t` has the records of `s` but for the own claim, the unit and the maintained outputs, and no motion output of the
loader has come on. -/
structure State.Rests (s t : State) : Prop where
  ret : t.ret = { s.ret with
    claim := t.ret.claim, unit := t.ret.unit, clampOut := t.ret.clampOut, gripOut := t.ret.gripOut }
  present : s.seq.present = false → t.seq.present = false
  store : s.seq.store = false → t.seq.store = false
  retract : s.seq.retract = false → t.seq.retract = false

namespace State.Rests

variable {s t u : State}

theorem refl (s : State) : s.Rests s := ⟨rfl, id, id, id⟩

theorem last (k : t.Rests u) (h : s.Rests t) : s.Rests u := by
  refine ⟨?_, k.present ∘ h.present, k.store ∘ h.store, k.retract ∘ h.retract⟩
  rw [k.ret, h.ret]

/-- The sequencer's outputs stand, and of the records the claim may move. -/
theorem of_same (hret : t.ret = { s.ret with claim := t.ret.claim })
    (hseq : t.seq = { s.seq with state := t.seq.state }) : s.Rests t := by
  refine ⟨?_, fun h => ?_, fun h => ?_, fun h => ?_⟩
  · rw [hret]
  all_goals
    rw [hseq]
    exact h

end State.Rests

theorem rests_releaseClaim (s : State) : s.Rests s.releaseClaim := by
  obtain ⟨hseq, -, -⟩ := releaseClaim_rest s
  refine .of_same ?_ (by rw [hseq])
  rw [releaseClaim_ret]

theorem rests_takeTest (s : State) : s.Rests s.takeTest := by
  by_cases h : s.mayTake = true
  · obtain ⟨hret, -, hseq⟩ := takeTest_takes h
    exact .of_same (by rw [hret]) (by rw [hseq])
  · rw [takeTest_of_not (Bool.eq_false_iff.mpr h)]
    exact .refl s

theorem rests_seqIdle (s : State) : s.Rests s.seqIdle := ⟨rfl, fun _ => rfl, fun _ => rfl, fun _ => rfl⟩

theorem rests_setLastOp (s : State) (kind : OpKind) (result : OpResult) (e : Option OpEntry) :
    s.Rests (s.setLastOp kind result e) := ⟨rfl, id, id, id⟩

theorem rests_queue (s : State) (queue : List OpEntry) :
    s.Rests { s with seq := { s.seq with queue := queue } } := ⟨rfl, id, id, id⟩

theorem State.Entered.rests {s t : State} {u : UnitRec} {n : Nat} (h : s.Entered u n t)
    (hkind : ({ u with step := n } : UnitRec).kindOfStep ≠ .release) : s.Rests t := by
  refine ⟨?_, h.flags.1, h.flags.2.1, fun hs => h.flags.2.2 hs hkind⟩
  have hclaim : t.ret.claim = s.ret.claim := by rw [h.ret]
  rw [hclaim]
  exact h.ret

/-! ## The next unit (R107) -/

/-- A sequencer that stands, or waits in WAIT_PUMPS of a unit it has just begun. -/
structure State.Begun (s t : State) : Prop where
  rests : s.Rests t
  marks : t.seq.aborted = false ∧ t.seq.emptied = false
  waits : t.seq.state = .running → s.ret.claim.phase = .active ∧ t.seq.phase = .first ∧
    ∃ v, t.ret.unit = some v ∧ v.step = 2

theorem State.Begun.after {s s' t : State} (h : s'.Begun t) (hs : s.Rests s') (hclaim : s'.ret.claim = s.ret.claim) :
    s.Begun t :=
  ⟨h.rests.last hs, h.marks, fun hrun => by rw [← hclaim]; exact h.waits hrun⟩

theorem begun_over (s : State) : s.Begun s.seqIdle.releaseClaim := by
  obtain ⟨hseq, -, -, -⟩ := seqIdle_releaseClaim s
  refine ⟨(rests_releaseClaim _).last (rests_seqIdle s), ?_, fun hrun => ?_⟩
  · rw [hseq]
    exact ⟨rfl, rfl⟩
  · rw [hseq] at hrun
    cases hrun

theorem begun_waits (s : State) (e : OpEntry) : s.Begun (s.unitWaits e).takeTest := by
  have hstate : (s.unitWaits e).seq.state = .claiming ∨ (s.unitWaits e).seq.state = .waitClaim := by
    show (if _ then _ else _) = _ ∨ (if _ then _ else _) = _
    split
    · exact .inl rfl
    · exact .inr rfl
  have hnew : s.Rests (s.unitWaits e) := ⟨rfl, fun _ => rfl, fun _ => rfl, fun _ => rfl⟩
  have hidle : ∀ q : SeqState, q = .claiming ∨ q = .waitClaim → q ≠ .running := by
    rintro _ (rfl | rfl) <;> exact SeqState.noConfusion
  by_cases hmay : (s.unitWaits e).mayTake = true
  · obtain ⟨-, -, hseq⟩ := takeTest_takes hmay
    refine ⟨(rests_takeTest _).last hnew, by rw [hseq]; exact ⟨rfl, rfl⟩, fun hrun => absurd hrun ?_⟩
    rw [hseq]
    refine hidle _ ?_
    dsimp only
    split
    · exact .inl rfl
    · exact hstate
  · rw [takeTest_of_not (Bool.eq_false_iff.mpr hmay)]
    exact ⟨hnew, ⟨rfl, rfl⟩, fun hrun => absurd hrun (hidle _ hstate)⟩

theorem begun_goes (s : State) (e : OpEntry) (hclaim : s.ret.claim.phase = .active) :
    s.Begun (({ s.seqIdle with ret := { s.ret with unit := some ⟨e.kind, 1, none, none, false⟩ } } : State).waitsPumps
      ⟨e.kind, 1, none, none, false⟩) :=
  ⟨⟨rfl, fun _ => rfl, fun _ => rfl, fun _ => rfl⟩, ⟨rfl, rfl⟩, fun _ => ⟨hclaim, rfl, _, rfl, rfl⟩⟩

theorem begun_beginUnit (n : Nat) : ∀ s : State, s.Begun (s.beginUnit n) := by
  induction n with
  | zero => exact begun_over
  | succ n ih =>
    intro s
    cases hqueue : s.seq.queue with
    | nil =>
      rw [beginUnit_none hqueue]
      exact begun_over s
    | cons e rest =>
      by_cases hempty : e.kind = .breakOut ∧ s.ret.string = []
      · rw [beginUnit_empty hqueue hempty]
        exact (ih _).after ((rests_setLastOp _ _ _ _).last (rests_queue s rest)) rfl
      · by_cases hclaim : s.ret.claim.phase = .active
        · rw [beginUnit_goes hqueue hempty hclaim]
          exact begun_goes s e hclaim
        · rw [beginUnit_waits hqueue hempty hclaim]
          exact begun_waits s e

theorem begun_unitEnd (s : State) (u : UnitRec) : s.Begun (s.unitEnd u) := by
  unfold State.unitEnd
  split
  · exact (begun_beginUnit _ _).after (rests_setLastOp s _ _ _) rfl
  · next e rest _ =>
    dsimp only
    split
    · exact (begun_beginUnit _ _).after ((rests_setLastOp _ _ _ _).last (rests_queue s rest)) rfl
    · exact (begun_beginUnit _ _).after (rests_queue s _) rfl

/-- With the claim released no unit runs on (R107, R34). -/
theorem unitOver_waits (s : State) : s.Rests s.unitOver ∧ s.unitOver.seq.state ≠ .running := by
  obtain ⟨hseq, -, -, hclaim⟩ := seqIdle_releaseClaim s
  have hbegun := begun_beginUnit 9 s.seqIdle.releaseClaim
  refine ⟨hbegun.rests.last (begun_over s).rests, fun hrun => ?_⟩
  obtain ⟨hactive, -⟩ := hbegun.waits hrun
  rw [hclaim] at hactive
  cases hactive

/-! ## The end of a step (R107, R120) -/

section

variable {s : State} {u : UnitRec} (hu : s.ret.unit = some u)

include hu

theorem stepEnds_goes (habort : s.seq.aborted = false) (hlow : u.step < lastStep u.kind) :
    s.stepEnds = s.enterStep (nextStep u.kind s.ret.hold u.step) := by
  unfold State.stepEnds
  rw [hu, habort]
  exact if_neg (Nat.not_le.mpr hlow)

theorem stepEnds_over (habort : s.seq.aborted = false) (hlast : lastStep u.kind ≤ u.step) :
    s.stepEnds = s.unitEnd u := by
  unfold State.stepEnds
  rw [hu, habort]
  exact if_pos hlast

theorem stepEnds_safe (habort : s.seq.aborted = true) (hsafe : s.safePoint = true) :
    s.stepEnds = s.unitAborted u none := by
  unfold State.stepEnds
  rw [hu, habort]
  exact if_pos hsafe

theorem stepEnds_held (habort : s.seq.aborted = true) (hsafe : s.safePoint = false) :
    s.stepEnds = ({ s with ret := s.ret.stepOn, seq := { s.seq with phase := .first } } : State).seqHold .aborted := by
  unfold State.stepEnds
  rw [hu, habort]
  dsimp only
  rw [if_pos rfl, hsafe]
  exact if_neg Bool.false_ne_true

end

end Sys2Proof.Machine

/-! A running sequencer after the end of a step (O57, O58): it passes the steps whose ends change no record, and waits at the
first other one. -/

namespace Sys2Proof.Machine

open Host

/-! ## The steps passed -/

/-- A unit waits at the step, or passes it and comes to such a step again; `closed` is the level of the clamp input. -/
def StepCoasts (kind : OpKind) (n : Nat) (r : HoldRec) (closed : Bool) : Prop :=
  stepKind kind n = .claim ∨ (stepKind kind n).isSpin = true ∨ (kind, n) ∈ [(OpKind.breakOut, 8), (.breakOut, 11)] ∨
    (closed = false ∧ r = hung ∧ (kind, n) ∈ [(OpKind.makeUp, 2), (.makeUp, 4), (.makeUp, 5), (.breakOut, 2),
      (.breakOut, 6), (.breakOut, 7)])

/-- A step that is passed. -/
def StepPassed (kind : OpKind) (n : Nat) (r : HoldRec) (closed : Bool) : Prop :=
  (kind, n) ∈ [(OpKind.breakOut, 8), (.breakOut, 11)] ∨
    (closed = false ∧ r = hung ∧ (kind, n) ∈ [(OpKind.makeUp, 2), (.makeUp, 4), (.breakOut, 2), (.breakOut, 6)])

/-- A step passed gives way to one that coasts. -/
theorem StepPassed.next {kind : OpKind} {n : Nat} {r : HoldRec} {closed : Bool} (h : StepPassed kind n r closed) :
    n < lastStep kind ∧ stepKind kind (nextStep kind r n) ≠ .release ∧ StepCoasts kind (nextStep kind r n) r closed := by
  unfold StepPassed at h
  simp only [List.mem_cons, Prod.mk.injEq, List.not_mem_nil, or_false] at h
  obtain (⟨rfl, rfl⟩ | ⟨rfl, rfl⟩) | ⟨rfl, rfl, ⟨rfl, rfl⟩ | ⟨rfl, rfl⟩ | ⟨rfl, rfl⟩ | ⟨rfl, rfl⟩⟩ := h
  · exact ⟨by decide, nofun, .inr (.inl rfl)⟩
  · exact ⟨by decide, nofun, .inr (.inl rfl)⟩
  all_goals exact ⟨by decide, by decide, .inr (.inr (.inr ⟨rfl, rfl, by decide⟩))⟩

/-- It only waits. -/
theorem StepPassed.waits {kind : OpKind} {n : Nat} {r : HoldRec} {closed : Bool} (h : StepPassed kind n r closed) :
    stepKind kind n ∈ [StepKind.waitPumps, .waitPosition, .grip] := by
  unfold StepPassed at h
  simp only [List.mem_cons, Prod.mk.injEq, List.not_mem_nil, or_false] at h
  obtain (⟨rfl, rfl⟩ | ⟨rfl, rfl⟩) | ⟨-, -, ⟨rfl, rfl⟩ | ⟨rfl, rfl⟩ | ⟨rfl, rfl⟩ | ⟨rfl, rfl⟩⟩ := h
  all_goals decide

/-- A step that coasts and has ended at its first phase is passed. -/
theorem StepCoasts.passed {s : State} {u : UnitRec} {r : HoldRec} (h : StepCoasts u.kind u.step r s.pins.clampClosed)
    (hready : s.firstReady u u.kindOfStep = true) : StepPassed u.kind u.step r s.pins.clampClosed := by
  obtain h | h | h | ⟨hclosed, hr, h⟩ := h
  · rw [show u.kindOfStep = .claim from h] at hready
    cases hready
  · obtain ⟨k, hk⟩ : ∃ k, u.kindOfStep = .spin k := by
      cases hkind : u.kindOfStep with
      | spin k => exact ⟨k, rfl⟩
      | _ => rw [show stepKind u.kind u.step = _ from hkind] at h; cases h
    rw [hk] at hready
    cases hready
  · exact .inl h
  · have hclamp : u.kindOfStep ≠ .clamp := fun hk => by
      rw [hk] at hready
      exact Bool.false_ne_true (hclosed.symm.trans hready)
    refine .inr ⟨hclosed, hr, ?_⟩
    simp only [List.mem_cons, List.not_mem_nil, or_false] at h ⊢
    obtain h | h | h | h | h | h := h
    · exact .inl h
    · exact .inr (.inl h)
    · obtain ⟨hkind, hstep⟩ := Prod.mk.inj h
      exact absurd (show stepKind u.kind u.step = .clamp by rw [hkind, hstep]; rfl) hclamp
    · exact .inr (.inr (.inl h))
    · exact .inr (.inr (.inr h))
    · obtain ⟨hkind, hstep⟩ := Prod.mk.inj h
      exact absurd (show stepKind u.kind u.step = .clamp by rw [hkind, hstep]; rfl) hclamp

/-- A running sequencer is at the first phase of a step that coasts. -/
def State.Coasting (y : State) : Prop :=
  y.seq.state = .running →
    ∃ u, y.ret.unit = some u ∧ y.seq.phase = .first ∧ StepCoasts u.kind u.step y.ret.hold y.pins.clampClosed

/-- `t` is `s` some steps of its unit on. -/
structure State.Coasted (s t : State) : Prop where
  ret : t.ret = { s.ret with unit := t.ret.unit, clampOut := t.ret.clampOut, gripOut := t.ret.gripOut }
  kind : t.ret.unit.map (·.kind) = s.ret.unit.map (·.kind)
  seq : t.seq = { s.seq with
    state := t.seq.state, phase := t.seq.phase, timer := t.seq.timer, spin := t.seq.spin, index := t.seq.index,
    present := t.seq.present, store := t.seq.store, retract := t.seq.retract }
  flags : (s.seq.present = false → t.seq.present = false) ∧ (s.seq.store = false → t.seq.store = false) ∧
    (s.seq.retract = false → t.seq.retract = false)

namespace State.Coasted

variable {s t u : State}

theorem refl (s : State) : s.Coasted s := ⟨rfl, rfl, rfl, id, id, id⟩

theorem last (k : t.Coasted u) (h : s.Coasted t) : s.Coasted u := by
  obtain ⟨hp, hs, hr⟩ := h.flags
  obtain ⟨kp, ks, kr⟩ := k.flags
  refine ⟨?_, k.kind.trans h.kind, ?_, kp ∘ hp, ks ∘ hs, kr ∘ hr⟩
  · rw [k.ret, h.ret]
  · rw [k.seq, h.seq]

theorem rests (h : s.Coasted t) : s.Rests t := by
  obtain ⟨hp, hs, hr⟩ := h.flags
  have hclaim : t.ret.claim = s.ret.claim := by rw [h.ret]
  refine ⟨?_, hp, hs, hr⟩
  rw [hclaim]
  exact h.ret

end State.Coasted

theorem State.Entered.coasted {s t : State} {u : UnitRec} {n : Nat} (h : s.Entered u n t) (hu : s.ret.unit = some u)
    (hkind : ({ u with step := n } : UnitRec).kindOfStep ≠ .release) : s.Coasted t := by
  obtain ⟨v, hv, hvkind, -⟩ := h.unit
  refine ⟨h.ret, ?_, ?_, h.flags.1, h.flags.2.1, fun hs => h.flags.2.2 hs hkind⟩
  · rw [hv, hu]
    exact congrArg some hvkind
  · rw [h.phase]
    exact h.seq

/-! ## The run -/

theorem seqRunFor_waiting {s : State} (h : s.seq.state ≠ .running ∨ s.phaseReady = false) (n : Nat) :
    s.seqRunFor n = s := by
  cases n with
  | zero => rfl
  | succ n =>
    refine if_neg fun hready => ?_
    obtain h | h := h
    · exact h hready.1
    · rw [h] at hready
      exact Bool.false_ne_true hready.2

theorem seqRunFor_ready {s : State} (hrun : s.seq.state = .running) (hready : s.phaseReady = true) (n : Nat) :
    s.seqRunFor (n + 1) = s.phaseDone.seqRunFor n := if_pos ⟨hrun, hready⟩

/-- A step that only waits ends without a change (R107). -/
theorem phaseDone_first {s : State} {u : UnitRec} (hu : s.ret.unit = some u) (hphase : s.seq.phase = .first)
    (hkind : u.kindOfStep ∈ [StepKind.waitPumps, .waitPosition, .grip]) :
    s.phaseDone = ({ s with seq := { s.seq with timer := none } } : State).stepEnds := by
  unfold State.phaseDone
  rw [hu]
  dsimp only
  rw [hphase]
  simp only [List.mem_cons, List.not_mem_nil, or_false] at hkind
  obtain h | h | h := hkind <;> rw [h]

theorem coasting_phaseDone {y : State} (h : y.Coasting) (hrun : y.seq.state = .running) (hready : y.phaseReady = true)
    (habort : y.seq.aborted = false) : y.phaseDone.Coasting ∧ y.Coasted y.phaseDone := by
  obtain ⟨u, hu, hphase, hcoasts⟩ := h hrun
  rw [phaseReady_first hu hphase] at hready
  have hpassed := hcoasts.passed hready
  obtain ⟨hlow, hrelease, hnext⟩ := hpassed.next
  obtain ⟨x, hx⟩ : ∃ x : State, x = { y with seq := { y.seq with timer := none } } := ⟨_, rfl⟩
  have hxu : x.ret.unit = some u := by rw [hx]; exact hu
  have hdone : y.phaseDone = x.enterStep (nextStep u.kind y.ret.hold u.step) := by
    rw [phaseDone_first hu hphase hpassed.waits, ← hx, stepEnds_goes hxu (by rw [hx]; exact habort) hlow, hx]
  have hentered := enterStep_entered hxu (nextStep u.kind y.ret.hold u.step)
  rw [← hdone] at hentered
  have hpins : y.phaseDone.pins = y.pins := (moves_phaseDone y).other.pins (by decide)
  have hyx : y.Coasted x := by
    rw [hx]
    exact ⟨rfl, rfl, rfl, id, id, id⟩
  have hcoasted := (hentered.coasted hxu hrelease).last hyx
  refine ⟨fun _ => ?_, hcoasted⟩
  obtain ⟨v, hv, hkind, hstep⟩ := hentered.unit
  have hhold : y.phaseDone.ret.hold = y.ret.hold := by rw [hcoasted.ret]
  refine ⟨v, hv, hentered.phase, ?_⟩
  rw [hhold, hpins, hkind, hstep]
  exact hnext

theorem seqRunFor_coasts (n : Nat) : ∀ {y : State}, y.Coasting → y.seq.aborted = false → y.Coasted (y.seqRunFor n) := by
  induction n with
  | zero => exact fun _ _ => .refl _
  | succ n ih =>
    intro y h habort
    by_cases hrun : y.seq.state = .running
    · by_cases hready : y.phaseReady = true
      · obtain ⟨hcoasting, hcoasted⟩ := coasting_phaseDone h hrun hready habort
        rw [seqRunFor_ready hrun hready]
        exact (ih hcoasting (by rw [hcoasted.seq]; exact habort)).last hcoasted
      · rw [seqRunFor_waiting (.inr (Bool.eq_false_iff.mpr hready))]
        exact .refl y
    · rw [seqRunFor_waiting (.inl hrun)]
      exact .refl y

/-! ## The end of a step, and what the sequencer does then -/

/-- `t` has the records of `s`, and its sequencer stands or coasts. -/
structure State.StepsOff (s t : State) : Prop where
  rests : s.Rests t
  coasting : t.Coasting
  marks : t.seq.state = .running → t.seq.aborted = false

theorem State.StepsOff.run {s t : State} (h : s.StepsOff t) (n : Nat) : s.Rests (t.seqRunFor n) := by
  by_cases hrun : t.seq.state = .running
  · exact (seqRunFor_coasts n h.coasting (h.marks hrun)).rests.last h.rests
  · rw [seqRunFor_waiting (.inl hrun)]
    exact h.rests

theorem stepsOff_of_stopped {s t : State} (h : s.Rests t) (hrun : t.seq.state ≠ .running) : s.StepsOff t :=
  ⟨h, fun k => absurd k hrun, fun k => absurd k hrun⟩

section

variable {s : State} {u : UnitRec} (hu : s.ret.unit = some u)

include hu

/-- An aborted step ends its unit, or is held with the step after it in hand (R120). -/
theorem stepEnds_aborted (habort : s.seq.aborted = true) : s.Rests s.stepEnds ∧ s.stepEnds.seq.state ≠ .running := by
  cases hsafe : s.safePoint with
  | true =>
    rw [stepEnds_safe hu habort hsafe]
    obtain ⟨hrests, hwaits⟩ := unitOver_waits (s.setLastOp u.kind .aborted none)
    exact ⟨hrests.last (rests_setLastOp s _ _ _), hwaits⟩
  | false =>
    rw [stepEnds_held hu habort hsafe]
    obtain ⟨x, hx⟩ : ∃ x : State, x = { s with ret := s.ret.stepOn, seq := { s.seq with phase := .first } } := ⟨_, rfl⟩
    have hundone : x.stepDone = false := by
      rw [hx]
      show (s.seq.state == .running && false && _) = false
      rw [Bool.and_false, Bool.false_and]
    rw [← hx]
    have hstop : x.seqHold .aborted = _ := seqStop_of_undone hundone (.hold .aborted)
    rw [hstop, hx]
    exact ⟨⟨rfl, fun _ => rfl, fun _ => rfl, fun _ => rfl⟩, SeqState.noConfusion⟩

/-- The last step of a unit, with the string hanging and the clamp open. -/
theorem stepEnds_last (habort : s.seq.aborted = false) (hlast : lastStep u.kind ≤ u.step) (hhold : s.ret.hold = hung)
    (hclosed : s.pins.clampClosed = false) : s.StepsOff s.stepEnds := by
  have hpins := (moves_stepEnds s).other.pins (by decide)
  have hbegun := begun_unitEnd s u
  rw [← stepEnds_over hu habort hlast] at hbegun
  refine ⟨hbegun.rests, fun hrun => ?_, fun _ => hbegun.marks.1⟩
  obtain ⟨-, hphase, v, hv, hstep⟩ := hbegun.waits hrun
  refine ⟨v, hv, hphase, ?_⟩
  have hstill : s.stepEnds.ret.hold = s.ret.hold := by rw [hbegun.rests.ret]
  rw [hstill, hhold, hpins, hclosed, hstep]
  refine .inr (.inr (.inr ⟨rfl, rfl, ?_⟩))
  cases v.kind <;> decide

/-- A step of a number entered that coasts. -/
theorem enterStep_coasts {n : Nat} (habort : s.seq.aborted = false) (hrelease : stepKind u.kind n ≠ .release)
    (hcoasts : StepCoasts u.kind n s.ret.hold s.pins.clampClosed) : s.StepsOff (s.enterStep n) := by
  have hentered := enterStep_entered hu n
  have hrests := hentered.rests hrelease
  refine ⟨hrests, fun _ => ?_, fun _ => by rw [hentered.seq]; exact habort⟩
  obtain ⟨v, hv, hkind, hstep⟩ := hentered.unit
  have hhold : (s.enterStep n).ret.hold = s.ret.hold := by rw [hrests.ret]
  refine ⟨v, hv, hentered.phase, ?_⟩
  rw [hhold, (moves_enterStep s n).other.pins (by decide), hkind, hstep]
  exact hcoasts

end

/-! ## Each step that changes the records -/

theorem stepKind_release {kind : OpKind} {n : Nat} (h : stepKind kind n = .release) :
    lastStep kind ≤ n ∨ (kind, n) ∈ [(OpKind.makeUp, 0), (.makeUp, 3), (.breakOut, 0), (.breakOut, 5)] := by
  by_cases hn : n ≤ 13
  · interval_cases n <;> cases kind <;> revert h <;> decide
  · refine .inl ?_
    cases kind
    · show 10 ≤ n
      omega
    · show 13 ≤ n
      omega

theorem stepKind_of_lt {kind : OpKind} {n : Nat} {k : StepKind} (h : stepKind kind n = k) (hk : k ≠ .release) : n ≤ 12 := by
  by_contra hn
  obtain ⟨m, rfl⟩ : ∃ m, n = m + 13 := ⟨n - 13, by omega⟩
  cases kind <;> exact hk h.symm

section

variable {s : State} {u : UnitRec} (hu : s.ret.unit = some u)

include hu

/-- The end of a RELEASE step: the string hangs, and the clamp is open. -/
theorem stepEnds_release (hk : u.kindOfStep = .release) (hhold : s.ret.hold = hung) (hclosed : s.pins.clampClosed = false) :
    s.StepsOff s.stepEnds := by
  cases habort : s.seq.aborted with
  | true =>
    obtain ⟨hrests, hstops⟩ := stepEnds_aborted hu habort
    exact stepsOff_of_stopped hrests hstops
  | false =>
    obtain hlast | hstep := stepKind_release hk
    · exact stepEnds_last hu habort hlast hhold hclosed
    · have hnext : u.step < lastStep u.kind ∧ stepKind u.kind (nextStep u.kind hung u.step) ≠ .release ∧
          StepCoasts u.kind (nextStep u.kind hung u.step) hung false := by
        simp only [List.mem_cons, Prod.mk.injEq, List.not_mem_nil, or_false] at hstep
        obtain ⟨hkind, hn⟩ | ⟨hkind, hn⟩ | ⟨hkind, hn⟩ | ⟨hkind, hn⟩ := hstep <;> rw [hkind, hn]
        · exact ⟨by decide, by decide, .inl rfl⟩
        · exact ⟨by decide, by decide, .inr (.inr (.inr ⟨rfl, rfl, by decide⟩))⟩
        · exact ⟨by decide, by decide, .inl rfl⟩
        · exact ⟨by decide, by decide, .inr (.inr (.inr ⟨rfl, rfl, by decide⟩))⟩
      obtain ⟨hlow, hrelease, hcoasts⟩ := hnext
      rw [stepEnds_goes hu habort hlow, hhold]
      exact enterStep_coasts hu habort hrelease (by rw [hhold, hclosed]; exact hcoasts)

/-- The end of a step whose next one waits or is passed, whatever the clamp. -/
theorem stepEnds_next {m : Nat} (hlow : u.step < lastStep u.kind) (hnext : nextStep u.kind s.ret.hold u.step = m)
    (hrelease : stepKind u.kind m ≠ .release) (hcoasts : StepCoasts u.kind m s.ret.hold s.pins.clampClosed) :
    s.StepsOff s.stepEnds := by
  cases habort : s.seq.aborted with
  | true =>
    obtain ⟨hrests, hstops⟩ := stepEnds_aborted hu habort
    exact stepsOff_of_stopped hrests hstops
  | false =>
    rw [stepEnds_goes hu habort hlow, hnext]
    exact enterStep_coasts hu habort hrelease hcoasts

end

end Sys2Proof.Machine

/-! The events of a step's end (O57, O58): the frames handed, the records changed, and where the head stands. -/

namespace Sys2Proof.Machine

open Host

/-! ## Frames that wait outside a full queue (R9) -/

theorem handOver_rodWait (e : LinkEnv) (q : QueueId) (f : TxFrame) (l : Link) :
    ∃ w, (l.handOver e q f).rodWait = l.rodWait ++ w := by
  have hstays : ∀ {l' : Link}, l'.rodWait = l.rodWait → ∃ w, l'.rodWait = l.rodWait ++ w := fun h =>
    ⟨[], h.trans (List.append_nil _).symm⟩
  have hplain : ∀ q, ∃ w, (l.handPlain e q f).rodWait = l.rodWait ++ w := fun q => by
    unfold Link.handPlain
    split
    · exact hstays ((settle_rodWait e _).trans (setQueue_rodWait _ _ _))
    · exact hstays rfl
  unfold Link.handOver
  split
  · exact hstays rfl
  · split
    · unfold Link.handUrgent
      split
      · exact hstays rfl
      · split
        · exact ⟨_, rfl⟩
        · split
          · exact hstays (settle_rodWait e _)
          · split
            · exact ⟨_, rfl⟩
            · rw [record_eq]
              exact hstays rfl
    · cases q with
      | rig =>
        show ∃ w, (l.handRig e f).rodWait = l.rodWait ++ w
        unfold Link.handRig
        split
        · exact hstays rfl
        · split
          · exact ⟨_, rfl⟩
          · split
            · exact hstays (settle_rodWait e _)
            · split
              · exact hstays (settle_rodWait e _)
              · split
                · exact ⟨_, rfl⟩
                · exact hstays rfl
      | urgent => exact hplain _
      | exchange => exact hplain _
      | bulk => exact hplain _

/-- What events handed make of a link unit: they are carried, those that waited still wait, and with room none waits. -/
structure Link.Told (l l' : Link) (es : List TxFrame) : Prop where
  carries : l.listenOnly = false → ∀ e ∈ es, l'.Carries e
  waits : l.rodWait ≠ [] → l'.rodWait ≠ []
  room : l.Slack 2 → l'.rodWait = []

theorem told_none (l : Link) : l.Told l [] := ⟨fun _ _ h => (List.not_mem_nil h).elim, id, Link.Slack.wait⟩

section

variable (e : LinkEnv) (f : TxFrame) {l : Link}

theorem waits_handOver (q : QueueId) (h : l.rodWait ≠ []) : (l.handOver e q f).rodWait ≠ [] := by
  obtain ⟨w, hw⟩ := handOver_rodWait e q f l
  rw [hw]
  exact List.append_ne_nil_of_left_ne_nil h w

theorem told_event (hf : f.kind = .rodEvent) : l.Told (l.handOver e .rig f) [f] :=
  ⟨fun hl g hg => by rw [List.mem_singleton.mp hg]; exact carries_handed_event hl hf e,
    waits_handOver e f .rig, fun h => (slack_handOver h e .rig).wait⟩

theorem told_events {e' : LinkEnv} {f' : TxFrame} (hf : f.kind = .rodEvent) (hf' : f'.kind = .rodEvent) :
    l.Told ((l.handOver e .rig f).handOver e' .rig f') [f, f'] := by
  refine ⟨fun hl g hg => ?_, fun h => waits_handOver e' f' .rig (waits_handOver e f .rig h),
    fun h => (slack_handOver (slack_handOver h e .rig) e' .rig).wait⟩
  obtain rfl | hg := List.mem_cons.mp hg
  · exact carriesOn_handOver e' f' _ .rig g (by rw [hf]; rfl) (carries_handed_event hl hf e)
  · rw [List.mem_singleton.mp hg]
    exact carries_handed_event ((handOver_listenOnly e .rig f l).trans hl) hf' e'

end

/-- ALARM frames after the events take none of it back. -/
theorem Link.Told.alarming {l a b : Link} {es : List TxFrame} (h : l.Told a es) (hes : ∀ e ∈ es, e.kind.merges = false)
    (hwait : b.rodWait = a.rodWait) (hon : a.CarriesOn b) : l.Told b es :=
  ⟨fun hl e he => hon e (hes e he) (h.carries hl e he), fun hw => by rw [hwait]; exact h.waits hw,
    fun hs => hwait.trans (h.room hs)⟩

/-! ## The event of a change -/

/-- A ROD_EVENT frame with the records it tells of. -/
def State.eventFrame (s : State) (n : Nat) (kind : RodEventKind) (rod slot : Option Nat) (string : List Nat)
    (hold : HoldRec) : TxFrame :=
  ⟨.rodEvent, 31, s.cfg Item.kindClass FrameKind.rodEvent.code == 0, none,
    encodeRodEvent ⟨n, kind, rod, slot, none, string.length, s.lengthOf string, hold⟩, 0, 0, none⟩

/-- Lengths and classes are those of the items and the rods' types. -/
theorem eventFrame_congr {s t : State} (hitems : t.ret.items = s.ret.items)
    (hlength : ∀ id, t.rodLength id = s.rodLength id) (n : Nat) (kind : RodEventKind) (rod slot : Option Nat) (string : List Nat)
    (hold : HoldRec) : t.eventFrame n kind rod slot string hold = s.eventFrame n kind rod slot string hold := by
  have hlen : t.rodLength = s.rodLength := funext hlength
  unfold State.eventFrame State.lengthOf State.cfg
  rw [hitems, hlen]

theorem makeEvent_eq (s : State) (kind : RodEventKind) (rod slot : Option Nat) :
    ∃ e, s.makeEvent kind rod slot none = { s with
      ret := { s.ret with eventNo := (s.ret.eventNo + 1) % 65536 }
      link := s.link.handOver e .rig
        (s.eventFrame ((s.ret.eventNo + 1) % 65536) kind rod slot s.ret.string s.ret.hold) } := ⟨_, rfl⟩

/-! ## Where the head stands -/

theorem headNear_congr {s t : State} (hret : t.ret.turns = s.ret.turns ∧ t.ret.spinTurns = s.ret.spinTurns)
    (hhead : SameHead s.depth t.depth) (hstraps : t.straps = s.straps) (hpeers : t.peers = s.peers) (target : Nat) :
    t.headNear target = s.headNear target := by
  obtain ⟨hsource, hh, hknown, hrpm⟩ := hhead
  unfold State.headNear State.headPosition State.headValues State.peer?
  rw [hsource, hh, hknown, hrpm, hret.1, hret.2, hstraps, hpeers]

theorem sameHead_depthFollows (s before : State) : SameHead s.depth (s.depthFollows before).depth := by
  unfold State.depthFollows
  split
  · exact .refl _
  · by_cases hrun : s.inRun = true
    · rw [recomputeDepth_depth hrun]
      exact ⟨rfl, rfl, rfl, rfl⟩
    · rw [show s.recomputeDepth = s from if_neg hrun]
      exact .refl _

/-! ## The hold record changed (R95, R96) -/

/-- What the end of a step changes: the records, with their events; the head stands where it did. -/
structure State.Changes (s : State) (r : Retained) (es : List TxFrame) (x : State) : Prop where
  keeps : s.ret.unit = x.ret.unit ∧ x.Keeps r
  hold : x.ret.hold = r.hold
  string : x.ret.string = r.string
  told : s.link.Told x.link es
  near : ∀ target, x.headNear target = s.headNear target
  lengths : ∀ id, x.rodLength id = s.rodLength id
  items : x.ret.items = s.ret.items
  pins : x.pins = s.pins
  claim : x.ret.claim = s.ret.claim
  mode : x.mode = s.mode

theorem changeHold_changes (s : State) (r : HoldRec) :
    s.Changes { s.ret with hold := r, eventNo := (s.ret.eventNo + 1) % 65536 }
      [s.eventFrame ((s.ret.eventNo + 1) % 65536) .holdChanged none none s.ret.string r] (s.changeHold r) := by
  obtain ⟨e, he⟩ := makeEvent_eq { s with ret := { s.ret with hold := r } } .holdChanged none none
  obtain ⟨x, hx⟩ : ∃ x : State, x = { s with
    ret := { s.ret with hold := r, eventNo := (s.ret.eventNo + 1) % 65536 }
    link := s.link.handOver e .rig
      (s.eventFrame ((s.ret.eventNo + 1) % 65536) .holdChanged none none s.ret.string r) } := ⟨_, rfl⟩
  have hchange : s.changeHold r = x.depthFollows s := by
    rw [hx]
    exact congrArg (State.depthFollows · s) he
  have hdeepens := deepens_depthFollows x s
  have hother := (moves_depthFollows x s).other
  have hret : x.ret = { s.ret with hold := r, eventNo := (s.ret.eventNo + 1) % 65536 } := by rw [hx]
  rw [hchange]
  rw [hret] at hdeepens
  have hturns : (x.depthFollows s).ret.turns = s.ret.turns ∧ (x.depthFollows s).ret.spinTurns = s.ret.spinTurns := by
    unfold Retained.Deepens at hdeepens
    rw [hdeepens]
    exact ⟨rfl, rfl⟩
  refine ⟨⟨hdeepens.unit.symm, keeps_of_deepens hdeepens⟩, hdeepens.hold, hdeepens.string, ?_, fun target => ?_, fun id => ?_,
    hdeepens.items, ?_, ?_, hother.mode.trans (by rw [hx])⟩
  · have htold : s.link.Told x.link [s.eventFrame ((s.ret.eventNo + 1) % 65536) .holdChanged none none s.ret.string r] := by
      rw [hx]
      exact told_event e _ rfl
    refine htold.alarming (fun e he => ?_) (wait_alarming.depthFollows x s) (walk_carriesOn.depthFollows x s)
    rw [List.mem_singleton.mp he]
    rfl
  · have hhead : SameHead s.depth (x.depthFollows s).depth := by
      have h := sameHead_depthFollows x s
      rw [show x.depth = s.depth by rw [hx]] at h
      exact h
    exact headNear_congr hturns hhead (hother.straps.trans (by rw [hx])) ((hother.peers (by decide)).trans (by rw [hx])) target
  · unfold State.rodLength State.typeLength State.cfg
    rw [hdeepens.rods, hdeepens.items]
  · exact (hother.pins (by decide)).trans (by rw [hx])
  · unfold Retained.Deepens at hdeepens
    rw [hdeepens]

end Sys2Proof.Machine

/-! The step that an input ends (O57): its records, its events, and the step after it. -/

namespace Sys2Proof.Machine

open Host

/-! ## A step entered that waits -/

section

variable {s : State} {u : UnitRec} (hu : s.ret.unit = some u) (n : Nat)

include hu

/-- A SPIN step waits for its spin. -/
theorem enterStep_spin_waits (hk : (stepKind u.kind n).isSpin = true) : (s.enterStep n).phaseReady = false := by
  have hentered := enterStep_entered hu n
  obtain ⟨v, hv, hkind, hstep⟩ := hentered.unit
  have hspin : v.kindOfStep = stepKind u.kind n := by
    unfold UnitRec.kindOfStep
    rw [hkind, hstep]
  rw [phaseReady_first hv hentered.phase, hspin]
  cases hkn : stepKind u.kind n with
  | spin k => rfl
  | _ => rw [hkn] at hk; cases hk

/-- WAIT_POSITION entered where it selects nothing. -/
theorem enterStep_position (hk : stepKind u.kind n = .waitPosition) (hplain : ¬(u.kind = .makeUp ∧ n = 7)) :
    s.enterStep n = (s.freshStep { u with step := n }).startTimer 60000 := by
  rw [enterStep_eq hu, show ({ u with step := n } : UnitRec).kindOfStep = .waitPosition from hk]
  exact if_neg hplain

theorem enterStep_position_waits (hk : stepKind u.kind n = .waitPosition) (hplain : ¬(u.kind = .makeUp ∧ n = 7))
    (hfar : s.headNear (s.targetHeight { u with step := n }) = false) : (s.enterStep n).phaseReady = false := by
  rw [enterStep_position hu n hk hplain,
    phaseReady_first (u := { u with step := n }) rfl rfl, show ({ u with step := n } : UnitRec).kindOfStep = .waitPosition from hk]
  exact hfar

theorem enterStep_grip_waits (hk : stepKind u.kind n = .grip) (hopen : s.pins.gripped = false) :
    (s.enterStep n).phaseReady = false := by
  rw [enterStep_eq hu, show ({ u with step := n } : UnitRec).kindOfStep = .grip from hk,
    phaseReady_first (u := { u with step := n }) rfl rfl, show ({ u with step := n } : UnitRec).kindOfStep = .grip from hk]
  exact hopen

end

/-! ## A step whose frames are to join (R9) -/

/-- The step waits for its frames, or the sequencer goes on. -/
theorem run_ending {y x : State} {u : UnitRec} (hrun : y.seq.state = .running) (hready : y.phaseReady = true)
    (hdone : y.phaseDone = x.ending) (hxrun : x.seq.state = .running) (hu : x.ret.unit = some u) :
    (x.link.rodWait ≠ [] → y.seqRun = x.ending) ∧
      (x.link.rodWait = [] → y.seqRun = x.ending.stepEnds.seqRunFor 38) := by
  have hfirst : y.seqRun = x.ending.seqRunFor 39 := by
    rw [← hdone]
    exact seqRunFor_ready hrun hready 39
  have hending : x.ending.phaseReady = x.link.rodWait.isEmpty := by
    unfold State.phaseReady
    rw [show x.ending.ret.unit = some u from hu]
    rfl
  have hover : x.ending.phaseDone = x.ending.stepEnds := by
    unfold State.phaseDone
    rw [show x.ending.ret.unit = some u from hu]
    rfl
  refine ⟨fun hwait => ?_, fun hnone => ?_⟩
  · rw [hfirst]
    exact seqRunFor_waiting (.inr (hending.trans (List.isEmpty_eq_false_iff.mpr hwait))) 39
  · rw [hfirst, seqRunFor_ready (s := x.ending) hxrun (hending.trans (by rw [hnone]; rfl)) 38, hover]

/-- The end of a step as its input brings it about: `x` is the station with the records changed, at the end of the step. -/
structure State.StepEnded (s : State) (p : Pins) (r : Retained) (es : List TxFrame) (u : UnitRec) (x t : State) : Prop where
  pins : t.pins = p
  keeps : t.Keeps r
  present : x.seq.present = false → t.seq.present = false
  store : x.seq.store = false → t.seq.store = false
  retract : x.seq.retract = false → t.seq.retract = false
  holds : s.link.listenOnly = false → ∀ e ∈ es, t.link.Holds e
  waits : es ≠ [] → s.link.rodWait ≠ [] → t.seq.state = .running ∧ t.seq.phase = .ending ∧ t.ret.unit = some u
  changes : ChangesOnly [.pins, .ret, .claims, .pumps, .spin, .depth, .link, .seq, .alarm] s t
  goes : ∀ m, s.link.Roomy → x.stepEnds = x.enterStep m → (x.enterStep m).phaseReady = false →
    t.ret.unit.map (·.step) = some m

theorem keeps_rests {x z : State} {r : Retained} (h : x.Keeps r) (hz : x.Rests z) : z.Keeps r := by
  have hret := hz.ret
  unfold State.Keeps at h ⊢
  rw [hret, h]

section

variable {s x : State} {c : Instr} {p : Pins} {r : Retained} {es : List TxFrame} {u : UnitRec}

theorem stepEnded_of_ending (hmode : s.mode = .run)
    (hexec : exec c s = .next (({ s with pins := p } : State).inRunDo State.seqRun)) (hrun : s.seq.state = .running)
    (hready : ({ s with pins := p } : State).phaseReady = true)
    (hdone : ({ s with pins := p } : State).phaseDone = x.ending) (hu : s.ret.unit = some u)
    (hx : ({ s with pins := p } : State).Changes r es x) (hxrun : x.seq.state = .running)
    (hes : ∀ e ∈ es, e.kind.merges = false) (hoff : x.ending.StepsOff x.ending.stepEnds) :
    ∃ z, exec c s = .next (s.finish z) ∧ z.pending = s.pending ∧ (x.link.rodWait ≠ [] → z = x.ending) ∧
      (x.link.rodWait = [] → z = x.ending.stepEnds.seqRunFor 38) ∧ s.StepEnded p r es u x.ending (s.finish z) := by
  obtain ⟨hunit, hkeeps⟩ := hx.keeps
  have hxu : x.ret.unit = some u := hunit.symm.trans hu
  obtain ⟨hwaits, hgoes⟩ := run_ending (y := { s with pins := p }) hrun hready hdone hxrun hxu
  obtain ⟨z, hz⟩ : ∃ z, z = ({ s with pins := p } : State).seqRun := ⟨_, rfl⟩
  have hending : x.Rests x.ending := ⟨rfl, id, id, id⟩
  have hrests : x.Rests z := by
    by_cases hwait : x.link.rodWait = []
    · rw [hz, hgoes hwait]
      exact (hoff.run 38).last hending
    · rw [hz, hwaits hwait]
      exact hending
  have hon : x.link.CarriesOn z.link := by
    by_cases hwait : x.link.rodWait = []
    · rw [hz, hgoes hwait]
      exact walk_carriesOn.last (walk_carriesOn.seqRunFor 38 _) (walk_carriesOn.stepEnds x.ending)
    · rw [hz, hwaits hwait]
      exact .refl _
  have hmoves : LeavesOther (.pins :: seqParts) s z := by
    rw [hz]
    exact (moves_pins s p).other.after (moves_seqRun _).other (by decide) (by decide)
  have hrest := finish_rest s z hmoves.pending
  have hret := hrest.ret (by decide)
  have hseq := hrest.seq (by decide)
  obtain ⟨hother, himages, houts⟩ := finish_changes s z hmoves
  refine ⟨z, exec_pins hmode hexec hz.symm, hmoves.pending, fun hwait => hz.trans (hwaits hwait), fun hwait => hz.trans (hgoes hwait), ?_, ?_,
    fun h => ?_, fun h => ?_, fun h => ?_, fun hl e he => ?_, fun _ hwait => ?_, ⟨hother.mono (by decide), himages, houts⟩,
    fun m hroomy hm hstands => ?_⟩
  · rw [hrest.pins (by decide), hz, (moves_seqRun _).other.pins (by decide)]
  · unfold State.Keeps
    rw [hret]
    exact keeps_rests hkeeps hrests
  · rw [hseq]
    exact hrests.present h
  · rw [hseq]
    exact hrests.store h
  · rw [hseq]
    exact hrests.retract h
  · exact (carriesOn_finish s z e (hes e he) (hon e (hes e he) (hx.told.carries hl e he))).holds
  · rw [hret, hseq, hz.trans (hwaits (hx.told.waits hwait))]
    exact ⟨hxrun, rfl, hxu⟩
  · have hnone := hx.told.room hroomy.slack
    have hentered := enterStep_entered (s := x.ending) hxu m
    obtain ⟨v, hv, -, hstep⟩ := hentered.unit
    rw [hret, hz.trans (hgoes hnone), hm, seqRunFor_waiting (.inr hstands), hv]
    exact congrArg some hstep

end

/-! ## A step that ends at once -/

theorem stepEnded_at_once {s x : State} {c : Instr} {p : Pins} {r : Retained} {u : UnitRec} (hmode : s.mode = .run)
    (hexec : exec c s = .next (({ s with pins := p } : State).inRunDo State.seqRun)) (hrun : s.seq.state = .running)
    (hready : ({ s with pins := p } : State).phaseReady = true)
    (hdone : ({ s with pins := p } : State).phaseDone = x.stepEnds) (hxu : x.ret.unit = some u) (hkeeps : x.Keeps r)
    (hoff : x.StepsOff x.stepEnds) :
    ∃ z, exec c s = .next (s.finish z) ∧ z = x.stepEnds.seqRunFor 39 ∧ s.StepEnded p r [] u x (s.finish z) := by
  obtain ⟨z, hz⟩ : ∃ z, z = ({ s with pins := p } : State).seqRun := ⟨_, rfl⟩
  have hgoes : z = x.stepEnds.seqRunFor 39 := by
    rw [hz, ← hdone]
    exact seqRunFor_ready (s := { s with pins := p }) hrun hready 39
  have hrests : x.Rests z := by
    rw [hgoes]
    exact hoff.run 39
  have hmoves : LeavesOther (.pins :: seqParts) s z := by
    rw [hz]
    exact (moves_pins s p).other.after (moves_seqRun _).other (by decide) (by decide)
  have hrest := finish_rest s z hmoves.pending
  have hret := hrest.ret (by decide)
  have hseq := hrest.seq (by decide)
  obtain ⟨hother, himages, houts⟩ := finish_changes s z hmoves
  refine ⟨z, exec_pins hmode hexec hz.symm, hgoes, ?_, ?_, fun h => ?_, fun h => ?_, fun h => ?_,
    fun _ e he => (List.not_mem_nil he).elim, fun hnone => absurd rfl hnone,
    ⟨hother.mono (by decide), himages, houts⟩, fun m _ hm hstands => ?_⟩
  · rw [hrest.pins (by decide), hz, (moves_seqRun _).other.pins (by decide)]
  · unfold State.Keeps
    rw [hret]
    exact keeps_rests hkeeps hrests
  · rw [hseq]
    exact hrests.present h
  · rw [hseq]
    exact hrests.store h
  · rw [hseq]
    exact hrests.retract h
  · have hentered := enterStep_entered (s := x) hxu m
    obtain ⟨v, hv, -, hstep⟩ := hentered.unit
    rw [hret, hgoes, hm, seqRunFor_waiting (.inr hstands), hv]
    exact congrArg some hstep

/-! ## CLAMP and RELEASE (R110) -/

theorem phaseDone_clamp {y : State} {u : UnitRec} (hu : y.ret.unit = some u) (hphase : y.seq.phase ≠ .ending)
    (hk : u.kindOfStep = .clamp) :
    y.phaseReady = y.pins.clampClosed ∧
      y.phaseDone = (y.changeHold ⟨.clamped, .latched, u.kind == .breakOut⟩).ending := by
  unfold State.phaseReady State.phaseDone
  rw [hu]
  dsimp only
  rw [hk]
  cases h : y.seq.phase with
  | ending => exact absurd h hphase
  | first => exact ⟨rfl, rfl⟩
  | second => exact ⟨rfl, rfl⟩

theorem phaseDone_release {y : State} {u : UnitRec} (hu : y.ret.unit = some u) (hphase : y.seq.phase ≠ .ending)
    (hk : u.kindOfStep = .release) :
    y.phaseReady = y.pins.clampOpen ∧
      y.phaseDone = (({ y with seq := { y.seq with retract := false } } : State).changeHold hung).ending := by
  unfold State.phaseReady State.phaseDone
  rw [hu]
  dsimp only
  rw [hk]
  cases h : y.seq.phase with
  | ending => exact absurd h hphase
  | first => exact ⟨rfl, rfl⟩
  | second => exact ⟨rfl, rfl⟩

theorem stepKind_clamp {kind : OpKind} {n : Nat} (h : stepKind kind n = .clamp) :
    (kind = .makeUp ∧ n = 5) ∨ (kind = .breakOut ∧ n = 7) := by
  have hn := stepKind_of_lt h (by decide)
  interval_cases n <;> cases kind <;> revert h <;> decide

/-- After a CLAMP: UNLATCH of a make-up, GRIP of a break-out. -/
theorem clamp_next {kind : OpKind} {n : Nat} (h : stepKind kind n = .clamp) (closed : Bool) :
    n < lastStep kind ∧ nextStep kind ⟨.clamped, .latched, kind == .breakOut⟩ n = n + 1 ∧
      stepKind kind (n + 1) ≠ .release ∧ StepCoasts kind (n + 1) ⟨.clamped, .latched, kind == .breakOut⟩ closed := by
  obtain ⟨rfl, rfl⟩ | ⟨rfl, rfl⟩ := stepKind_clamp h
  · exact ⟨by decide, rfl, by decide, .inr (.inl rfl)⟩
  · exact ⟨by decide, rfl, by decide, .inr (.inr (.inl (by decide)))⟩

section

variable {s : State} {u : UnitRec} (hmode : s.mode = .run) (hrun : s.seq.state = .running) (hphase : s.seq.phase ≠ .ending)
  (hu : s.ret.unit = some u)

include hmode hrun hphase hu

/-- CLAMP_CLOSED at a CLAMP step. -/
theorem clamp_ended (hk : u.kindOfStep = .clamp) :
    ∃ x z, exec (.clampClosed true) s = .next (s.finish z) ∧ z.pending = s.pending ∧
      s.StepEnded { s.pins with clampClosed := true }
        { s.ret with hold := ⟨.clamped, .latched, u.kind == .breakOut⟩, eventNo := (s.ret.eventNo + 1) % 65536 }
        [s.eventFrame ((s.ret.eventNo + 1) % 65536) .holdChanged none none s.ret.string
          ⟨.clamped, .latched, u.kind == .breakOut⟩] u x.ending (s.finish z) ∧
      ({ s with pins := { s.pins with clampClosed := true } } : State).Changes
        { s.ret with hold := ⟨.clamped, .latched, u.kind == .breakOut⟩, eventNo := (s.ret.eventNo + 1) % 65536 }
        [s.eventFrame ((s.ret.eventNo + 1) % 65536) .holdChanged none none s.ret.string
          ⟨.clamped, .latched, u.kind == .breakOut⟩] x ∧
      x.seq = s.seq ∧ (x.link.rodWait = [] → z = x.ending.stepEnds.seqRunFor 38) := by
  obtain ⟨y, hy⟩ : ∃ y : State, y = { s with pins := { s.pins with clampClosed := true } } := ⟨_, rfl⟩
  have hyu : y.ret.unit = some u := by rw [hy]; exact hu
  have hyphase : y.seq.phase ≠ .ending := by rw [hy]; exact hphase
  obtain ⟨hready, hdone⟩ := phaseDone_clamp hyu hyphase hk
  have hchanges := changeHold_changes y ⟨.clamped, .latched, u.kind == .breakOut⟩
  have hother := (moves_changeHold y ⟨.clamped, .latched, u.kind == .breakOut⟩).other
  obtain ⟨x, hx⟩ : ∃ x, x = y.changeHold ⟨.clamped, .latched, u.kind == .breakOut⟩ := ⟨_, rfl⟩
  rw [← hx] at hchanges hother hdone
  have hxu : x.ret.unit = some u := hchanges.keeps.1.symm.trans hyu
  have hseq : x.seq = s.seq := by rw [hother.seq (by decide), hy]
  obtain ⟨hlow, hnext, hrelease, hcoasts⟩ := clamp_next (kind := u.kind) (n := u.step) hk x.pins.clampClosed
  have hhold : x.ret.hold = ⟨.clamped, .latched, u.kind == .breakOut⟩ := hchanges.hold
  rw [← hhold] at hnext hcoasts
  have hoff := stepEnds_next (s := x.ending) hxu hlow hnext hrelease hcoasts
  subst hy
  obtain ⟨z, hexec, hpending, -, hgoes, hended⟩ := stepEnded_of_ending (c := .clampClosed true) hmode rfl hrun hready hdone hu
    hchanges (by rw [hseq]; exact hrun) (fun e he => by rw [List.mem_singleton.mp he]; rfl) hoff
  exact ⟨x, z, hexec, hpending, hended, hchanges, hseq, hgoes⟩

end

end Sys2Proof.Machine

/-! RELEASE, FETCH, STORE and GRIP ended by their inputs (O57, O58). -/

namespace Sys2Proof.Machine

open Host

theorem State.Changes.of_seq {s x : State} {r : Retained} {es : List TxFrame} {q : Sequencer}
    (h : ({ s with seq := q } : State).Changes r es x) : s.Changes r es x :=
  ⟨h.keeps, h.hold, h.string, h.told, h.near, h.lengths, h.items, h.pins, h.claim, h.mode⟩

theorem State.Changes.cfg {s x : State} {r : Retained} {es : List TxFrame} (h : s.Changes r es x) (item index : Nat) :
    x.cfg item index = s.cfg item index := by
  unfold State.cfg
  rw [h.items]

/-- The next step waits for a position the head is not near. -/
theorem position_waits {x : State} {u : UnitRec} {n : Nat} (hu : x.ret.unit = some u)
    (hn : (u.kind, n) ∈ [(OpKind.makeUp, 4), (.breakOut, 6), (.breakOut, 11)])
    (hfar : x.headNear (x.cfg Item.clampHeight 0 + if (u.kind, n) = (.breakOut, 6) then x.topLength else 0) = false) :
    (x.enterStep n).phaseReady = false := by
  simp only [List.mem_cons, Prod.mk.injEq, List.not_mem_nil, or_false] at hn hfar
  have hposition : stepKind u.kind n = .waitPosition ∧ ¬(u.kind = .makeUp ∧ n = 7) ∧
      x.targetHeight { u with step := n } =
        x.cfg Item.clampHeight 0 + if u.kind = .breakOut ∧ n = 6 then x.topLength else 0 := by
    unfold State.targetHeight
    dsimp only
    obtain ⟨hkind, rfl⟩ | ⟨hkind, rfl⟩ | ⟨hkind, rfl⟩ := hn <;> rw [hkind]
    · exact ⟨rfl, by decide, rfl⟩
    · exact ⟨rfl, by decide, rfl⟩
    · exact ⟨rfl, by decide, rfl⟩
  obtain ⟨hk, hplain, htarget⟩ := hposition
  refine enterStep_position_waits hu n hk hplain ?_
  rw [htarget]
  exact hfar

section

variable {s : State} {u : UnitRec} (hmode : s.mode = .run) (hrun : s.seq.state = .running) (hphase : s.seq.phase ≠ .ending)
  (hu : s.ret.unit = some u)

include hmode hrun hphase hu

/-- CLAMP_OPEN at a RELEASE step, the clamp no longer closed. -/
theorem release_ended (hk : u.kindOfStep = .release) (hclosed : s.pins.clampClosed = false) :
    ∃ x z, exec (.clampOpen true) s = .next (s.finish z) ∧ z.pending = s.pending ∧
      s.StepEnded { s.pins with clampOpen := true }
        { s.ret with hold := hung, eventNo := (s.ret.eventNo + 1) % 65536 }
        [s.eventFrame ((s.ret.eventNo + 1) % 65536) .holdChanged none none s.ret.string hung] u x.ending (s.finish z) ∧
      ({ s with pins := { s.pins with clampOpen := true } } : State).Changes
        { s.ret with hold := hung, eventNo := (s.ret.eventNo + 1) % 65536 }
        [s.eventFrame ((s.ret.eventNo + 1) % 65536) .holdChanged none none s.ret.string hung] x ∧
      x.seq = { s.seq with retract := false } ∧ (x.link.rodWait = [] → z = x.ending.stepEnds.seqRunFor 38) := by
  obtain ⟨w, hw⟩ : ∃ w : State, w = { s with pins := { s.pins with clampOpen := true } } := ⟨_, rfl⟩
  obtain ⟨y, hy⟩ : ∃ y : State, y = { w with seq := { w.seq with retract := false } } := ⟨_, rfl⟩
  have hwu : w.ret.unit = some u := by rw [hw]; exact hu
  obtain ⟨hready, hdone⟩ := phaseDone_release (y := w) hwu (by rw [hw]; exact hphase) hk
  have hchanges := changeHold_changes y hung
  have hother := (moves_changeHold y hung).other
  obtain ⟨x, hx⟩ : ∃ x, x = y.changeHold hung := ⟨_, rfl⟩
  rw [← hy, ← hx] at hdone
  rw [← hx] at hchanges hother
  have hxu : x.ret.unit = some u := hchanges.keeps.1.symm.trans (by rw [hy]; exact hwu)
  have hseq : x.seq = { s.seq with retract := false } := by rw [hother.seq (by decide), hy, hw]
  have hpins : x.pins.clampClosed = false := by
    rw [hchanges.pins, hy, hw]
    exact hclosed
  have hoff := stepEnds_release (s := x.ending) hxu hk hchanges.hold hpins
  subst hy
  replace hchanges := hchanges.of_seq
  subst hw
  obtain ⟨z, hexec, hpending, -, hgoes, hended⟩ := stepEnded_of_ending (c := .clampOpen true) hmode rfl hrun hready hdone hu hchanges
    (by rw [hseq]; exact hrun) (fun e he => by rw [List.mem_singleton.mp he]; rfl) hoff
  exact ⟨x, z, hexec, hpending, hended, hchanges, hseq, hgoes⟩

/-- GRIPPED at a GRIP step. -/
theorem grip_ended (hk : u.kindOfStep = .grip) :
    ∃ x z, exec (.gripped true) s = .next (s.finish z) ∧
      s.StepEnded { s.pins with gripped := true } s.ret [] u x (s.finish z) ∧
      x.ret.unit = some u ∧ x.seq.aborted = s.seq.aborted ∧
      (x.seq.aborted = false → x.stepEnds = x.enterStep 9) := by
  obtain ⟨hkind, hstep⟩ : u.kind = .breakOut ∧ u.step = 8 := by
    have hkn : stepKind u.kind u.step = .grip := hk
    have hn := stepKind_of_lt hkn (by decide)
    generalize u.kind = kind at hkn ⊢
    generalize u.step = n at hkn hn ⊢
    interval_cases n <;> cases kind <;> revert hkn <;> decide
  obtain ⟨w, hw⟩ : ∃ w : State, w = { s with pins := { s.pins with gripped := true } } := ⟨_, rfl⟩
  have hwu : w.ret.unit = some u := by rw [hw]; exact hu
  have hdone : w.phaseReady = true ∧
      w.phaseDone = ({ w with seq := { w.seq with timer := none } } : State).stepEnds := by
    unfold State.phaseReady State.phaseDone
    rw [hwu]
    dsimp only
    rw [hk]
    subst hw
    cases h : s.seq.phase with
    | ending => exact absurd h hphase
    | first => exact ⟨rfl, rfl⟩
    | second => exact ⟨rfl, rfl⟩
  obtain ⟨x, hx⟩ : ∃ x : State, x = { w with seq := { w.seq with timer := none } } := ⟨_, rfl⟩
  rw [← hx] at hdone
  have hxu : x.ret.unit = some u := by rw [hx]; exact hwu
  have hlow : u.step < lastStep u.kind := by rw [hkind, hstep]; decide
  have hnext : nextStep u.kind x.ret.hold u.step = 9 := by rw [hkind, hstep]; rfl
  have hoff := stepEnds_next hxu hlow hnext (by rw [hkind]; decide) (.inr (.inl (by rw [hkind]; rfl)))
  have hkeeps : x.Keeps s.ret := by
    rw [hx, hw]
    rfl
  have habort : x.seq.aborted = s.seq.aborted := by rw [hx, hw]
  subst hw
  obtain ⟨z, hexec, -, hended⟩ := stepEnded_at_once (c := .gripped true) hmode rfl hrun hdone.1 hdone.2 hxu hkeeps hoff
  exact ⟨x, z, hexec, hended, hxu, habort, fun hgo => by rw [stepEnds_goes hxu hgo hlow, hnext]⟩

end

end Sys2Proof.Machine

/-! FETCH and STORE ended by their inputs (O57). -/

namespace Sys2Proof.Machine

open Host

/-! ## The first phases: the carousel turned (R113, R115) -/

/-- A phase that ends and leaves the sequencer waiting, with no flag the other way. -/
theorem phase_turns {s y : State} {c : Instr} {p : Pins} (hmode : s.mode = .run)
    (hexec : exec c s = .next (({ s with pins := p } : State).inRunDo State.seqRun)) (hrun : s.seq.state = .running)
    (hready : ({ s with pins := p } : State).phaseReady = true) (hdone : ({ s with pins := p } : State).phaseDone = y)
    (hwaits : y.phaseReady = false) (hpending : y.pending = s.pending) (hy : y.AlarmsSettled) :
    ∃ t, exec c s = .next t ∧ Leaves [] s y t := by
  have hgoes : ({ s with pins := p } : State).seqRun = y := by
    have hfirst := seqRunFor_ready (s := { s with pins := p }) hrun hready 39
    rw [hdone, seqRunFor_waiting (.inr hwaits)] at hfirst
    exact hfirst
  exact ⟨_, exec_pins hmode hexec hgoes, finish_leaves s y hpending hy⟩

section

variable {s : State} {u : UnitRec} (hmode : s.mode = .run) (hrun : s.seq.state = .running) (hu : s.ret.unit = some u)

include hmode hrun hu

theorem fetch_turns {n : Nat} (hs : s.AlarmsSettled) (hk : u.kindOfStep = .fetch) (hphase : s.seq.phase = .first)
    (hslot : u.slot = some n) (hempty : s.pins.rodPresented = false) :
    ∃ t, exec (.slotCode n) s = .next t ∧ Leaves [] s { s with
      pins := { s.pins with slotCode := n }
      ret := { s.ret with carousel := n, gripOut := true }
      seq := { s.seq with index := false, present := true, phase := .second, timer := some 10000 } } t := by
  obtain ⟨w, hw⟩ : ∃ w : State, w = { s with pins := { s.pins with slotCode := n } } := ⟨_, rfl⟩
  have hwu : w.ret.unit = some u := by rw [hw]; exact hu
  have hfirst : w.phaseReady = true ∧ w.phaseDone = { w with
      ret := { w.ret with carousel := u.slot.getD 0, gripOut := true }
      seq := { w.seq with index := false, present := true, phase := .second, timer := some 10000 } } := by
    unfold State.phaseReady State.phaseDone
    rw [hwu, show w.seq.phase = .first by rw [hw]; exact hphase]
    dsimp only
    rw [hk]
    refine ⟨?_, rfl⟩
    rw [hw, hslot]
    exact beq_self_eq_true _
  obtain ⟨hready, hdone⟩ := hfirst
  rw [hslot] at hdone
  subst hw
  refine phase_turns (c := .slotCode n) hmode rfl hrun hready hdone ?_ rfl fun hin k => ?_
  · unfold State.phaseReady
    rw [show State.ret _ = ({ s.ret with carousel := n, gripOut := true } : Retained) from rfl, hu]
    dsimp only
    rw [hk]
    exact hempty
  · cases k <;> exact hs hin _

theorem store_turns {n : Nat} (hs : s.AlarmsSettled) (hk : u.kindOfStep = .store) (hphase : s.seq.phase = .first)
    (hslot : u.slot = some n) (hempty : s.pins.slotOccupied = false) :
    ∃ t, exec (.slotCode n) s = .next t ∧ Leaves [] s { s with
      pins := { s.pins with slotCode := n }
      ret := { s.ret with carousel := n }
      seq := { s.seq with index := false, store := true, phase := .second, timer := some 10000 } } t := by
  obtain ⟨w, hw⟩ : ∃ w : State, w = { s with pins := { s.pins with slotCode := n } } := ⟨_, rfl⟩
  have hwu : w.ret.unit = some u := by rw [hw]; exact hu
  have hfirst : w.phaseReady = true ∧ w.phaseDone = { w with
      ret := { w.ret with carousel := u.slot.getD 0 }
      seq := { w.seq with index := false, store := true, phase := .second, timer := some 10000 } } := by
    unfold State.phaseReady State.phaseDone
    rw [hwu, show w.seq.phase = .first by rw [hw]; exact hphase]
    dsimp only
    rw [hk]
    refine ⟨?_, rfl⟩
    rw [hw, hslot]
    exact beq_self_eq_true _
  obtain ⟨hready, hdone⟩ := hfirst
  rw [hslot] at hdone
  subst hw
  refine phase_turns (c := .slotCode n) hmode rfl hrun hready hdone ?_ rfl fun hin k => ?_
  · unfold State.phaseReady
    rw [show State.ret _ = ({ s.ret with carousel := n } : Retained) from rfl, hu]
    dsimp only
    rw [hk]
    exact hempty
  · cases k <;> exact hs hin _

/-- ROD_PRESENTED at the second phase of FETCH: the rod is in the loader (R113). -/
theorem fetch_ended {id : Nat} (hk : u.kindOfStep = .fetch) (hphase : s.seq.phase = .second) (hrod : u.rod = some id) :
    ∃ x z, exec (.rodPresented true) s = .next (s.finish z) ∧
      s.StepEnded { s.pins with rodPresented := true }
        { s.ret with
          rods := mapRod s.ret.rods id fun d => { d with state := .loader, slot := none }
          string := s.ret.string.filter (· != id) }
        [] u x (s.finish z) ∧
      x.ret.unit = some u ∧ x.seq.aborted = s.seq.aborted ∧ x.seq.present = false ∧
      (x.seq.aborted = false → x.stepEnds = x.enterStep 9) := by
  obtain ⟨hkind, hstep⟩ : u.kind = .makeUp ∧ u.step = 8 := by
    have hkn : stepKind u.kind u.step = .fetch := hk
    have hn := stepKind_of_lt hkn (by decide)
    generalize u.kind = kind at hkn ⊢
    generalize u.step = n at hkn hn ⊢
    interval_cases n <;> cases kind <;> revert hkn <;> decide
  obtain ⟨w, hw⟩ : ∃ w : State, w = { s with pins := { s.pins with rodPresented := true } } := ⟨_, rfl⟩
  have hwu : w.ret.unit = some u := by rw [hw]; exact hu
  have hdone : w.phaseReady = true ∧ w.phaseDone = (w.fetchDone u).stepEnds := by
    unfold State.phaseReady State.phaseDone
    rw [hwu, show w.seq.phase = .second by rw [hw]; exact hphase]
    dsimp only
    rw [hk]
    refine ⟨?_, rfl⟩
    rw [hw]
  obtain ⟨x, hx⟩ : ∃ x : State, x = w.fetchDone u := ⟨_, rfl⟩
  rw [← hx] at hdone
  replace hx : x = { w with
      seq := { w.seq with present := false, timer := none }
      ret := { w.ret with
        rods := mapRod w.ret.rods id fun d => { d with state := .loader, slot := none }
        string := w.ret.string.filter (· != id) } } := by
    rw [hx]
    unfold State.fetchDone
    rw [hrod]
    rfl
  have hxu : x.ret.unit = some u := by rw [hx]; exact hwu
  have hlow : u.step < lastStep u.kind := by rw [hkind, hstep]; decide
  have hnext : nextStep u.kind x.ret.hold u.step = 9 := by rw [hkind, hstep]; rfl
  have hoff := stepEnds_next hxu hlow hnext (by rw [hkind]; decide) (.inr (.inl (by rw [hkind]; rfl)))
  have hkeeps : x.Keeps { s.ret with
      rods := mapRod s.ret.rods id fun d => { d with state := .loader, slot := none }
      string := s.ret.string.filter (· != id) } := by
    rw [hx, hw]
    rfl
  have habort : x.seq.aborted = s.seq.aborted := by rw [hx, hw]
  have hpresent : x.seq.present = false := by rw [hx]
  subst hw
  obtain ⟨z, hexec, -, hended⟩ := stepEnded_at_once (c := .rodPresented true) hmode rfl hrun hdone.1 hdone.2 hxu hkeeps hoff
  exact ⟨x, z, hexec, hended, hxu, habort, hpresent, fun hgo => by rw [stepEnds_goes hxu hgo hlow, hnext]⟩

end

end Sys2Proof.Machine

/-! STORE ended by its input (O57): the rod in its slot, and retired there where that is due. -/

namespace Sys2Proof.Machine

open Host

/-! ## One rod's record changed -/

theorem findRod_mapRod (rods : List Rod) (id j : Nat) {f : Rod → Rod} (hf : ∀ d, (f d).id = d.id) :
    findRod (mapRod rods id f) j = (findRod rods j).map fun d => if d.id = id then f d else d := by
  unfold findRod mapRod
  rw [List.find?_map]
  congr 2
  funext d
  by_cases h : d.id = id
  · rw [Function.comp_apply, if_pos h, hf]
  · rw [Function.comp_apply, if_neg h]

/-- The lengths of the rods follow their types. -/
theorem rodLength_mapRod {s t : State} {id : Nat} {f : Rod → Rod} (hf : ∀ d, (f d).id = d.id ∧ (f d).type = d.type)
    (hrods : t.ret.rods = mapRod s.ret.rods id f) (hitems : t.ret.items = s.ret.items) (j : Nat) :
    t.rodLength j = s.rodLength j := by
  unfold State.rodLength State.typeLength State.cfg
  rw [hrods, hitems, findRod_mapRod _ _ _ fun d => (hf d).1, Option.map_map]
  cases findRod s.ret.rods j with
  | none => rfl
  | some d =>
    show ((some d).map fun d => itemGet s.ret.items Item.typeLength (if d.id = id then f d else d).type).getD 0 = _
    rw [Option.map_some, Option.map_some, Option.getD_some, Option.getD_some]
    split
    · rw [(hf d).2]
    · rfl

/-- With no ID twice a rod of the table is the one found by its ID. -/
theorem findRod_of_nodup {rods : List Rod} {d : Rod} (hd : d ∈ rods) (hids : (rods.map (·.id)).Nodup) :
    findRod rods d.id = some d := by
  obtain ⟨q, hq⟩ := Option.isSome_iff_exists.mp ((findRod_isSome rods d.id).mpr ⟨d, hd, rfl⟩)
  have hid : q.id = d.id := by simpa using List.find?_some hq
  rw [hq, List.inj_on_of_nodup_map hids (List.mem_of_find?_eq_some hq) hd hid]

/-! ## The rod stored (R115, R155) -/

/-- The rods with one stored in a slot. -/
def Retained.storing (r : Retained) (d : Rod) (n : Nat) : List Rod :=
  r.rods.map fun q => if q.id = d.id then { q with state := if d.due then .retired else .rack, slot := some n } else q

/-- The records with a rod stored, and counted where it is retired. -/
def Retained.afterStore (r : Retained) (d : Rod) (n : Nat) (counts : Bool) : Retained :=
  { r with
    eventNo := (r.eventNo + if d.due then 2 else 1) % 65536
    rods := r.storing d n
    string := r.string.filter (· != d.id)
    retirements := if d.due && counts then countAdd 65535 r.retirements (d.type - 1) 1 else r.retirements }

/-- The events of a rod stored. -/
def State.storeEvents (s : State) (d : Rod) (n : Nat) : List TxFrame :=
  s.eventFrame ((s.ret.eventNo + 1) % 65536) .rackLoaded (some d.id) (some n) (s.ret.string.filter (· != d.id)) s.ret.hold ::
    if d.due then [s.eventFrame ((s.ret.eventNo + 2) % 65536) .retired (some d.id) (some n)
      (s.ret.string.filter (· != d.id)) s.ret.hold] else []

/-- The station as STORE ends, with the grip and the store output off. -/
def State.storeOff (s : State) : State :=
  { s with ret := { s.ret with gripOut := false }, seq := { s.seq with store := false, timer := none } }

/-- The rod in its slot, as the first event tells. -/
def State.rackFilled (s : State) (d : Rod) (n : Nat) : State :=
  s.storeOff.rodChange (s.storeOff.ret.placeAt d.id (fun _ => .rack) (some n)) .rackLoaded (some d.id) (some n) none

theorem storeDone_eq {s : State} {u : UnitRec} {d : Rod} {n : Nat} (hd : rodInLoader s.ret.rods = some d)
    (hslot : u.slot = some n) :
    s.storeDone u =
      if d.due then ((s.rackFilled d n).rodChange ((s.rackFilled d n).ret.retire d.id) .retired (some d.id) (some n)
        none).countRetired d.id
      else s.rackFilled d n := by
  unfold State.storeDone
  dsimp only
  rw [hd, hslot]
  rfl

/-- The first event of a store. -/
theorem rackLoaded_eq (s : State) (d : Rod) (n : Nat) :
    ∃ e, s.rackFilled d n =
      { s with
        ret := { s.ret with
          gripOut := false
          rods := mapRod s.ret.rods d.id fun q => { q with state := .rack, slot := some n }
          string := s.ret.string.filter (· != d.id)
          eventNo := (s.ret.eventNo + 1) % 65536 }
        seq := { s.seq with store := false, timer := none }
        link := s.link.handOver e .rig (s.eventFrame ((s.ret.eventNo + 1) % 65536) .rackLoaded (some d.id) (some n)
          (s.ret.string.filter (· != d.id)) s.ret.hold) } := by
  obtain ⟨a, ha⟩ : ∃ a : State, a = { s.storeOff with
    ret := s.storeOff.ret.placeAt d.id (fun _ => .rack) (some n) } := ⟨_, rfl⟩
  obtain ⟨e, he⟩ := makeEvent_eq a .rackLoaded (some d.id) (some n)
  have hlength : ∀ j, a.rodLength j = s.rodLength j := rodLength_mapRod (s := s) (id := d.id)
    (f := fun q => { q with state := .rack, slot := some n }) (fun _ => ⟨rfl, rfl⟩) (by rw [ha]; rfl) (by rw [ha]; rfl)
  refine ⟨e, ?_⟩
  unfold State.rackFilled State.rodChange
  rw [← ha, he, eventFrame_congr (s := s) (by rw [ha]; rfl) hlength, ha]
  rfl

theorem countRetired_eq {s : State} {id : Nat} {d : Rod} (h : findRod s.ret.rods id = some d) :
    s.countRetired id = { s with ret := { s.ret with
      retirements := if s.straps.record && s.jobRuns then countAdd 65535 s.ret.retirements (d.type - 1) 1
        else s.ret.retirements } } := by
  unfold State.countRetired
  rw [h]
  cases s.straps.record && s.jobRuns <;> rfl

theorem storing_rack {s : State} {d : Rod} (n : Nat) (hdue : d.due = false) :
    mapRod s.ret.rods d.id (fun q => { q with state := .rack, slot := some n }) = s.ret.storing d n := by
  unfold mapRod Retained.storing
  rw [hdue]
  rfl

section

variable {s : State} {d : Rod} (n : Nat) (hd : d ∈ s.ret.rods) (hids : (s.ret.rods.map (·.id)).Nodup)

include hd hids

/-- A rod stored and retired is due. -/
theorem retire_storing (hdue : d.due = true) :
    mapRod (mapRod s.ret.rods d.id fun q => { q with state := .rack, slot := some n }) d.id
      (fun q => { q with state := .retired, due := true }) = s.ret.storing d n := by
  unfold mapRod Retained.storing
  rw [List.map_map]
  refine List.map_congr_left fun q hq => ?_
  by_cases h : q.id = d.id
  · obtain rfl := List.inj_on_of_nodup_map hids hq hd h
    simp [hdue]
  · simp [h]

end

/-- A step's end that stores: its records, its events, and the rest as it was. -/
structure State.Stores (s : State) (r : Retained) (q : Sequencer) (es : List TxFrame) (x : State) : Prop where
  ret : x.ret = r
  seq : x.seq = q
  told : s.link.Told x.link es
  depth : x.depth = s.depth
  straps : x.straps = s.straps
  peers : x.peers = s.peers
  pins : x.pins = s.pins

theorem countRetired_rest (s : State) (id : Nat) :
    (s.countRetired id).seq = s.seq ∧ (s.countRetired id).link = s.link ∧ (s.countRetired id).depth = s.depth ∧
      (s.countRetired id).straps = s.straps ∧ (s.countRetired id).peers = s.peers ∧ (s.countRetired id).pins = s.pins := by
  unfold State.countRetired
  split
  · cases findRod s.ret.rods id <;> exact ⟨rfl, rfl, rfl, rfl, rfl, rfl⟩
  · exact ⟨rfl, rfl, rfl, rfl, rfl, rfl⟩

section

variable {s : State} {d : Rod} (n : Nat) (hd : d ∈ s.ret.rods) (hids : (s.ret.rods.map (·.id)).Nodup)

include hd hids

/-- Both events of a store, of a rod that is due. -/
theorem retired_stores (hdue : d.due = true) :
    s.Stores { s.ret.afterStore d n (s.straps.record && s.jobRuns) with gripOut := false }
      { s.seq with store := false, timer := none } (s.storeEvents d n)
      (((s.rackFilled d n).rodChange ((s.rackFilled d n).ret.retire d.id) .retired (some d.id) (some n)
        none).countRetired d.id) := by
  obtain ⟨e, he⟩ := rackLoaded_eq s d n
  obtain ⟨t, ht⟩ : ∃ t, t = s.rackFilled d n := ⟨_, rfl⟩
  rw [← ht] at he ⊢
  obtain ⟨b, hb⟩ : ∃ b : State, b = { t with ret := t.ret.retire d.id } := ⟨_, rfl⟩
  obtain ⟨e', he'⟩ := makeEvent_eq b .retired (some d.id) (some n)
  have hbret : b.ret = { s.ret with
      gripOut := false
      rods := s.ret.storing d n
      string := s.ret.string.filter (· != d.id)
      eventNo := (s.ret.eventNo + 1) % 65536 } := by
    rw [hb, he, ← retire_storing n hd hids hdue]
    rfl
  have hlength : ∀ j, b.rodLength j = s.rodLength j := fun j => by
    have hfirst : ∀ j, t.rodLength j = s.rodLength j := rodLength_mapRod (id := d.id)
      (f := fun q => { q with state := .rack, slot := some n }) (fun _ => ⟨rfl, rfl⟩) (by rw [he]) (by rw [he])
    refine (rodLength_mapRod (s := t) (id := d.id) (f := fun q => { q with state := .retired, due := true })
      (fun _ => ⟨rfl, rfl⟩) (by rw [hb]; rfl) (by rw [hb]; rfl) j).trans (hfirst j)
  have hfound : findRod b.ret.rods d.id = some { d with state := .retired, slot := some n } := by
    rw [hbret]
    refine (findRod_mapRod s.ret.rods d.id d.id (f := fun q => { q with
      state := if d.due then .retired else .rack, slot := some n }) fun _ => rfl).trans ?_
    rw [findRod_of_nodup hd hids, Option.map_some, if_pos rfl, if_pos hdue]
  obtain ⟨c, hc⟩ : ∃ c, c = b.makeEvent .retired (some d.id) (some n) none := ⟨_, rfl⟩
  have hrod : t.rodChange (t.ret.retire d.id) .retired (some d.id) (some n) none = c := by
    rw [hc, hb]
    rfl
  rw [he'] at hc
  have hcret : c.ret = { b.ret with eventNo := (b.ret.eventNo + 1) % 65536 } := by rw [hc]
  have hcfound : findRod c.ret.rods d.id = some { d with state := .retired, slot := some n } := by rw [hcret]; exact hfound
  have hstraps : c.straps = s.straps := by rw [hc, hb, he]
  have hlink : c.link = (s.link.handOver e .rig (s.eventFrame ((s.ret.eventNo + 1) % 65536) .rackLoaded (some d.id)
      (some n) (s.ret.string.filter (· != d.id)) s.ret.hold)).handOver e' .rig (s.eventFrame ((s.ret.eventNo + 2) % 65536)
        .retired (some d.id) (some n) (s.ret.string.filter (· != d.id)) s.ret.hold) := by
    have hblink : b.link = s.link.handOver e .rig (s.eventFrame ((s.ret.eventNo + 1) % 65536) .rackLoaded (some d.id)
      (some n) (s.ret.string.filter (· != d.id)) s.ret.hold) := by rw [hb, he]
    have hno : ((s.ret.eventNo + 1) % 65536 + 1) % 65536 = (s.ret.eventNo + 2) % 65536 := by omega
    have hclink : c.link = b.link.handOver e' .rig (b.eventFrame ((b.ret.eventNo + 1) % 65536) .retired (some d.id)
      (some n) b.ret.string b.ret.hold) := by rw [hc]
    rw [hclink, hblink, eventFrame_congr (s := s) (by rw [hbret]) hlength, hbret]
    dsimp only
    rw [hno]
  obtain ⟨hseq, hlinkr, hdepth, hstrapsr, hpeers, hpins⟩ := countRetired_rest c d.id
  rw [hrod]
  refine ⟨?_, hseq.trans (by rw [hc, hb, he]), ?_, hdepth.trans (by rw [hc, hb, he]), hstrapsr.trans hstraps,
    hpeers.trans (by rw [hc, hb, he]), hpins.trans (by rw [hc, hb, he])⟩
  · have hno : ((s.ret.eventNo + 1) % 65536 + 1) % 65536 = (s.ret.eventNo + 2) % 65536 := by omega
    have hcounts : (c.straps.record && c.jobRuns) = (s.straps.record && s.jobRuns) := by
      unfold State.jobRuns
      rw [hstraps, hcret, hbret]
    rw [countRetired_eq hcfound, hcounts, hcret, hbret]
    unfold Retained.afterStore
    rw [hdue]
    dsimp only
    rw [hno]
    rfl
  · rw [hlinkr, hlink]
    unfold State.storeEvents
    rw [if_pos hdue]
    exact told_events e _ rfl rfl

/-- STORE ended (R115, R155). -/
theorem storeDone_stores {u : UnitRec} (hload : rodInLoader s.ret.rods = some d) (hslot : u.slot = some n) :
    s.Stores { s.ret.afterStore d n (s.straps.record && s.jobRuns) with gripOut := false }
      { s.seq with store := false, timer := none } (s.storeEvents d n) (s.storeDone u) := by
  rw [storeDone_eq hload hslot]
  by_cases hdue : d.due = true
  · rw [if_pos hdue]
    exact retired_stores n hd hids hdue
  · obtain ⟨e, he⟩ := rackLoaded_eq s d n
    have hoff : d.due = false := Bool.eq_false_iff.mpr hdue
    rw [if_neg hdue, he, storing_rack n hoff]
    refine ⟨?_, rfl, ?_, rfl, rfl, rfl, rfl⟩
    · unfold Retained.afterStore
      rw [hoff]
      rfl
    · unfold State.storeEvents
      rw [if_neg hdue]
      exact told_event e _ rfl

/-- The station as STORE ends, with its records changed. -/
theorem storeDone_changes {u : UnitRec} (hload : rodInLoader s.ret.rods = some d) (hslot : u.slot = some n) :
    s.Changes (s.ret.afterStore d n (s.straps.record && s.jobRuns)) (s.storeEvents d n) (s.storeDone u) := by
  have hstores := storeDone_stores n hd hids hload hslot
  obtain ⟨x, hx⟩ : ∃ x, x = s.storeDone u := ⟨_, rfl⟩
  have hmode := (moves_storeDone s u).other.mode
  rw [← hx] at hstores hmode ⊢
  obtain ⟨hret, -, htold, hdepth, hstraps, hpeers, hpins⟩ := hstores
  refine ⟨⟨by rw [hret]; rfl, by unfold State.Keeps; rw [hret]⟩, by rw [hret], by rw [hret], htold, fun target => ?_,
    rodLength_mapRod (id := d.id) (f := fun q => { q with state := if d.due then .retired else .rack, slot := some n })
      (fun _ => ⟨rfl, rfl⟩) (by rw [hret]; rfl) (by rw [hret]; rfl), by rw [hret]; rfl, hpins, by rw [hret]; rfl,
    hmode⟩
  exact headNear_congr (by rw [hret]; exact ⟨rfl, rfl⟩) (by rw [hdepth]; exact .refl _) hstraps hpeers target

end

end Sys2Proof.Machine

/-! The store phase of STORE ended by SLOT_OCCUPIED, and a step that its timer ends (O57). -/

namespace Sys2Proof.Machine

open Host

/-- The grip output as a step's end leaves it, once the step that is entered next passes to a SPIN step. -/
theorem gripOut_run {x : State} {u : UnitRec} (hu : x.ret.unit = some u) (hkind : u.kind = .breakOut) (hstep : u.step = 10)
    (habort : x.seq.aborted = false) (n : Nat) : (x.stepEnds.seqRunFor (n + 1)).ret.gripOut = x.ret.gripOut := by
  have hlow : u.step < lastStep u.kind := by rw [hkind, hstep]; decide
  have hnext : nextStep u.kind x.ret.hold u.step = 11 := by rw [hkind, hstep]; rfl
  obtain ⟨y, hy⟩ : ∃ y, y = x.stepEnds := ⟨_, rfl⟩
  have hentered := enterStep_entered hu 11
  rw [← hnext, ← stepEnds_goes hu habort hlow, ← hy, hnext] at hentered
  have hgrip : y.ret.gripOut = x.ret.gripOut := hentered.grip (by
    rw [show ({ u with step := 11 } : UnitRec).kindOfStep = stepKind u.kind 11 from rfl, hkind]
    decide)
  rw [← hy]
  by_cases hgoes : y.seq.state = .running ∧ y.phaseReady = true
  · obtain ⟨hrun, hready⟩ := hgoes
    obtain ⟨v, hv, hvkind, hvstep⟩ := hentered.unit
    have hvposition : v.kindOfStep = .waitPosition := by
      unfold UnitRec.kindOfStep
      rw [hvkind, hvstep, hkind]
      rfl
    obtain ⟨z, hz⟩ : ∃ z : State, z = { y with seq := { y.seq with timer := none } } := ⟨_, rfl⟩
    have hzv : z.ret.unit = some v := by rw [hz]; exact hv
    have hzabort : z.seq.aborted = false := by
      rw [hz]
      show y.seq.aborted = false
      rw [hentered.seq]
      exact habort
    have hvlow : v.step < lastStep v.kind := by rw [hvkind, hvstep, hkind]; decide
    have hvnext : nextStep v.kind z.ret.hold v.step = 12 := by rw [hvkind, hvstep, hkind]; rfl
    have hspin : (stepKind v.kind 12).isSpin = true := by rw [hvkind, hkind]; rfl
    have hlast := enterStep_entered hzv 12
    rw [seqRunFor_ready hrun hready, phaseDone_first hv hentered.phase (by rw [hvposition]; decide), ← hz,
      stepEnds_goes hzv hzabort hvlow, hvnext, seqRunFor_waiting (.inr (enterStep_spin_waits hzv 12 hspin)), hlast.grip ?_, hz]
    · exact hgrip
    · rw [show ({ v with step := 12 } : UnitRec).kindOfStep = stepKind v.kind 12 from rfl, hvkind, hkind]
      decide
  · have hwaits : y.seq.state ≠ .running ∨ y.phaseReady = false := by
      by_cases hrun : y.seq.state = .running
      · exact .inr (Bool.eq_false_iff.mpr fun hready => hgoes ⟨hrun, hready⟩)
      · exact .inl hrun
    rw [seqRunFor_waiting hwaits]
    exact hgrip

theorem phaseDone_store {y : State} {u : UnitRec} (hu : y.ret.unit = some u) (hphase : y.seq.phase = .second)
    (hk : u.kindOfStep = .store) :
    y.phaseReady = y.pins.slotOccupied ∧ y.phaseDone = (y.storeDone u).ending := by
  unfold State.phaseReady State.phaseDone
  rw [hu, hphase]
  dsimp only
  rw [hk]
  exact ⟨rfl, rfl⟩

theorem storeEvents_merges {s : State} {d : Rod} {n : Nat} : ∀ e ∈ s.storeEvents d n, e.kind.merges = false := by
  intro e he
  unfold State.storeEvents at he
  obtain rfl | he := List.mem_cons.mp he
  · rfl
  · by_cases hdue : d.due = true
    · rw [if_pos hdue] at he
      rw [List.mem_singleton.mp he]
      rfl
    · rw [if_neg hdue] at he
      exact (List.not_mem_nil he).elim

section

variable {s : State} {u : UnitRec} (hmode : s.mode = .run) (hrun : s.seq.state = .running) (hu : s.ret.unit = some u)

include hmode hrun hu

/-- SLOT_OCCUPIED at the second phase of STORE: the rod is in its slot (R115). -/
theorem store_ended {d : Rod} {n : Nat} (hk : u.kindOfStep = .store) (hphase : s.seq.phase = .second)
    (hslot : u.slot = some n) (hload : rodInLoader s.ret.rods = some d) (hids : (s.ret.rods.map (·.id)).Nodup) :
    ∃ x z, exec (.slotOccupied true) s = .next (s.finish z) ∧
      s.StepEnded { s.pins with slotOccupied := true } (s.ret.afterStore d n (s.straps.record && s.jobRuns))
        (s.storeEvents d n) u x (s.finish z) ∧
      x.ret.unit = some u ∧ x.seq.aborted = s.seq.aborted ∧ x.seq.store = false ∧
      (∀ target, x.headNear target = s.headNear target) ∧ (∀ item index, x.cfg item index = s.cfg item index) ∧
      (s.seq.aborted = false → (s.finish z).ret.gripOut = false) ∧ u.kind = .breakOut ∧
      (s.seq.aborted = false → x.stepEnds = x.enterStep 11) := by
  obtain ⟨hkind, hstep⟩ : u.kind = .breakOut ∧ u.step = 10 := by
    have hkn : stepKind u.kind u.step = .store := hk
    have hn := stepKind_of_lt hkn (by decide)
    generalize u.kind = kind at hkn ⊢
    generalize u.step = n at hkn hn ⊢
    interval_cases n <;> cases kind <;> revert hkn <;> decide
  obtain ⟨y, hy⟩ : ∃ y : State, y = { s with pins := { s.pins with slotOccupied := true } } := ⟨_, rfl⟩
  have hyu : y.ret.unit = some u := by rw [hy]; exact hu
  obtain ⟨hready, hdone⟩ := phaseDone_store hyu (by rw [hy]; exact hphase) hk
  have hyload : rodInLoader y.ret.rods = some d := by rw [hy]; exact hload
  have hyids : (y.ret.rods.map (·.id)).Nodup := by rw [hy]; exact hids
  have hd : d ∈ y.ret.rods := List.mem_of_find?_eq_some hyload
  have hstores := storeDone_stores n hd hyids hyload hslot
  have hchanges := storeDone_changes n hd hyids hyload hslot
  obtain ⟨x, hx⟩ : ∃ x, x = y.storeDone u := ⟨_, rfl⟩
  rw [← hx] at hdone hstores hchanges
  have hxu : x.ret.unit = some u := hchanges.keeps.1.symm.trans hyu
  have hlow : u.step < lastStep u.kind := by rw [hkind, hstep]; decide
  have hnext : nextStep u.kind x.ret.hold u.step = 11 := by rw [hkind, hstep]; rfl
  have hoff := stepEnds_next (s := x.ending) hxu hlow hnext (by rw [hkind]; decide)
    (.inr (.inr (.inl (by rw [hkind]; decide))))
  have hseq : x.seq = { s.seq with store := false, timer := none } := by rw [hstores.seq, hy]
  have hgrip : x.ret.gripOut = false := by rw [hstores.ret]
  have hjob : y.jobRuns = s.jobRuns := by rw [hy]; rfl
  have hevents : y.storeEvents d n = s.storeEvents d n := by rw [hy]; rfl
  have hnear : ∀ target, x.headNear target = s.headNear target := fun target => (hchanges.near target).trans (by rw [hy]; rfl)
  have hcfg : ∀ item index, x.cfg item index = s.cfg item index := fun item index =>
    (hchanges.cfg item index).trans (by rw [hy]; rfl)
  rw [hjob, hevents] at hchanges
  rw [hy] at hready hdone hchanges
  obtain ⟨z, hexec, hpending, hwaits, hgoes, hended⟩ := stepEnded_of_ending (c := .slotOccupied true) hmode rfl hrun hready hdone hu
    hchanges (by rw [hseq]; exact hrun) storeEvents_merges hoff
  have habort : x.ending.seq.aborted = s.seq.aborted := by
    show x.seq.aborted = _
    rw [hseq]
  refine ⟨x.ending, z, hexec, hended, hxu, habort, ?_, hnear, hcfg, fun hgo => ?_, hkind, fun hgo => ?_⟩
  · show x.seq.store = false
    rw [hseq]
  · have hret := (finish_rest s z hpending).ret (by decide)
    rw [hret]
    by_cases hwait : x.link.rodWait = []
    · rw [hgoes hwait]
      exact (gripOut_run (x := x.ending) hxu hkind hstep (habort.trans hgo) 37).trans hgrip
    · rw [hwaits hwait]
      exact hgrip
  · rw [stepEnds_goes (s := x.ending) hxu (habort.trans hgo) hlow]
    exact congrArg x.ending.enterStep hnext

end

end Sys2Proof.Machine

/-! The inputs of the rod handler and the step timer, settled (O57). -/

namespace Sys2Proof.Machine

open Host

/-! ## An input no step waits for -/

theorem pinned_leaves {s : State} {c : Instr} {p : Pins} (hmode : s.mode = .run) (hs : s.AlarmsSettled)
    (hexec : exec c s = .next (({ s with pins := p } : State).inRunDo State.seqRun))
    (hwaits : s.seq.state ≠ .running ∨ ({ s with pins := p } : State).phaseReady = false) :
    ∃ t, exec c s = .next t ∧ Leaves [] s { s with pins := p } t :=
  ⟨_, exec_pins hmode hexec (seqRun_of_waiting (s := { s with pins := p }) hwaits), finish_leaves s _ rfl (pins_settled hs p)⟩

/-! ## The next step entered -/

theorem stepEnds_comes {x : State} {u : UnitRec} {m : Nat} (hu : x.ret.unit = some u) (habort : x.seq.aborted = false)
    (hm : u.step < lastStep u.kind ∧ nextStep u.kind x.ret.hold u.step = m) : x.stepEnds = x.enterStep m := by
  obtain ⟨hlow, hnext⟩ := hm
  rw [stepEnds_goes hu habort hlow, hnext]

section

variable {s x : State} {u : UnitRec} {r : Retained} {es : List TxFrame} (hx : s.Changes r es x) (hu : s.ret.unit = some u)

include hx

theorem State.Changes.topLength (hstring : r.string = s.ret.string) : x.topLength = s.topLength := by
  unfold State.topLength
  rw [hx.string, hstring, show x.rodLength = s.rodLength from funext hx.lengths]

include hu

/-- The step after a RELEASE waits for a head that is away. -/
theorem release_waits {n : Nat} (hstring : r.string = s.ret.string) (hn : (u.kind, n) ∈ [(OpKind.makeUp, 4), (.breakOut, 6)])
    (hfar : s.headNear (s.cfg Item.clampHeight 0 + if (u.kind, n) = (.breakOut, 6) then s.topLength else 0) = false) :
    (x.ending.enterStep n).phaseReady = false := by
  refine position_waits (x := x.ending) (hx.keeps.1.symm.trans hu) (List.mem_of_mem_dropLast (l := [_, _, _]) hn) ?_
  show x.headNear (x.cfg Item.clampHeight 0 + if _ then x.topLength else 0) = false
  rw [hx.cfg, hx.topLength hstring, hx.near]
  exact hfar

end

section

variable {s : State} {u : UnitRec} (hmode : s.mode = .run) (hrun : s.seq.state = .running) (hphase : s.seq.phase ≠ .ending)
  (hu : s.ret.unit = some u)

include hmode hrun hphase hu

/-- CLAMP_CLOSED at a CLAMP step, and the step after it. -/
theorem clamp_steps (hk : u.kindOfStep = .clamp) :
    ∃ x t, exec (.clampClosed true) s = .next t ∧
      s.StepEnded { s.pins with clampClosed := true }
        { s.ret with hold := ⟨.clamped, .latched, u.kind == .breakOut⟩, eventNo := (s.ret.eventNo + 1) % 65536 }
        [s.eventFrame ((s.ret.eventNo + 1) % 65536) .holdChanged none none s.ret.string
          ⟨.clamped, .latched, u.kind == .breakOut⟩] u x t ∧
      (s.link.Roomy → s.seq.aborted = false →
        ((u.kind, u.step) = (.makeUp, 5) → t.ret.unit.map (·.step) = some 6) ∧
        ((u.kind, u.step) = (.breakOut, 7) → s.pins.gripped = false → t.ret.unit.map (·.step) = some 8)) := by
  obtain ⟨x, z, hexec, -, hended, hchanges, hseq, -⟩ := clamp_ended hmode hrun hphase hu hk
  have hhold : x.ending.ret.hold = ⟨.clamped, .latched, u.kind == .breakOut⟩ := hchanges.hold
  have hxu : x.ending.ret.unit = some u := hchanges.keeps.1.symm.trans hu
  refine ⟨x.ending, s.finish z, hexec, hended, fun hroomy habort => ⟨fun hat => ?_, fun hat hopen => ?_⟩⟩
  all_goals
    obtain ⟨hkind, hstep⟩ := Prod.mk.inj hat
    have hgo : x.ending.seq.aborted = false := by
      show x.seq.aborted = false
      rw [hseq]
      exact habort
  · have hnext : u.step < lastStep u.kind ∧ nextStep u.kind x.ending.ret.hold u.step = 6 := by
      rw [hhold, hkind, hstep]
      exact ⟨by decide, rfl⟩
    exact hended.goes 6 hroomy (stepEnds_comes hxu hgo hnext) (enterStep_spin_waits hxu 6 (by rw [hkind]; rfl))
  · have hnext : u.step < lastStep u.kind ∧ nextStep u.kind x.ending.ret.hold u.step = 8 := by
      rw [hhold, hkind, hstep]
      exact ⟨by decide, rfl⟩
    refine hended.goes 8 hroomy (stepEnds_comes hxu hgo hnext) (enterStep_grip_waits hxu 8 (by rw [hkind]; rfl) ?_)
    show x.pins.gripped = false
    rw [hchanges.pins]
    exact hopen

/-- CLAMP_OPEN at a RELEASE step, and the step after it. -/
theorem release_steps (hk : u.kindOfStep = .release) (hclosed : s.pins.clampClosed = false) :
    ∃ x t, exec (.clampOpen true) s = .next t ∧
      s.StepEnded { s.pins with clampOpen := true } { s.ret with hold := hung, eventNo := (s.ret.eventNo + 1) % 65536 }
        [s.eventFrame ((s.ret.eventNo + 1) % 65536) .holdChanged none none s.ret.string hung] u x t ∧
      t.seq.retract = false ∧
      (s.link.Roomy → s.seq.aborted = false →
        ((u.kind, u.step) = (.makeUp, 3) → s.headNear (s.cfg Item.clampHeight 0) = false →
          t.ret.unit.map (·.step) = some 4) ∧
        ((u.kind, u.step) = (.breakOut, 5) → s.headNear (s.cfg Item.clampHeight 0 + s.topLength) = false →
          t.ret.unit.map (·.step) = some 6)) := by
  obtain ⟨x, z, hexec, -, hended, hchanges, hseq, -⟩ := release_ended hmode hrun hphase hu hk hclosed
  have hxu : x.ending.ret.unit = some u := hchanges.keeps.1.symm.trans hu
  have hhold : x.ending.ret.hold = hung := hchanges.hold
  refine ⟨x.ending, s.finish z, hexec, hended, hended.retract (by show x.seq.retract = false; rw [hseq]),
    fun hroomy habort => ⟨fun hat hfar => ?_, fun hat hfar => ?_⟩⟩
  all_goals
    obtain ⟨hkind, hstep⟩ := Prod.mk.inj hat
    have hgo : x.ending.seq.aborted = false := by
      show x.seq.aborted = false
      rw [hseq]
      exact habort
  · have hnext : u.step < lastStep u.kind ∧ nextStep u.kind x.ending.ret.hold u.step = 4 := by
      rw [hhold, hkind, hstep]
      exact ⟨by decide, rfl⟩
    refine hended.goes 4 hroomy (stepEnds_comes hxu hgo hnext) (release_waits hchanges hu rfl ?_ ?_) <;> rw [hkind]
    · decide
    · exact hfar
  · have hnext : u.step < lastStep u.kind ∧ nextStep u.kind x.ending.ret.hold u.step = 6 := by
      rw [hhold, hkind, hstep]
      exact ⟨by decide, rfl⟩
    refine hended.goes 6 hroomy (stepEnds_comes hxu hgo hnext) (release_waits hchanges hu rfl ?_ ?_) <;> rw [hkind]
    · decide
    · exact hfar

end

/-! ## The timer of the step (R111, R119) -/

theorem stepTimer_faults {s : State} {u : UnitRec} (hmode : s.mode = .run) (hrun : s.seq.state = .running)
    (hphase : s.seq.phase ≠ .ending) (hu : s.ret.unit = some u) (htimer : s.seq.timer.isSome = true) :
    ∃ t, exec .stepTimerExpiry s = .next t ∧
      Settles s
        { s with seq := { s.seq with
          state := .fault (stepCause u.kindOfStep s.seq.phase), phase := .first, timer := none
          spin := s.seq.spin.dropWaiting
          index := false, present := false, store := false, retract := false } } t := by
  refine run_settles (f := State.stepTimeout) hmode rfl ?_ rfl
  unfold State.stepTimeout
  rw [hu, htimer, hrun]
  exact seqStop_of_undone (stepDone_of_phase hphase) _

theorem stepTimer_stands {s : State} (hmode : s.mode = .run) (hs : s.AlarmsSettled)
    (h : s.seq.state ≠ .running ∨ s.seq.timer = none ∨ s.ret.unit = none) :
    ∃ t, exec .stepTimerExpiry s = .next t ∧ Leaves [] s s t := by
  refine run_leaves (f := State.stepTimeout) hmode rfl ?_ rfl hs
  unfold State.stepTimeout
  cases hu : s.ret.unit with
  | none => rfl
  | some u =>
    refine if_neg fun hruns => ?_
    obtain ⟨htimer, hstate⟩ := Bool.and_eq_true_iff.mp hruns
    obtain h | h | h := h
    · exact h (beq_iff_eq.mp hstate)
    · rw [h] at htimer
      cases htimer
    · rw [hu] at h
      cases h

end Sys2Proof.Machine

/-! Every input of the rod handler (O57). -/

namespace Sys2Proof.Machine

open Host

/-- What an input that ends a step or phase leaves, in the obligation's words. -/
theorem State.StepEnded.ends {s x t : State} {p : Pins} {r : Retained} {es : List TxFrame} {u : UnitRec} {c : Instr}
    {then' : State → Prop} (h : s.StepEnded p r es u x t) (hexec : exec c s = .next t) (hthen : then' t) :
    ∃ t, exec c s = .next t ∧ t.pins = p ∧ t.Keeps r ∧ then' t ∧
      (s.link.listenOnly = false → ∀ e ∈ es, t.link.Holds e) ∧
      (es ≠ [] → s.link.rodWait ≠ [] →
        t.seq.state = .running ∧ t.seq.phase = .ending ∧ t.ret.unit = some u) ∧
      ChangesOnly [.pins, .ret, .claims, .pumps, .spin, .depth, .link, .seq, .alarm] s t :=
  ⟨t, hexec, h.pins, h.keeps, hthen, h.holds, h.waits, h.changes⟩

theorem spin_nine (kind : OpKind) : (stepKind kind 9).isSpin = true := by cases kind <;> rfl

theorem second_of {p : StepPhase} (h : p ≠ .ending) (hfirst : p ≠ .first) : p = .second := by
  cases p with
  | first => exact absurd rfl hfirst
  | second => rfl
  | ending => exact absurd rfl h

/-- The records after STORE, in the obligation's words. -/
theorem afterStore_eq (s : State) (d : Rod) (n : Nat) :
    s.ret.afterStore d n (s.straps.record && s.jobRuns) =
      { s.ret with
        eventNo := (s.ret.eventNo + if d.due then 2 else 1) % 65536
        rods := s.ret.rods.map fun q : Rod =>
          if q.id = d.id then { q with state := if d.due then .retired else .rack, slot := some n } else q
        string := s.ret.string.filter (· != d.id)
        retirements := if d.due ∧ s.straps.record = true ∧ (s.ret.job = .opened ∨ s.ret.job = .closing) then
            s.ret.retirements.set (d.type - 1) (min 65535 (s.ret.retirements.getD (d.type - 1) 0 + 1))
          else s.ret.retirements } := by
  have hcounts : (d.due && (s.straps.record && s.jobRuns)) = true ↔
      d.due = true ∧ s.straps.record = true ∧ (s.ret.job = .opened ∨ s.ret.job = .closing) := by
    rw [Bool.and_eq_true, Bool.and_eq_true]
    refine and_congr_right fun _ => and_congr_right fun _ => ?_
    unfold State.jobRuns
    cases s.ret.job <;> decide
  unfold Retained.afterStore
  simp only [hcounts]
  rfl

end Sys2Proof.Machine

namespace Sys2Proof

open Machine Host

/-- Settles O57: an input that ends a step changes its records once, and what follows passes only steps that change none. -/
theorem rodInputsEndTheirSteps : Obligations.RodInputsEndTheirSteps := by
  unfold Obligations.RodInputsEndTheirSteps
  intro s hmode hs
  dsimp only
  refine ⟨fun v => pinned_leaves hmode hs rfl, fun v => pinned_leaves hmode hs rfl, fun v => pinned_leaves hmode hs rfl,
    fun v => pinned_leaves hmode hs rfl, fun v => pinned_leaves hmode hs rfl, fun v => pinned_leaves hmode hs rfl,
    fun u hrun hphase hu => ⟨fun hk => ?_, fun hk hclosed => ?_, fun n hk hfirst hslot hempty => ?_, fun id hk hsecond hrod => ?_,
      fun n hk hfirst hslot hempty => ?_, fun n r hk hsecond hslot hload hids _ _ => ?_, fun hk => ?_, fun htimer => ?_⟩,
    fun h => stepTimer_stands hmode hs h⟩
  · obtain ⟨x, t, hexec, hended, henters⟩ := clamp_steps hmode hrun hphase hu hk
    exact hended.ends hexec ⟨fun hat hroomy hgo => (henters hroomy hgo).1 hat,
      fun hat hopen hroomy hgo => (henters hroomy hgo).2 hat hopen⟩
  · obtain ⟨x, t, hexec, hended, hretract, henters⟩ := release_steps hmode hrun hphase hu hk hclosed
    exact hended.ends hexec ⟨hretract, fun hat hfar hroomy hgo => (henters hroomy hgo).1 hat hfar,
      fun hat hfar hroomy hgo => (henters hroomy hgo).2 hat hfar⟩
  · exact fetch_turns hmode hrun hu hs hk hfirst hslot hempty
  · obtain ⟨x, z, hexec, hended, hxu, habort, hpresent, hnext⟩ :=
      fetch_ended hmode hrun hu hk (second_of hphase hsecond) hrod
    refine hended.ends hexec ⟨hended.present hpresent, fun hroomy hgo => ?_⟩
    have hxgo := habort.trans hgo
    refine hended.goes 9 hroomy (hnext hxgo) (enterStep_spin_waits hxu 9 (spin_nine u.kind))
  · exact store_turns hmode hrun hu hs hk hfirst hslot hempty
  · obtain ⟨x, z, hexec, hended, hxu, habort, hstore, hnear, hcfg, hgrip, hkind, hnext⟩ :=
      store_ended hmode hrun hu hk (second_of hphase hsecond) hslot hload hids
    rw [afterStore_eq] at hended
    refine hended.ends hexec ⟨hended.store hstore, hgrip, fun hfar hroomy hgo => ?_⟩
    refine hended.goes 11 hroomy (hnext hgo) (position_waits hxu (by rw [hkind]; decide) ?_)
    rw [hcfg, hnear, hkind]
    exact hfar
  · obtain ⟨x, z, hexec, hended, hxu, habort, hnext⟩ := grip_ended hmode hrun hphase hu hk
    refine hended.ends hexec fun hroomy hgo => ?_
    refine hended.goes 9 hroomy (hnext (habort.trans hgo)) (enterStep_spin_waits hxu 9 (spin_nine u.kind))
  · obtain ⟨t, hexec, hsettles⟩ := stepTimer_faults hmode hrun hphase hu htimer
    refine ⟨t, hexec, ?_⟩
    generalize u.kindOfStep = k at hsettles ⊢
    by_cases hfirst : s.seq.phase = .first
    · rw [hfirst] at hsettles
      simp only [hfirst, if_true]
      cases k <;> exact hsettles
    · rw [second_of hphase hfirst] at hsettles
      simp only [hfirst, if_false]
      cases k <;> exact hsettles

end Sys2Proof

/-! The end of a unit and of an aborted step (O58). -/

namespace Sys2Proof.Machine

open Host

/-! ## The sequencer at rest, and the next unit -/

/-- No unit is left: the sequencer is IDLE and has released its claim. -/
def State.UnitOver (t : State) (op : LastOp) : Prop :=
  t.seq.state = .idle ∧ t.seq.queue = [] ∧ t.ret.unit = none ∧ t.ret.claim.phase = .none ∧
    t.claims.takeRequest = false ∧ t.seq.lastOp = some op

/-- A unit of a kind is in hand, and no mark of an abort stands. -/
def State.UnitNext (t : State) (queue : List OpEntry) (kind : OpKind) : Prop :=
  t.seq.queue = queue ∧ t.ret.unit.map (·.kind) = some kind ∧ t.seq.aborted = false ∧ t.seq.emptied = false

section

variable {s z : State} (hpending : z.pending = s.pending)

include hpending

theorem finish_unitOver {op : LastOp} (h : z.UnitOver op) : (s.finish z).UnitOver op := by
  have hrest := finish_rest s z hpending
  unfold State.UnitOver
  rw [hrest.seq (by decide), hrest.ret (by decide), hrest.claims (by decide)]
  exact h

theorem finish_unitNext {queue : List OpEntry} {kind : OpKind} (h : z.UnitNext queue kind) :
    (s.finish z).UnitNext queue kind := by
  have hrest := finish_rest s z hpending
  unfold State.UnitNext
  rw [hrest.seq (by decide), hrest.ret (by decide)]
  exact h

end

theorem State.UnitNext.coasted {t z : State} {queue : List OpEntry} {kind : OpKind} (h : t.UnitNext queue kind)
    (hz : t.Coasted z) : z.UnitNext queue kind := by
  obtain ⟨hqueue, hkind, haborted, hemptied⟩ := h
  refine ⟨?_, hz.kind.trans hkind, ?_, ?_⟩ <;> rw [hz.seq] <;> assumption

section

variable {v : State}

theorem idle_over {op : LastOp} (hqueue : v.seq.queue = []) (hop : v.seq.lastOp = some op) (n : Nat) :
    (v.beginUnit n).UnitOver op := by
  obtain ⟨hseq, hunit, htake, hclaim⟩ := seqIdle_releaseClaim v
  rw [beginUnit_none hqueue]
  unfold State.UnitOver
  rw [hseq]
  exact ⟨rfl, hqueue, hunit, hclaim, htake, hop⟩

/-- What the next unit of a claim that is kept leaves. -/
theorem goes_next {e : OpEntry} {rest : List OpEntry} (hqueue : v.seq.queue = e :: rest)
    (hfull : ¬(e.kind = .breakOut ∧ v.ret.string = [])) (hclaim : v.ret.claim.phase = .active) (n : Nat) :
    (v.beginUnit (n + 1)).UnitNext (e :: rest) e.kind ∧ (v.beginUnit (n + 1)).ret.claim = v.ret.claim ∧
      (v.beginUnit (n + 1)).seq.lastOp = v.seq.lastOp := by
  rw [beginUnit_goes hqueue hfull hclaim]
  exact ⟨⟨hqueue, rfl, rfl, rfl⟩, rfl, rfl⟩

/-- What the next unit leaves that takes the claim or waits for it. -/
theorem waits_next {e : OpEntry} {rest : List OpEntry} (hqueue : v.seq.queue = e :: rest)
    (hfull : ¬(e.kind = .breakOut ∧ v.ret.string = [])) (hclaim : v.ret.claim.phase ≠ .active) (n : Nat) :
    (v.beginUnit (n + 1)).UnitNext (e :: rest) e.kind ∧ (v.beginUnit (n + 1)).seq.lastOp = v.seq.lastOp := by
  rw [beginUnit_waits hqueue hfull hclaim]
  have hnext : (v.unitWaits e).UnitNext (e :: rest) e.kind := ⟨hqueue, rfl, rfl, rfl⟩
  by_cases hmay : (v.unitWaits e).mayTake = true
  · obtain ⟨hret, -, hseq⟩ := takeTest_takes hmay
    unfold State.UnitNext at hnext ⊢
    rw [hret, hseq]
    exact ⟨hnext, rfl⟩
  · rw [takeTest_of_not (Bool.eq_false_iff.mpr hmay)]
    exact ⟨hnext, rfl⟩

/-! ## The last step of a unit (R107) -/

variable (u : UnitRec)

theorem unitEnd_done (hqueue : v.seq.queue = []) :
    (v.unitEnd u).UnitOver ⟨u.kind, if v.seq.emptied then .aborted else .complete, none, none⟩ := by
  unfold State.unitEnd
  rw [hqueue]
  exact idle_over (v := v.setLastOp u.kind (if v.seq.emptied then .aborted else .complete) none) hqueue rfl 0

section

variable {e : OpEntry} {rest : List OpEntry} (hqueue : v.seq.queue = e :: rest)

include hqueue

theorem unitEnd_again (hcount : 2 ≤ e.count) (hfull : ¬(e.kind = .breakOut ∧ v.ret.string = []))
    (hclaim : v.ret.claim.phase = .active) :
    (v.unitEnd u).UnitNext ({ e with count := e.count - 1 } :: rest) e.kind ∧ (v.unitEnd u).ret.claim = v.ret.claim ∧
      (v.unitEnd u).seq.lastOp = v.seq.lastOp := by
  have hend : v.unitEnd u =
      ({ v with seq := { v.seq with queue := { e with count := e.count - 1 } :: rest } } : State).beginUnit 9 := by
    unfold State.unitEnd
    rw [hqueue]
    dsimp only
    rw [if_neg (by omega)]
  rw [hend]
  exact goes_next (v := { v with seq := { v.seq with queue := { e with count := e.count - 1 } :: rest } }) rfl hfull hclaim 8

/-- The entry that has ended leaves with its record. -/
theorem unitEnd_leaves (hcount : e.count ≤ 1) :
    v.unitEnd u = (({ v with seq := { v.seq with queue := rest } } : State).setLastOp e.kind .complete (some e)).beginUnit 9 := by
  unfold State.unitEnd
  rw [hqueue]
  dsimp only
  rw [if_pos hcount]

end

/-! ## A unit aborted at a safe point (R120) -/

theorem unitAborted_over (hqueue : v.seq.queue = []) : (v.unitAborted u none).UnitOver ⟨u.kind, .aborted, none, none⟩ := by
  obtain ⟨hseq, hunit, htake, hclaim⟩ := unitOver_empty (v := v.setLastOp u.kind .aborted none) hqueue
  show (State.unitOver _).UnitOver _
  unfold State.UnitOver
  rw [hseq]
  exact ⟨rfl, hqueue, hunit, hclaim, htake, rfl⟩

theorem unitAborted_next {e : OpEntry} {rest : List OpEntry} (hqueue : v.seq.queue = e :: rest)
    (hfull : ¬(e.kind = .breakOut ∧ v.ret.string = [])) :
    (v.unitAborted u none).UnitNext (e :: rest) e.kind ∧
      (v.unitAborted u none).seq.lastOp = some ⟨u.kind, .aborted, none, none⟩ := by
  obtain ⟨y, hy⟩ : ∃ y, y = (v.setLastOp u.kind .aborted none).seqIdle.releaseClaim := ⟨_, rfl⟩
  obtain ⟨hseq, -, -, hclaim⟩ := seqIdle_releaseClaim (v.setLastOp u.kind .aborted none)
  have hret := releaseClaim_ret (v.setLastOp u.kind .aborted none).seqIdle
  rw [← hy] at hseq hclaim hret
  have hstring : y.ret.string = v.ret.string := by rw [hret]; rfl
  have hover : v.unitAborted u none = y.beginUnit 9 := by
    rw [hy]
    rfl
  obtain ⟨hnext, hlast⟩ := waits_next (v := y) (by rw [hseq]; exact hqueue) (by rw [hstring]; exact hfull)
    (by rw [hclaim]; decide) 8
  rw [hover]
  exact ⟨hnext, hlast.trans (by rw [hseq]; rfl)⟩

end

end Sys2Proof.Machine

/-! UNIT ends settled (O58). -/

namespace Sys2Proof.Machine

open Host

theorem unitOver_run {y : State} {op : LastOp} (h : y.UnitOver op) (n : Nat) : y.seqRunFor n = y := by
  obtain ⟨hidle, -⟩ := h
  exact seqRunFor_waiting (.inl (by rw [hidle]; decide)) n

/-- The state at the end of a step of the unit in hand: the sequencer and the claim as they stood. -/
structure State.AtEnd (s : State) (u : UnitRec) (v : State) : Prop where
  unit : v.ret.unit = some u
  queue : v.seq.queue = s.seq.queue
  aborted : v.seq.aborted = s.seq.aborted
  emptied : v.seq.emptied = s.seq.emptied
  lastOp : v.seq.lastOp = s.seq.lastOp
  claim : v.ret.claim = s.ret.claim
  string : v.ret.string = s.ret.string

theorem atEnd_ending {s x : State} {u : UnitRec} (hunit : x.ret.unit = some u)
    (hseq : x.seq = { s.seq with retract := x.seq.retract }) (hclaim : x.ret.claim = s.ret.claim)
    (hstring : x.ret.string = s.ret.string) : s.AtEnd u x.ending := by
  refine ⟨hunit, ?_, ?_, ?_, ?_, hclaim, hstring⟩
  · show x.seq.queue = _
    rw [hseq]
  · show x.seq.aborted = _
    rw [hseq]
  · show x.seq.emptied = _
    rw [hseq]
  · show x.seq.lastOp = _
    rw [hseq]

section

variable {s : State} {u : UnitRec} (hmode : s.mode = .run) (hrun : s.seq.state = .running) (hphase : s.seq.phase ≠ .ending)
  (hu : s.ret.unit = some u) (hroomy : s.link.Roomy)

include hmode hrun hphase hu hroomy

/-- CLAMP_OPEN at a RELEASE step, with room for its event. -/
theorem release_runs (hk : u.kindOfStep = .release) (hclosed : s.pins.clampClosed = false) :
    ∃ v z, exec (.clampOpen true) s = .next (s.finish z) ∧ z.pending = s.pending ∧
      ChangesOnly [.pins, .ret, .claims, .pumps, .spin, .depth, .link, .seq, .alarm] s (s.finish z) ∧ s.AtEnd u v ∧
      v.ret.hold = hung ∧ v.pins.clampClosed = false ∧ z = v.stepEnds.seqRunFor 38 := by
  obtain ⟨x, z, hexec, hpending, hended, hchanges, hseq, hgoes⟩ := release_ended hmode hrun hphase hu hk hclosed
  refine ⟨x.ending, z, hexec, hpending, hended.changes, atEnd_ending (hchanges.keeps.1.symm.trans hu) (by rw [hseq])
    hchanges.claim hchanges.string, hchanges.hold, ?_, hgoes (hchanges.told.room hroomy.slack)⟩
  · show x.pins.clampClosed = false
    rw [hchanges.pins]
    exact hclosed

/-- CLAMP_CLOSED at a CLAMP step, with room for its event. -/
theorem clamp_runs (hk : u.kindOfStep = .clamp) :
    ∃ v z, exec (.clampClosed true) s = .next (s.finish z) ∧ z.pending = s.pending ∧
      ChangesOnly [.pins, .ret, .claims, .pumps, .spin, .depth, .link, .seq, .alarm] s (s.finish z) ∧ s.AtEnd u v ∧
      v.ret.hold = ⟨.clamped, .latched, u.kind == .breakOut⟩ ∧ v.ret.rods = s.ret.rods ∧ v.mode = s.mode ∧
      z = v.stepEnds.seqRunFor 38 := by
  obtain ⟨x, z, hexec, hpending, hended, hchanges, hseq, hgoes⟩ := clamp_ended hmode hrun hphase hu hk
  obtain ⟨hunit, hkeeps⟩ := hchanges.keeps
  refine ⟨x.ending, z, hexec, hpending, hended.changes, atEnd_ending (hunit.symm.trans hu) (by rw [hseq])
    hchanges.claim hchanges.string, hchanges.hold, ?_, ?_, hgoes (hchanges.told.room hroomy.slack)⟩
  · show x.ret.rods = _
    unfold State.Keeps at hkeeps
    rw [hkeeps]
  · exact hchanges.mode

end

/-! ## The last step -/

section

variable {s v z : State} {u : UnitRec} (hv : s.AtEnd u v) (hpending : z.pending = s.pending)
  (hz : z = v.stepEnds.seqRunFor 38)

include hpending hz

theorem over_of {op : LastOp} (h : v.stepEnds.UnitOver op) : (s.finish z).UnitOver op := by
  rw [unitOver_run h 38] at hz
  rw [hz] at hpending ⊢
  exact finish_unitOver hpending h

theorem next_of {queue : List OpEntry} {kind : OpKind} (hoff : v.StepsOff v.stepEnds) (h : v.stepEnds.UnitNext queue kind) :
    (s.finish z).UnitNext queue kind ∧ (s.finish z).ret.claim = v.stepEnds.ret.claim ∧
      (s.finish z).seq.lastOp = v.stepEnds.seq.lastOp := by
  have hcoasted := seqRunFor_coasts 38 hoff.coasting h.2.2.1
  rw [← hz] at hcoasted
  have hrest := finish_rest s z hpending
  refine ⟨finish_unitNext hpending (h.coasted hcoasted), ?_, ?_⟩
  · rw [hrest.ret (by decide), hcoasted.ret]
  · rw [hrest.seq (by decide), hcoasted.seq]

include hv

/-- The end of the last step of a unit that is not aborted (R107). -/
theorem last_ends (hlast : lastStep u.kind ≤ u.step) (habort : s.seq.aborted = false) (hhold : v.ret.hold = hung)
    (hclosed : v.pins.clampClosed = false) (hactive : s.ret.claim.phase = .active) :
    (s.seq.queue = [] →
      (s.finish z).UnitOver ⟨u.kind, if s.seq.emptied then .aborted else .complete, none, none⟩) ∧
    (∀ e rest, s.seq.queue = e :: rest →
      (2 ≤ e.count → (e.kind = .breakOut → s.ret.string ≠ []) →
        (s.finish z).UnitNext ({ e with count := e.count - 1 } :: rest) e.kind ∧
          (s.finish z).ret.claim = s.ret.claim ∧ (s.finish z).seq.lastOp = s.seq.lastOp) ∧
      (e.count ≤ 1 → rest = [] → (s.finish z).UnitOver ⟨e.kind, .complete, some e.requester, some e.queued⟩) ∧
      (∀ e' rest', rest = e' :: rest' → e.count ≤ 1 → (e'.kind = .breakOut → s.ret.string ≠ []) →
        (s.finish z).UnitNext rest e'.kind ∧ (s.finish z).ret.claim = s.ret.claim ∧
          (s.finish z).seq.lastOp = some ⟨e.kind, .complete, some e.requester, some e.queued⟩) ∧
      (∀ e', rest = [e'] → e.count ≤ 1 → ¬(e'.kind = .breakOut → s.ret.string ≠ []) →
        (s.finish z).UnitOver ⟨.breakOut, .empty, some e'.requester, some e'.queued⟩)) := by
  obtain ⟨hunit, hqueue, haborted, hemptied, hlastOp, hclaim, hstring⟩ := hv
  have habort' := haborted.trans habort
  have hend := stepEnds_over hunit habort' hlast
  have hoff := stepEnds_last hunit habort' hlast hhold hclosed
  have hvactive : v.ret.claim.phase = .active := by rw [hclaim]; exact hactive
  have hfull : ∀ e : OpEntry, (e.kind = .breakOut → s.ret.string ≠ []) → ¬(e.kind = .breakOut ∧ v.ret.string = []) :=
    fun e hbegins hempty => hbegins hempty.1 (hstring.symm.trans hempty.2)
  refine ⟨fun hnone => ?_, fun e rest hsome => ?_⟩
  · refine over_of hpending hz ?_
    rw [hend, ← hemptied]
    exact unitEnd_done u (hqueue.trans hnone)
  · have hvqueue := hqueue.trans hsome
    refine ⟨fun hcount hbegins => ?_, fun hcount hrest => ?_, fun e' rest' hrest hcount hbegins => ?_,
      fun e' hrest hcount hempty => ?_⟩
    · have hagain := unitEnd_again u hvqueue hcount (hfull e hbegins) hvactive
      rw [← hend] at hagain
      obtain ⟨hnext, hkept, hlastKept⟩ := hagain
      obtain ⟨hgoes, hclaimed, hlasts⟩ := next_of hpending hz hoff hnext
      exact ⟨hgoes, hclaimed.trans (hkept.trans hclaim), hlasts.trans (hlastKept.trans hlastOp)⟩
    · refine over_of hpending hz ?_
      rw [hend, unitEnd_leaves u hvqueue hcount]
      exact idle_over (v := ({ v with seq := { v.seq with queue := rest } } : State).setLastOp _ _ _) hrest rfl 9
    · have hnext := goes_next (v := ({ v with seq := { v.seq with queue := rest } } : State).setLastOp e.kind .complete (some e))
        hrest (hfull e' hbegins) hvactive 8
      rw [← unitEnd_leaves u hvqueue hcount, ← hend, ← hrest] at hnext
      obtain ⟨hnext, hkept, hlastKept⟩ := hnext
      obtain ⟨hgoes, hclaimed, hlasts⟩ := next_of hpending hz hoff hnext
      exact ⟨hgoes, hclaimed.trans (hkept.trans hclaim), hlasts.trans hlastKept⟩
    · obtain ⟨hkind, hbare⟩ := Classical.not_imp.mp hempty
      have hnone : v.ret.string = [] := hstring.trans (not_not.mp hbare)
      refine over_of hpending hz ?_
      have hleft := beginUnit_empty (s := ({ v with seq := { v.seq with queue := rest } } : State).setLastOp e.kind .complete
        (some e)) hrest ⟨hkind, hnone⟩ 8
      rw [hend, unitEnd_leaves u hvqueue hcount, hleft]
      exact idle_over rfl rfl 8

/-- The end of a step aborted at a safe point (R120). -/
theorem safe_ends (habort : s.seq.aborted = true) (hsafe : v.safePoint = true) :
    (s.seq.queue = [] → (s.finish z).UnitOver ⟨u.kind, .aborted, none, none⟩) ∧
    (∀ e rest, s.seq.queue = e :: rest → (e.kind = .breakOut → s.ret.string ≠ []) →
      (s.finish z).UnitNext s.seq.queue e.kind ∧ (s.finish z).seq.lastOp = some ⟨u.kind, .aborted, none, none⟩) := by
  have hend := stepEnds_safe hv.unit (hv.aborted.trans habort) hsafe
  have hstops := (stepEnds_aborted hv.unit (hv.aborted.trans habort)).2
  have hrests := (stepEnds_aborted hv.unit (hv.aborted.trans habort)).1
  refine ⟨fun hnone => over_of hpending hz ?_, fun e rest hsome hbegins => ?_⟩
  · rw [hend]
    exact unitAborted_over u (hv.queue.trans hnone)
  · have hnext := unitAborted_next u (hv.queue.trans hsome) fun hempty => hbegins hempty.1 (hv.string.symm.trans hempty.2)
    rw [← hend] at hnext
    obtain ⟨hnext, hlast⟩ := hnext
    obtain ⟨hgoes, -, hlasts⟩ := next_of hpending hz (stepsOff_of_stopped hrests hstops) hnext
    rw [hsome]
    exact ⟨hgoes, hlasts.trans hlast⟩

/-- A CLAMP step aborted with a rod in the loader is held (R120). -/
theorem held_ends (habort : s.seq.aborted = true) (hk : u.kindOfStep = .clamp)
    (hhold : v.ret.hold = ⟨.clamped, .latched, u.kind == .breakOut⟩) (hload : rodInLoader v.ret.rods ≠ none)
    (hmode : v.mode = .run) :
    (s.finish z).seq.state = .hold .aborted ∧ (s.finish z).ret.unit = some { u with step := u.step + 1 } ∧
      (s.finish z).ret.claim = s.ret.claim ∧ (s.finish z).seq.queue = s.seq.queue ∧
      (s.finish z).alarm.isActive .sequenceHold = true := by
  have hunsafe : v.safePoint = false := by
    unfold State.safePoint
    rw [hhold, Option.isNone_eq_false_iff.mpr (Option.isSome_iff_ne_none.mpr hload)]
    rfl
  have hend := stepEnds_held hv.unit (hv.aborted.trans habort) hunsafe
  obtain ⟨-, hnext, -, -⟩ := clamp_next (kind := u.kind) (n := u.step) hk false
  obtain ⟨w, hw⟩ : ∃ w : State, w = { v with ret := v.ret.stepOn, seq := { v.seq with phase := .first } } := ⟨_, rfl⟩
  have hstop : w.seqHold .aborted = _ := seqStop_of_undone (stepDone_of_phase (s := w) (by rw [hw]; exact StepPhase.noConfusion)) (.hold .aborted)
  rw [← hw, hstop] at hend
  rw [hend, seqRunFor_waiting (.inl SeqState.noConfusion)] at hz
  have hret : z.ret = v.ret.stepOn := by rw [hz, hw]
  have hseq : z.seq.state = .hold .aborted ∧ z.seq.queue = v.seq.queue := by
    rw [hz, hw]
    exact ⟨rfl, rfl⟩
  have hzmode : z.mode = .run := by
    rw [hz, hw]
    exact hmode
  have hrest := finish_rest s z hpending
  obtain ⟨hstate, hqueue⟩ := hseq
  rw [hrest.seq (by decide), hrest.ret (by decide), hret, finish_isActive s ((inRun_iff z).mpr hzmode) (by decide)]
  refine ⟨hstate, ?_, hv.claim, hqueue.trans hv.queue, ?_⟩
  · show v.ret.unit.map _ = _
    rw [hv.unit, hhold]
    exact congrArg (fun n => some { u with step := n }) hnext
  · show z.seq.state.stopped = true
    rw [hstate]
    rfl

end

end Sys2Proof.Machine

namespace Sys2Proof

open Machine Host

/-- Settles O58: the claim is kept only where an entry is left whose unit begins. -/
theorem unitEndsByTheQueue : Obligations.UnitEndsByTheQueue := by
  unfold Obligations.UnitEndsByTheQueue
  intro u s hmode _ hrun hphase hu hroomy hactive
  dsimp only
  have hreleases : (u.kind, u.step) = (.makeUp, 10) ∨ (u.kind, u.step) = (.breakOut, 13) →
      u.kindOfStep = .release ∧ lastStep u.kind ≤ u.step := by
    intro hlasts
    unfold UnitRec.kindOfStep
    obtain h | h := hlasts <;> obtain ⟨hkind, hstep⟩ := Prod.mk.inj h <;> rw [hkind, hstep]
    · exact ⟨rfl, by decide⟩
    · exact ⟨rfl, by decide⟩
  refine ⟨fun hlasts hclosed habort => ?_, fun c habort hc => ?_, fun habort hk hload => ?_⟩
  · obtain ⟨hk, hlast⟩ := hreleases hlasts
    obtain ⟨v, z, hexec, hpending, hall, hv, hhold, hopen, hz⟩ := release_runs hmode hrun hphase hu hroomy hk hclosed
    exact ⟨s.finish z, hexec, hall, last_ends hv hpending hz hlast habort hhold hopen hactive⟩
  · obtain ⟨hlasts, hclosed, rfl⟩ | ⟨hk, hload, rfl⟩ := hc
    · obtain ⟨hk, -⟩ := hreleases hlasts
      obtain ⟨v, z, hexec, hpending, hall, hv, hhold, -, hz⟩ := release_runs hmode hrun hphase hu hroomy hk hclosed
      have hsafe : v.safePoint = true := by
        unfold State.safePoint
        rw [hhold]
        rfl
      exact ⟨s.finish z, hexec, hall, safe_ends hv hpending hz habort hsafe⟩
    · obtain ⟨v, z, hexec, hpending, hall, hv, -, hrods, -, hz⟩ := clamp_runs hmode hrun hphase hu hroomy hk
      have hsafe : v.safePoint = true := by
        unfold State.safePoint
        rw [hrods, hload]
        exact Bool.or_true _
      exact ⟨s.finish z, hexec, hall, safe_ends hv hpending hz habort hsafe⟩
  · obtain ⟨v, z, hexec, hpending, hall, hv, hhold, hrods, hrunning, hz⟩ := clamp_runs hmode hrun hphase hu hroomy hk
    exact ⟨s.finish z, hexec, hall, held_ends hv hpending hz habort hk hhold (by rw [hrods]; exact hload)
      (hrunning.trans hmode)⟩

end Sys2Proof

/-! A HEAD frame heard (O26): the head source, bit depth and H. -/

namespace Sys2Proof.Machine

open Host

/-! ## The entry -/

/-- The entry with the contents of a HEAD frame (R15, R89). -/
def PeerEntry.headed (m : HeadMsg) (p : PeerEntry) : PeerEntry := { p with head := some m, headFresh := true }

/-- The station with a HEAD frame in its source's entry, before the blocks are told. -/
def State.headTaken (s : State) (f : RxFrame) (m : HeadMsg) : State := (s.heardFrom f).mapPeer f.source (PeerEntry.headed m)

theorem headTaken_leaves (s : State) (f : RxFrame) (m : HeadMsg) : LeavesOther [.link, .peers] s (s.headTaken f m) :=
  (leavesOther_heardFrom s f).after (moves_mapPeer _ _ _).other (by decide) (by decide)

theorem headTaken_peer? (s : State) (f : RxFrame) (m : HeadMsg) (j : Nat) :
    (s.headTaken f m).peer? j =
      if j = f.source then (s.peer? j).map fun p => (p.refresh f.seq (3 * s.statusPeriod)).headed m else s.peer? j := by
  refine (peer?_mapPeer (s.heardFrom f) f.source (f := PeerEntry.headed m) (fun _ => rfl) j).trans ?_
  rw [heardFrom_peer?, heardFrom_peer?]
  by_cases h : j = f.source
  · rw [if_pos h, if_pos rfl, if_pos h, Option.map_map, h]
    rfl
  · rw [if_neg h, if_neg h, if_neg h]

/-! ## The head source chosen again (R89) -/

theorem chooseHeadAgain_eq (s : State) :
    s.chooseHeadAgain = { s with depth := { s.depth with
      headSource := s.chooseHead, wear := if s.chooseHead = s.depth.headSource then s.depth.wear else none } } := by
  unfold State.chooseHeadAgain
  dsimp only
  by_cases h : s.chooseHead = s.depth.headSource
  · rw [if_pos h, if_pos h, h]
  · rw [if_neg h, if_neg h]

/-- The values of a head in a HEAD frame. -/
def HeadMsg.headValues (m : HeadMsg) : HeadValues := ⟨m.h, m.known, m.turns, m.spinTurns, m.rpm⟩

/-- The values of a source that is another station. -/
theorem headValues_heard {s : State} {k : Nat} (hsource : s.depth.headSource = some k) (hk : k ≠ s.straps.number) :
    s.headValues = ((s.peer? k).bind (·.head)).map HeadMsg.headValues := by
  unfold State.headValues
  rw [hsource]
  exact if_neg hk

/-- A source whose entry stands keeps its values. -/
theorem headValues_stands {s t : State} (hret : t.ret = s.ret) (hhead : SameHead s.depth t.depth) (hstraps : t.straps = s.straps)
    (hpeer : ∀ k, s.depth.headSource = some k → t.peer? k = s.peer? k) : t.headValues = s.headValues := by
  obtain ⟨hsource, hh, hknown, hrpm⟩ := hhead
  unfold State.headValues
  rw [hsource, hh, hknown, hrpm, hret, hstraps]
  cases hs : s.depth.headSource with
  | none => rfl
  | some k =>
    dsimp only
    rw [hpeer k hs]

section

variable {s : State} {f : RxFrame} {m : HeadMsg} {p : PeerEntry}

/-- The frame changes the head source or its values (R89). -/
def State.HeadMoved (s : State) (f : RxFrame) (m : HeadMsg) (p : PeerEntry) : Prop :=
  (s.headTaken f m).chooseHead ≠ s.depth.headSource ∨
    ((s.headTaken f m).chooseHead = some f.source ∧ p.head.map HeadMsg.headValues ≠ some m.headValues)

theorem headTaken_chosen (s : State) (f : RxFrame) (m : HeadMsg) :
    LeavesOther [.link, .peers, .depth] s (s.headTaken f m).chooseHeadAgain ∧
      (s.headTaken f m).chooseHeadAgain.depth = { s.depth with
        headSource := (s.headTaken f m).chooseHead
        wear := if (s.headTaken f m).chooseHead = s.depth.headSource then s.depth.wear else none } := by
  have htaken := headTaken_leaves s f m
  refine ⟨htaken.after (moves_chooseHeadAgain _).other (by decide) (by decide), ?_⟩
  rw [chooseHeadAgain_eq, htaken.depth (by decide)]

theorem headTaken_inputs (hp : s.peer? f.source = some p) (hother : f.source ≠ s.straps.number) :
    (s.headTaken f m).chooseHeadAgain.depthInputs = (s.heardFrom f).depthInputs ↔ ¬s.HeadMoved f m p := by
  obtain ⟨hleaves, hdepth⟩ := headTaken_chosen s f m
  have hheard := leavesOther_heardFrom s f
  obtain ⟨c, hc⟩ : ∃ c, c = (s.headTaken f m).chooseHeadAgain := ⟨_, rfl⟩
  obtain ⟨y, hy⟩ : ∃ y, y = s.heardFrom f := ⟨_, rfl⟩
  rw [← hc] at hleaves hdepth ⊢
  rw [← hy] at hheard ⊢
  have hpeers : c.peers = (s.headTaken f m).peers := by rw [hc, chooseHeadAgain_eq]
  have hsource : c.depth.headSource = (s.headTaken f m).chooseHead := by rw [hdepth]
  have hbefore : y.depth.headSource = s.depth.headSource := by rw [hheard.depth (by decide)]
  have hret : c.ret = y.ret := (hleaves.ret (by decide)).trans (hheard.ret (by decide)).symm
  have hview : c.viewSure = y.viewSure := by
    unfold State.viewSure
    rw [hleaves.straps, hheard.straps, hleaves.rod (by decide), hheard.rod (by decide)]
  have hstraps : c.straps = y.straps := hleaves.straps.trans hheard.straps.symm
  have hcpeer : ∀ j, c.peer? j = (s.headTaken f m).peer? j := peer?_congr hpeers
  by_cases hkept : (s.headTaken f m).chooseHead = s.depth.headSource
  · have hsame : SameHead y.depth c.depth := by
      rw [hheard.depth (by decide), hdepth]
      exact ⟨hkept, rfl, rfl, rfl⟩
    have hiff : c.depthInputs = y.depthInputs ↔ c.headValues = y.headValues := by
      unfold State.depthInputs
      rw [hret, hview, hsame.source, DepthInputs.mk.injEq]
      exact ⟨fun h => h.2.1, fun h => ⟨rfl, h, rfl, rfl, rfl⟩⟩
    rw [hiff]
    by_cases hfrom : (s.headTaken f m).chooseHead = some f.source
    · have hnew : c.headValues = some m.headValues := by
        rw [headValues_heard (hsource.trans hfrom) (by rw [hleaves.straps]; exact hother), hcpeer, headTaken_peer?, if_pos rfl, hp]
        rfl
      have hold : y.headValues = p.head.map HeadMsg.headValues := by
        rw [headValues_heard (hbefore.trans (hkept.symm.trans hfrom)) (by rw [hheard.straps]; exact hother), hy,
          heardFrom_peer?, if_pos rfl, hp]
        rfl
      rw [hnew, hold]
      exact ⟨fun h hmoved => hmoved.elim (· hkept) fun k => k.2 h.symm, fun h => by
        by_contra hne
        exact h (.inr ⟨hfrom, fun k => hne k.symm⟩)⟩
    · refine iff_of_true (headValues_stands hret hsame hstraps fun k hk => ?_) fun hmoved =>
        hmoved.elim (· hkept) fun k => hfrom k.1
      have hne : k ≠ f.source := fun h => hfrom (hkept.trans (hbefore.symm.trans (hk.trans (congrArg some h))))
      rw [hcpeer, headTaken_peer?, if_neg hne, hy, heardFrom_peer?, if_neg hne]
  · refine iff_of_false (fun h => hkept ?_) fun h => h (.inl hkept)
    exact hsource.symm.trans ((congrArg DepthInputs.source h).trans hbefore)

/-- What the source chosen again and bit depth formed again leave. -/
structure State.HeadFollowed (s : State) (f : RxFrame) (m : HeadMsg) (p : PeerEntry) (a : State) : Prop where
  other : LeavesOther [.link, .peers, .depth, .ret, .alarm] s a
  peers : a.peers = (s.headTaken f m).peers
  ret : s.ret.Deepens a.ret
  source : a.depth.headSource = (s.headTaken f m).chooseHead
  wear : a.depth.wear = if (s.headTaken f m).chooseHead = s.depth.headSource then s.depth.wear else none
  moved : s.HeadMoved f m p → a.depth.bitDepth = a.depthNow ∧ a.ret.hole = max s.ret.hole (a.depthNow.getD 0)
  stood : ¬s.HeadMoved f m p → a.depth.bitDepth = s.depth.bitDepth ∧ a.depth.onBottom = s.depth.onBottom ∧ a.ret = s.ret

theorem headFollowed (hrun : s.mode = .run) (hhead : s.straps.head = false) (hp : s.peer? f.source = some p)
    (hother : f.source ≠ s.straps.number) : s.HeadFollowed f m p ((s.headTaken f m).headRefresh (s.heardFrom f)) := by
  obtain ⟨hleaves, hdepth⟩ := headTaken_chosen s f m
  have htaken := headTaken_leaves s f m
  have hinputs := headTaken_inputs (m := m) hp hother
  have hrefresh : (s.headTaken f m).headRefresh (s.heardFrom f) =
      (s.headTaken f m).chooseHeadAgain.depthFollows (s.heardFrom f) := by
    unfold State.headRefresh
    refine if_pos ?_
    rw [(inRun_iff _).mpr (htaken.mode.trans hrun), htaken.straps, hhead]
    rfl
  have hpeers : (s.headTaken f m).chooseHeadAgain.peers = (s.headTaken f m).peers := by rw [chooseHeadAgain_eq]
  have hcret : (s.headTaken f m).chooseHeadAgain.ret = s.ret := hleaves.ret (by decide)
  obtain ⟨c, hc⟩ : ∃ c, c = (s.headTaken f m).chooseHeadAgain := ⟨_, rfl⟩
  rw [hrefresh]
  rw [← hc] at hleaves hdepth hinputs hpeers hcret ⊢
  have hin : c.inRun = true := (inRun_iff c).mpr (hleaves.mode.trans hrun)
  have hmoves := (moves_depthFollows c (s.heardFrom f)).other
  have hdeepens := deepens_depthFollows c (s.heardFrom f)
  rw [hcret] at hdeepens
  by_cases hmoved : s.HeadMoved f m p
  · have hfollows : c.depthFollows (s.heardFrom f) = c.recomputeDepth :=
      depthFollows_of_changed fun h => hinputs.mp h hmoved
    have hformed := recomputeDepth_depth hin
    refine ⟨hleaves.after hmoves (by decide) (by decide), (hmoves.peers (by decide)).trans hpeers, hdeepens, ?_, ?_, fun _ => ?_,
      fun h => absurd hmoved h⟩ <;> rw [hfollows, hformed]
    · rw [hdepth]
    · rw [hdepth]
    · rw [recomputeDepth_now hin, recomputeDepth_hole hin, hcret]
      exact ⟨rfl, rfl⟩
  · have hfollows : c.depthFollows (s.heardFrom f) = c := depthFollows_of_same (hinputs.mpr hmoved)
    refine ⟨hleaves.after hmoves (by decide) (by decide), (hmoves.peers (by decide)).trans hpeers, hdeepens, ?_, ?_,
      fun h => absurd h hmoved, fun _ => ?_⟩ <;> rw [hfollows, hdepth]
    exact ⟨rfl, rfl, hcret⟩

end

end Sys2Proof.Machine

/-! A HEAD frame heard (O26): the turns it credits and the spin it reports. -/

namespace Sys2Proof.Machine

open Host

/-! ## Bit depth with worn rods -/

/-- The lengths of the rods follow their types. -/
theorem rodLength_map {s t : State} {f : Rod → Rod} (hf : ∀ d, (f d).id = d.id ∧ (f d).type = d.type)
    (hrods : t.ret.rods = s.ret.rods.map f) (hitems : t.ret.items = s.ret.items) (j : Nat) :
    t.rodLength j = s.rodLength j := by
  have hfind : findRod t.ret.rods j = (findRod s.ret.rods j).map f := by
    unfold findRod
    rw [hrods, List.find?_map]
    congr 2
    funext d
    rw [Function.comp_apply, (hf d).1]
  unfold State.rodLength State.typeLength State.cfg
  rw [hfind, hitems, Option.map_map]
  congr 2
  funext d
  rw [Function.comp_apply, (hf d).2]

theorem depthNow_of_lengths {s t : State} (hinputs : t.depthInputs = s.depthInputs) (hitems : t.ret.items = s.ret.items)
    (hlength : ∀ j, t.rodLength j = s.rodLength j) : t.depthNow = s.depthNow := by
  simp only [State.depthInputs, DepthInputs.mk.injEq] at hinputs
  obtain ⟨-, hhead, hstring, hhold, hsure⟩ := hinputs
  have hlen : t.rodLength = s.rodLength := funext hlength
  simp only [State.depthNow, State.headPosition, State.stringLength, State.topLength, State.lengthOf, State.cfg, hhead,
    hstring, hhold, hsure, hitems, hlen]

theorem depthNow_of_parts {s t : State} (hret : t.ret = s.ret) (hdepth : t.depth = s.depth) (hstraps : t.straps = s.straps)
    (hpeers : t.peers = s.peers) (hrod : t.rod = s.rod) : t.depthNow = s.depthNow := by
  refine depthNow_of_inputs (depthInputs_of_same ?_ ?_ hstraps hpeers hrod) (by rw [hret]) (by rw [hret])
  · rw [hret]
    exact .refl _
  · rw [hdepth]
    exact .refl _

/-! ## The wear credit (R101) -/

/-- The rods with the turns credited, if there are any to credit. -/
def State.rodsCredited (s : State) : Option Nat → List Rod
  | some n => s.rodsWorn n
  | none => s.ret.rods

/-- Turns that may be credited, taken. -/
structure State.Credits (s : State) (n : Option Nat) (t : State) : Prop where
  other : LeavesOther [.ret] s t
  ret : t.ret = { s.ret with rods := t.ret.rods, intervals := t.ret.intervals }
  rods : t.ret.rods = s.rodsCredited n

theorem credited_credits (s : State) (n : Option Nat) : s.Credits n (s.credited n) := by
  cases n with
  | none => exact ⟨.refl _ s, rfl, rfl⟩
  | some n =>
    refine ⟨(moves_creditTurns s n).other, ?_, creditTurns_same s n (·.rods) fun _ _ => rfl⟩
    have hsame := creditTurns_same s n (fun r => { r with rods := [], intervals := [] }) fun _ _ => rfl
    exact congrArg (fun r : Retained => { r with
      rods := (s.creditTurns n).ret.rods, intervals := (s.creditTurns n).ret.intervals }) hsame

theorem rodsWorn_map (s : State) (n : Nat) : ∃ f : Rod → Rod,
    (∀ d, (f d).id = d.id ∧ (f d).type = d.type) ∧ s.rodsWorn n = s.ret.rods.map f := by
  unfold State.rodsWorn
  by_cases hrod : s.straps.rod = true
  · rw [if_pos hrod]
    refine ⟨_, fun d => ?_, rfl⟩
    split <;> exact ⟨rfl, rfl⟩
  · rw [if_neg hrod]
    exact ⟨id, fun _ => ⟨rfl, rfl⟩, (List.map_id _).symm⟩

theorem State.Credits.depthNow {s t : State} {n : Option Nat} (h : s.Credits n t) : t.depthNow = s.depthNow := by
  have hother := h.other
  have hret := h.ret
  refine depthNow_of_lengths ?_ (by rw [hret]) fun j => ?_
  · have hpeer : ∀ k, t.peer? k = s.peer? k := peer?_congr (hother.peers (by decide))
    have hvalues : t.headValues = s.headValues := by
      unfold State.headValues
      rw [hother.depth (by decide), hother.straps, hret]
      cases s.depth.headSource with
      | none => rfl
      | some k =>
        dsimp only
        rw [hpeer k]
    unfold State.depthInputs State.viewSure
    rw [hvalues, hother.depth (by decide), hother.straps, hother.rod (by decide), hret]
  · obtain ⟨f, hf, hrods⟩ : ∃ f : Rod → Rod, (∀ d, (f d).id = d.id ∧ (f d).type = d.type) ∧ t.ret.rods = s.ret.rods.map f := by
      have hrods := h.rods
      cases n with
      | none => exact ⟨id, fun _ => ⟨rfl, rfl⟩, hrods.trans (List.map_id _).symm⟩
      | some n =>
        obtain ⟨f, hf, hworn⟩ := rodsWorn_map s n
        exact ⟨f, hf, hrods.trans hworn⟩
    exact rodLength_map hf hrods (by rw [hret]) j

/-! ## The spin a HEAD frame reports (R116, R119) -/

/-- The report fails the step in hand. -/
def State.ReportFails (s : State) (k : Nat) (m : HeadMsg) : Prop :=
  s.seq.spin = .accepted k m.number ∧ (m.spin = .failed ∨ m.spin = .abandoned) ∧ s.seq.state = .running

section

variable {b : State} {k : Nat} {m : HeadMsg}

theorem spinReport_stands (hundone : b.seq.spin = .accepted k m.number → m.spin ≠ .done) (h : ¬b.ReportFails k m) :
    b.spinReport k m.spin m.number = b := by
  unfold State.spinReport
  cases b.ret.unit with
  | none => rfl
  | some u =>
    cases hspin : b.seq.spin with
    | accepted j n =>
      dsimp only
      by_cases hat : j = k ∧ n = m.number
      · rw [if_pos hat]
        obtain ⟨rfl, rfl⟩ := hat
        have hrest : m.spin = .failed ∨ m.spin = .abandoned → b.seq.state ≠ .running := fun hm hrun => h ⟨hspin, hm, hrun⟩
        cases u.kindOfStep with
        | spin kind =>
          dsimp only
          cases hm : m.spin with
          | done => exact absurd hm (hundone hspin)
          | failed => exact if_neg (hrest (.inl hm))
          | abandoned => exact if_neg (hrest (.inr hm))
          | idle => rfl
          | running => rfl
        | _ => rfl
      · exact if_neg hat
    | _ => rfl

theorem spinReport_fails (hphase : b.seq.phase ≠ .ending)
    (hspins : ∃ u kind, b.ret.unit = some u ∧ u.kindOfStep = .spin kind) (h : b.ReportFails k m) :
    b.spinReport k m.spin m.number = { b with seq := { b.seq with
      state := .fault .spin, phase := .first, timer := none
      index := false, present := false, store := false, retract := false } } := by
  obtain ⟨hspin, hm, hrun⟩ := h
  obtain ⟨u, kind, hu, hk⟩ := hspins
  have hfault : b.seqFault .spin = { b with seq := { b.seq with
      state := .fault .spin, phase := .first, timer := none
      index := false, present := false, store := false, retract := false } } := by
    have hstop := seqStop_of_undone (stepDone_of_phase hphase) (.fault .spin)
    rw [hspin] at hstop
    refine Eq.trans hstop ?_
    rw [show ({ b.seq with
      state := .fault .spin, phase := .first, timer := none
      index := false, present := false, store := false, retract := false } : Sequencer) = { b.seq with
      state := .fault .spin, phase := .first, timer := none, spin := b.seq.spin
      index := false, present := false, store := false, retract := false } from rfl, hspin]
    rfl
  unfold State.spinReport
  rw [hu, hspin]
  dsimp only
  rw [if_pos ⟨rfl, rfl⟩, hk]
  obtain hm | hm := hm <;> rw [hm] <;> exact (if_pos hrun).trans hfault

end

end Sys2Proof.Machine

/-! A HEAD frame heard at a station without the HEAD role: what the blocks are told (O26). -/

namespace Sys2Proof.Machine

open Host

section

variable {s a : State} {f : RxFrame} {m : HeadMsg} {p : PeerEntry}

/-- The station once the wear of a HEAD frame is credited. -/
def State.worn (a : State) (f : RxFrame) (turned : Bool) : State :=
  if a.depth.headSource = some f.source ∧ (!a.straps.head) = true ∧ turned = true then a.wearCredit else a

theorem headFollowed_values (ha : s.HeadFollowed f m p a) (hp : s.peer? f.source = some p) (hother : f.source ≠ s.straps.number)
    (hsource : a.depth.headSource = some f.source) : a.headValues = some m.headValues := by
  rw [headValues_heard hsource (by rw [ha.other.straps]; exact hother), peer?_congr ha.peers, headTaken_peer?, if_pos rfl, hp]
  rfl

/-- What the wear credit leaves. -/
structure State.Worn (a : State) (credits : Prop) [Decidable credits] (m : HeadMsg) (b : State) : Prop where
  other : LeavesOther [.depth, .ret] a b
  depth : b.depth = { a.depth with wear := if credits then some (m.turns, m.spinTurns) else a.depth.wear }
  ret : b.ret = { a.ret with rods := b.ret.rods, intervals := b.ret.intervals }
  rods : b.ret.rods = a.rodsCredited (if credits then wearOf a.depth.wear m.turns m.spinTurns else none)
  now : b.depthNow = a.depthNow

theorem worn_of (ha : s.HeadFollowed f m p a) (hp : s.peer? f.source = some p) (hother : f.source ≠ s.straps.number)
    (hhead : s.straps.head = false) (turned : Bool) :
    a.Worn (a.depth.headSource = some f.source ∧ turned = true) m (a.worn f turned) := by
  have hoff : (!a.straps.head) = true := by
    rw [ha.other.straps, hhead]
    rfl
  by_cases h : a.depth.headSource = some f.source ∧ turned = true
  · have hworn : a.worn f turned = ({ a with depth := { a.depth with wear := some (m.turns, m.spinTurns) } } : State).credited
        (wearOf a.depth.wear m.turns m.spinTurns) := by
      unfold State.worn
      rw [if_pos ⟨h.1, hoff, h.2⟩, wearCredit_eq (headFollowed_values ha hp hother h.1)]
      rfl
    obtain ⟨a', ha'⟩ : ∃ a' : State, a' = { a with depth := { a.depth with wear := some (m.turns, m.spinTurns) } } := ⟨_, rfl⟩
    rw [← ha'] at hworn
    have hcredits := credited_credits a' (wearOf a.depth.wear m.turns m.spinTurns)
    rw [← hworn] at hcredits
    have hother := hcredits.other
    have hret := hcredits.ret
    have hrods := hcredits.rods
    have hnow : a'.depthNow = a.depthNow := by
      rw [ha']
      exact depthNow_of_inputs (depthInputs_of_same (.refl _) ⟨rfl, rfl, rfl, rfl⟩ rfl rfl rfl) rfl rfl
    have haret : a'.ret = a.ret := by rw [ha']
    rw [haret] at hret
    have hworn' : ∀ n, a'.rodsWorn n = a.rodsWorn n := by
      rw [ha']
      intro n
      rfl
    refine ⟨?_, ?_, hret, ?_, hcredits.depthNow.trans hnow⟩
    · refine LeavesOther.after (p := [.depth]) (s := a) (t := a') ?_ hother (by decide) (by decide)
      rw [ha']
      exact (moves_depth a _).other
    · rw [hother.depth (by decide), if_pos h, ha']
    · rw [if_pos h, hrods]
      cases wearOf a.depth.wear m.turns m.spinTurns with
      | none => exact congrArg Retained.rods haret
      | some n => exact hworn' n
  · have hworn : a.worn f turned = a := if_neg fun k => h ⟨k.1, k.2.2⟩
    rw [hworn]
    refine ⟨.refl _ a, ?_, rfl, ?_, rfl⟩
    · rw [if_neg h]
    · show a.rodsCredited none = _
      rw [if_neg h]

end

/-! ## The rods worn, in the words of R101 and R102 -/

theorem diff32_of_le {now last : Nat} (h : last ≤ 4294967295) : diff32 now last = (now + 4294967296 - last) % 4294967296 := by
  unfold diff32
  rw [Nat.mod_eq_of_lt (a := last) (by omega)]

theorem wearOf_some {a b turns spins : Nat} (ha : a ≤ 4294967295) (hb : b ≤ 4294967295) :
    wearOf (some (a, b)) turns spins =
      if (turns + 4294967296 - a) % 4294967296 ≤ 100000 ∧
          (spins + 4294967296 - b) % 4294967296 ≤ (turns + 4294967296 - a) % 4294967296 then
        some ((turns + 4294967296 - a) % 4294967296 - (spins + 4294967296 - b) % 4294967296)
      else none := by
  unfold wearOf
  rw [Option.bind_some, diff32_of_le ha, diff32_of_le hb]

theorem wearRod_eq (s : State) (n : Nat) (r : Rod) :
    s.wearRod n r = { r with
      turns := min 4294967295 (r.turns + n)
      due := r.due || decide (s.cfg Item.typeWear r.type * 1000 ≤ r.turns + n ∧
        s.cfg Item.typeWear r.type * 1000 ≤ 4294967295) } := by
  have hmin : s.cfg Item.typeWear r.type * 1000 ≤ satAdd top32 r.turns n ↔ s.cfg Item.typeWear r.type * 1000 ≤ r.turns + n ∧
      s.cfg Item.typeWear r.type * 1000 ≤ 4294967295 := le_min_iff.trans and_comm
  unfold State.wearRod
  dsimp only
  rw [decide_eq_decide.mpr hmin]
  rfl

end Sys2Proof.Machine

/-! A HEAD frame heard, settled (O26). -/

namespace Sys2Proof.Machine

open Host

section

variable {s : State} {bytes : List Byte} {f : RxFrame} {m : HeadMsg} {p : PeerEntry}

/-- A frame that changes the counts stored of its source. -/
def PeerEntry.turnedBy (p : PeerEntry) (m : HeadMsg) : Bool :=
  p.head.any fun v => v.turns != m.turns || v.spinTurns != m.spinTurns

theorem headFrom_config (h : s.mode ≠ .run) (hbody : f.body = .head m) : (s.heardFrom f).handOn f = s.headTaken f m := by
  have hin : (s.headTaken f m).inRun = false := Bool.eq_false_iff.mpr fun k => h
    ((headTaken_leaves s f m).mode.symm.trans ((inRun_iff _).mp k))
  unfold State.handOn
  rw [hbody]
  exact if_neg (Bool.eq_false_iff.mp hin)

theorem headFrom_run (h : s.mode = .run) (hbody : f.body = .head m) (hp : s.peer? f.source = some p) :
    (s.heardFrom f).handOn f =
      (((s.headTaken f m).headRefresh (s.heardFrom f)).worn f (p.turnedBy m)).seqRun.spinReport f.source m.spin m.number := by
  have hin : (s.headTaken f m).inRun = true := (inRun_iff _).mpr ((headTaken_leaves s f m).mode.trans h)
  have hturned : (((s.heardFrom f).peer? f.source).bind (·.head)).any
      (fun v => v.turns != m.turns || v.spinTurns != m.spinTurns) = p.turnedBy m := by
    rw [heardFrom_peer?, if_pos rfl, hp]
    rfl
  unfold State.handOn
  rw [hbody]
  dsimp only
  unfold State.headFrom
  dsimp only
  rw [hturned]
  exact if_pos hin

/-- What a HEAD frame leaves in RUN, before the alarms follow. -/
structure State.HeadTold (s : State) (f : RxFrame) (m : HeadMsg) (p : PeerEntry) (w : State) : Prop where
  other : LeavesOther [.peers, .link, .ret, .depth, .seq, .alarm] s w
  peers : w.peers = (s.headTaken f m).peers
  stands : ¬s.ReportFails f.source m → w.seq = s.seq
  fails : s.ReportFails f.source m → w.seq = { s.seq with
    state := .fault .spin, phase := .first, timer := none
    index := false, present := false, store := false, retract := false }

/-- The sequencer waits, or is at a SPIN step. -/
theorem report_leaves {b : State} (hother : LeavesOther [.link, .peers, .depth, .ret, .alarm] s b)
    (hpeers : b.peers = (s.headTaken f m).peers) (hunit : b.ret.unit = s.ret.unit)
    (hrest : s.seq.state ≠ .running ∨
      s.seq.phase ≠ .ending ∧ ∃ u kind, s.ret.unit = some u ∧ u.kindOfStep = .spin kind)
    (hundone : s.seq.spin = .accepted f.source m.number → m.spin ≠ .done) :
    s.HeadTold f m p (b.seqRun.spinReport f.source m.spin m.number) ∧
      (b.seqRun.spinReport f.source m.spin m.number).ret = b.ret ∧
      (b.seqRun.spinReport f.source m.spin m.number).depth = b.depth := by
  have hseq : b.seq = s.seq := hother.seq (by decide)
  have hfails : b.ReportFails f.source m ↔ s.ReportFails f.source m := by
    unfold State.ReportFails
    rw [hseq]
  have hwaits : b.seq.state ≠ .running ∨ b.phaseReady = false := by
    rw [hseq]
    refine hrest.imp id fun ⟨hphase, u, kind, hu, hk⟩ => ?_
    unfold State.phaseReady
    rw [hunit, hu, hseq]
    dsimp only
    rw [hk]
    cases hp : s.seq.phase with
    | ending => exact absurd hp hphase
    | first => rfl
    | second => rfl
  rw [seqRun_of_waiting hwaits]
  by_cases h : s.ReportFails f.source m
  · obtain ⟨hspin, hm, hrun⟩ := h
    obtain ⟨hphase, u, kind, hu, hk⟩ := hrest.resolve_left fun hstill => hstill hrun
    have hreport := spinReport_fails (b := b) (by rw [hseq]; exact hphase) ⟨u, kind, hunit.trans hu, hk⟩
      (hfails.mpr ⟨hspin, hm, hrun⟩)
    rw [hreport]
    refine ⟨⟨hother.after (moves_seq b _).other (by decide) (by decide), hpeers, fun k => absurd ⟨hspin, hm, hrun⟩ k, fun _ => ?_⟩,
      rfl, rfl⟩
    rw [hseq]
  · rw [spinReport_stands (by rw [hseq]; exact hundone) fun k => h (hfails.mp k)]
    exact ⟨⟨hother.mono (by decide), hpeers, fun _ => hseq, fun k => absurd k h⟩, rfl, rfl⟩

end

/-! ## A station with the HEAD role, and one without -/

section

variable {s w : State} {bytes : List Byte} {f : RxFrame} {m : HeadMsg} {p : PeerEntry}

/-- A station with the HEAD role keeps its own head (R89). -/
theorem headTold_own (hhead : s.straps.head = true)
    (hrest : s.seq.state ≠ .running ∨
      s.seq.phase ≠ .ending ∧ ∃ u kind, s.ret.unit = some u ∧ u.kindOfStep = .spin kind)
    (hundone : s.seq.spin = .accepted f.source m.number → m.spin ≠ .done)
    (hw : w = (((s.headTaken f m).headRefresh (s.heardFrom f)).worn f (p.turnedBy m)).seqRun.spinReport f.source m.spin
      m.number) :
    s.HeadTold f m p w ∧ w.depth = s.depth ∧ w.ret = s.ret := by
  have htaken := headTaken_leaves s f m
  have hoff : (!(s.headTaken f m).straps.head) = false := by rw [htaken.straps, hhead]; rfl
  have hrefresh : (s.headTaken f m).headRefresh (s.heardFrom f) = s.headTaken f m := by
    unfold State.headRefresh
    rw [hoff, Bool.and_false]
    rfl
  have hworn : (s.headTaken f m).worn f (p.turnedBy m) = s.headTaken f m := if_neg fun h => by
    rw [hoff] at h
    exact Bool.false_ne_true h.2.1
  rw [hrefresh, hworn] at hw
  obtain ⟨htold, hret, hdepth⟩ := report_leaves (p := p) (b := s.headTaken f m) (htaken.mono (by decide)) rfl
    (by rw [htaken.ret (by decide)]) hrest hundone
  rw [← hw] at htold hret hdepth
  exact ⟨htold, hdepth.trans (htaken.depth (by decide)), hret.trans (htaken.ret (by decide))⟩

/-- What a HEAD frame changes at a station without the HEAD role. -/
structure State.HeadChanged (s : State) (f : RxFrame) (m : HeadMsg) (p : PeerEntry) (w : State) : Prop where
  source : w.depth.headSource = (s.headTaken f m).chooseHead
  moved : s.HeadMoved f m p → w.depth.bitDepth = w.depthNow ∧ w.ret.hole = max s.ret.hole (w.depthNow.getD 0)
  stood : ¬s.HeadMoved f m p →
    w.depth.bitDepth = s.depth.bitDepth ∧ w.depth.onBottom = s.depth.onBottom ∧ w.ret.hole = s.ret.hole
  credited : (s.headTaken f m).chooseHead = some f.source ∧ p.turnedBy m = true →
    w.depth.wear = some (m.turns, m.spinTurns)
  uncredited : ¬((s.headTaken f m).chooseHead = some f.source ∧ p.turnedBy m = true) →
    w.depth.wear = (if (s.headTaken f m).chooseHead = s.depth.headSource then s.depth.wear else none) ∧
      w.ret.rods = s.ret.rods
  rods : (s.headTaken f m).chooseHead = some f.source ∧ p.turnedBy m = true →
    w.ret.rods = s.rodsCredited
      (wearOf (if (s.headTaken f m).chooseHead = s.depth.headSource then s.depth.wear else none) m.turns m.spinTurns)

theorem headTold_other (hrun : s.mode = .run) (hhead : s.straps.head = false) (hp : s.peer? f.source = some p)
    (hother : f.source ≠ s.straps.number)
    (hrest : s.seq.state ≠ .running ∨
      s.seq.phase ≠ .ending ∧ ∃ u kind, s.ret.unit = some u ∧ u.kindOfStep = .spin kind)
    (hundone : s.seq.spin = .accepted f.source m.number → m.spin ≠ .done)
    (hw : w = (((s.headTaken f m).headRefresh (s.heardFrom f)).worn f (p.turnedBy m)).seqRun.spinReport f.source m.spin
      m.number) :
    s.HeadTold f m p w ∧ s.HeadChanged f m p w := by
  have ha := headFollowed (m := m) hrun hhead hp hother
  obtain ⟨a, haeq⟩ : ∃ a, a = (s.headTaken f m).headRefresh (s.heardFrom f) := ⟨_, rfl⟩
  rw [← haeq] at ha hw
  have hb := worn_of ha hp hother hhead (p.turnedBy m)
  obtain ⟨b, hbeq⟩ : ∃ b, b = a.worn f (p.turnedBy m) := ⟨_, rfl⟩
  rw [← hbeq] at hb hw
  have hbother : LeavesOther [.link, .peers, .depth, .ret, .alarm] s b := ha.other.after hb.other (by decide) (by decide)
  have hbpeers : b.peers = (s.headTaken f m).peers := (hb.other.peers (by decide)).trans ha.peers
  have hbret := hb.ret
  have hbdepth := hb.depth
  have hbrods := hb.rods
  have hdeepens := ha.ret
  have hsource := ha.source
  have hunit : b.ret.unit = s.ret.unit := by rw [hbret]; exact hdeepens.unit
  obtain ⟨htold, hret, hdepth⟩ := report_leaves (p := p) hbother hbpeers hunit hrest hundone
  rw [← hw] at htold hret hdepth
  have hnow : w.depthNow = a.depthNow := by
    refine (depthNow_of_parts hret hdepth ?_ ?_ ?_).trans hb.now
    · rw [htold.other.straps, hbother.straps]
    · rw [htold.peers, hbpeers]
    · rw [htold.other.rod (by decide), hbother.rod (by decide)]
  have hhole : w.ret.hole = a.ret.hole := by rw [hret, hbret]
  have hworn : ∀ n, a.rodsWorn n = s.rodsWorn n := fun n => by
    unfold State.rodsWorn State.wearRod State.cfg
    rw [ha.other.straps, hdeepens.rods, hdeepens.string, hdeepens.items]
  rw [hsource] at hbdepth hbrods
  refine ⟨htold, ?_, fun hmoved => ?_, fun hstood => ?_, fun hcredits => ?_, fun hnot => ?_, fun hcredits => ?_⟩
  · rw [hdepth, hbdepth]
    exact hsource
  · obtain ⟨hbit, hrose⟩ := ha.moved hmoved
    rw [hnow, hhole, hdepth, hbdepth]
    exact ⟨hbit, hrose⟩
  · obtain ⟨hbit, hbottom, hkept⟩ := ha.stood hstood
    rw [hhole, hdepth, hbdepth, hkept]
    exact ⟨hbit, hbottom, rfl⟩
  · rw [hdepth, hbdepth, if_pos hcredits]
  · rw [if_neg hnot] at hbrods
    rw [hdepth, hbdepth, if_neg hnot, hret, hbrods]
    exact ⟨ha.wear, hdeepens.rods⟩
  · rw [if_pos hcredits, ha.wear] at hbrods
    rw [hret, hbrods]
    cases wearOf _ m.turns m.spinTurns with
    | none => exact hdeepens.rods
    | some n => exact hworn n

end

end Sys2Proof.Machine

/-! A HEAD frame heard, in the obligation's words (O26). -/

namespace Sys2Proof.Machine

open Host

/-- The rods credited, in the words of R101 and R102. -/
theorem rodsCredited_eq (s : State) {m : HeadMsg} {a b : Nat} {kept credits : Prop} [Decidable kept] [Decidable credits]
    (hwear : s.depth.wear = some (a, b)) (ha : a ≤ 4294967295) (hb : b ≤ 4294967295)
    (hcredits : credits ↔ kept ∧ (m.turns + 4294967296 - a) % 4294967296 ≤ 100000 ∧
      (m.spinTurns + 4294967296 - b) % 4294967296 ≤ (m.turns + 4294967296 - a) % 4294967296 ∧ s.straps.rod = true) :
    s.rodsCredited (wearOf (if kept then s.depth.wear else none) m.turns m.spinTurns) = s.ret.rods.map fun r : Rod =>
      if credits ∧ r.id ∈ s.ret.string then
        { r with
          turns := min 4294967295 (r.turns + ((m.turns + 4294967296 - a) % 4294967296 - (m.spinTurns + 4294967296 - b) % 4294967296))
          due := r.due || decide (s.cfg Item.typeWear r.type * 1000 ≤
              r.turns + ((m.turns + 4294967296 - a) % 4294967296 - (m.spinTurns + 4294967296 - b) % 4294967296) ∧
            s.cfg Item.typeWear r.type * 1000 ≤ 4294967295) }
      else r := by
  have hnone : ¬credits → s.ret.rods = s.ret.rods.map fun r : Rod =>
      if credits ∧ r.id ∈ s.ret.string then
        { r with
          turns := min 4294967295 (r.turns + ((m.turns + 4294967296 - a) % 4294967296 - (m.spinTurns + 4294967296 - b) % 4294967296))
          due := r.due || decide (s.cfg Item.typeWear r.type * 1000 ≤
              r.turns + ((m.turns + 4294967296 - a) % 4294967296 - (m.spinTurns + 4294967296 - b) % 4294967296) ∧
            s.cfg Item.typeWear r.type * 1000 ≤ 4294967295) }
      else r := fun h => by
    refine (List.map_id'' (fun r => ?_) _).symm
    exact if_neg fun k => h k.1
  by_cases hkept : kept
  · rw [if_pos hkept, hwear, wearOf_some ha hb]
    split
    · next hcount =>
      show s.rodsWorn _ = _
      unfold State.rodsWorn
      by_cases hrod : s.straps.rod = true
      · have hyes : credits := hcredits.mpr ⟨hkept, hcount.1, hcount.2, hrod⟩
        rw [if_pos hrod]
        refine List.map_congr_left fun r _ => ?_
        by_cases hin : r.id ∈ s.ret.string
        · rw [if_pos (List.contains_iff_mem.mpr hin), if_pos ⟨hyes, hin⟩, wearRod_eq]
        · rw [if_neg fun h => hin (List.contains_iff_mem.mp h), if_neg fun h => hin h.2]
      · rw [if_neg hrod]
        exact hnone fun h => hrod (hcredits.mp h).2.2.2
    · next hcount => exact hnone fun h => hcount ⟨(hcredits.mp h).2.1, (hcredits.mp h).2.2.1⟩
  · rw [if_neg hkept]
    exact hnone fun h => hkept (hcredits.mp h).1

theorem headValues_iff (v m : HeadMsg) : v.headValues = m.headValues ↔
    (v.h, v.known, v.turns, v.spinTurns, v.rpm) = (m.h, m.known, m.turns, m.spinTurns, m.rpm) := by
  unfold HeadMsg.headValues
  simp only [HeadValues.mk.injEq, Prod.mk.injEq]

theorem headMoved_iff (s : State) (f : RxFrame) (m : HeadMsg) (p : PeerEntry) {source : Option Nat}
    (hsource : source = (s.headTaken f m).chooseHead) :
    s.HeadMoved f m p ↔ ¬source = s.depth.headSource ∨ (source = some f.source ∧
      p.head.map (fun v => (v.h, v.known, v.turns, v.spinTurns, v.rpm)) ≠
        some (m.h, m.known, m.turns, m.spinTurns, m.rpm)) := by
  unfold State.HeadMoved
  rw [hsource]
  refine or_congr Iff.rfl (and_congr_right fun _ => not_congr ?_)
  cases p.head with
  | none => exact ⟨nofun, nofun⟩
  | some v =>
    rw [Option.map_some, Option.map_some, Option.some.injEq, Option.some.injEq]
    exact headValues_iff v m

theorem chooseHead_other {s : State} (h : s.straps.head = false) :
    s.chooseHead = (s.peers.find? fun q => !q.stale && q.headFresh && q.status.any fun n => n.roles.head).map (·.station) := by
  unfold State.chooseHead
  rw [h]
  refine congrArg (Option.map _) (congrArg (List.find? · s.peers) (funext fun q => ?_))
  exact Bool.and_right_comm _ _ _

end Sys2Proof.Machine

namespace Sys2Proof

open Machine Host

/-- Settles O26: the source and bit depth follow the entry, then the wear, then the report. -/
theorem headHeard : Obligations.HeadHeard := by
  unfold Obligations.HeadHeard
  intro bytes f m p s hears hs hbody hknows hfresh hrest
  dsimp only
  intro hundone
  obtain ⟨hp, -⟩ := hknows
  obtain ⟨w, hw⟩ : ∃ w, w = (s.heardFrom f).handOn f := ⟨_, rfl⟩
  have hexec := exec_frameReceived hears hp hfresh
  rw [← hw] at hexec
  have htaken := headTaken_leaves s f m
  have hpeersOf : w.peers = (s.headTaken f m).peers → w.pending = s.pending →
      (s.finish w).peer? f.source = some { p with
        lastSeq := f.seq
        gaps := if f.seq = (p.lastSeq + 1) % 256 then p.gaps else min 255 (p.gaps + 1)
        silence := some (3 * s.statusPeriod)
        head := some m
        headFresh := true } ∧
      ∀ j, j ≠ f.source → (s.finish w).peer? j = s.peer? j := fun hpeers hpending => by
    have hpeer : ∀ j, (s.finish w).peer? j = (s.headTaken f m).peer? j :=
      peer?_congr (((finish_rest s w hpending).peers (by decide)).trans hpeers)
    refine ⟨?_, fun j hj => ?_⟩
    · rw [hpeer, headTaken_peer?, if_pos rfl, hp]
      rfl
    · rw [hpeer, headTaken_peer?, if_neg hj]
  by_cases hmode : s.mode = .run
  · have hruns : ¬s.mode = .config := by rw [hmode]; decide
    have hw' := hw.trans (headFrom_run hmode hbody hp)
    have hcommon : s.HeadTold f m p w →
        (s.finish w).peers = (s.headTaken f m).peers ∧
        (¬s.ReportFails f.source m → (s.finish w).seq = s.seq) ∧
        (s.ReportFails f.source m → (s.finish w).seq = { s.seq with
          state := .fault .spin, phase := .first, timer := none
          index := false, present := false, store := false, retract := false } ∧
          (s.finish w).alarm.isActive .sequenceHold = true) ∧
        ChangesOnly [.peers, .link, .ret, .depth, .seq, .alarm] s (s.finish w) := fun htold => by
      have hrest := finish_rest s w htold.other.pending
      refine ⟨(hrest.peers (by decide)).trans htold.peers, fun h => (hrest.seq (by decide)).trans (htold.stands h), fun h => ?_, ?_⟩
      · refine ⟨(hrest.seq (by decide)).trans (htold.fails h), ?_⟩
        rw [finish_isActive s ((inRun_iff w).mpr (htold.other.mode.trans hmode)) (by decide)]
        show w.seq.state.stopped = true
        rw [htold.fails h]
        rfl
      · obtain ⟨hother, himages, houts⟩ := finish_changes s w htold.other
        exact ⟨hother.mono (by decide), himages, houts⟩
    cases hhead : s.straps.head with
    | true =>
      obtain ⟨htold, hdepth, hret⟩ := headTold_own (p := p) hhead hrest hundone hw'
      obtain ⟨hpeers, hstands, hfails, hall⟩ := hcommon htold
      obtain ⟨hentry, hothers⟩ := hpeersOf htold.peers htold.other.pending
      have hrests := finish_rest s w htold.other.pending
      refine ⟨s.finish w, hexec, hentry, hothers, fun h => absurd h hruns, fun _ _ => ?_, fun _ h => (nomatch h),
        fun _ => ⟨hstands, hfails⟩, hall⟩
      rw [hrests.depth (by decide), hrests.ret (by decide), hdepth, hret]
      exact ⟨rfl, rfl, rfl⟩
    | false =>
      obtain ⟨htold, hchanged⟩ := headTold_other hmode hhead hp hears.other hrest hundone hw'
      obtain ⟨hpeers, hstands, hfails, hall⟩ := hcommon htold
      obtain ⟨hentry, hothers⟩ := hpeersOf htold.peers htold.other.pending
      have hrests := finish_rest s w htold.other.pending
      have hnow : (s.finish w).depthNow = w.depthNow := depthNow_of_parts (hrests.ret (by decide)) (hrests.depth (by decide))
        hrests.straps (hrests.peers (by decide)) (hrests.rod (by decide))
      have hsource : ((s.finish w).peers.find? fun q => !q.stale && q.headFresh && q.status.any fun n => n.roles.head).map
          (·.station) = (s.headTaken f m).chooseHead := by
        rw [hpeers]
        exact (chooseHead_other (by rw [htaken.straps]; exact hhead)).symm
      have hmoved := headMoved_iff s f m p hsource
      refine ⟨s.finish w, hexec, hentry, hothers, fun h => absurd h hruns, fun _ h => (nomatch h), fun _ _ => ?_,
        fun _ => ⟨hstands, hfails⟩, hall⟩
      rw [hrests.depth (by decide), hrests.ret (by decide), hnow, ← hmoved, hsource]
      refine ⟨hchanged.source, hchanged.moved, hchanged.stood, fun hk hturned => hchanged.credited ⟨hk, hturned⟩, fun h => ?_,
        fun a b hwear ha hb _ _ hk hturned => ?_, fun h => ?_⟩
      · exact hchanged.uncredited fun k => h.elim (· k.1) fun h => Bool.false_ne_true (h.symm.trans k.2)
      · rw [hchanged.rods ⟨hk, hturned⟩]
        exact rodsCredited_eq s hwear ha hb Iff.rfl
      · by_cases hcredits : (s.headTaken f m).chooseHead = some f.source ∧ p.turnedBy m = true
        · have hnone : (if (s.headTaken f m).chooseHead = s.depth.headSource then s.depth.wear else none) = none := by
            obtain h | h := h
            · rw [h, ite_self]
            · exact if_neg h
          rw [hchanged.rods hcredits, hnone]
          rfl
        · exact (hchanged.uncredited hcredits).2
  · have hconfig : w = s.headTaken f m := hw.trans (headFrom_config hmode hbody)
    obtain ⟨hentry, hothers⟩ := hpeersOf (by rw [hconfig]) (by rw [hconfig]; exact htaken.pending)
    have hquiet := finish_quiet s w (hconfig ▸ htaken) (settled_of_mode (by rw [hconfig, htaken.mode]; exact hmode))
    have hall : ChangesOnly [.link, .peers] s (s.finish w) := ⟨hquiet.other.mono (by decide), hquiet.images, hquiet.outs⟩
    exact ⟨s.finish w, hexec, hentry, hothers, fun _ => ⟨hall.other.mono (by decide), hall.images, hall.outs⟩,
      fun h => absurd h hmode, fun h => absurd h hmode, fun h => absurd h hmode,
      ⟨hall.other.mono (by decide), hall.images, hall.outs⟩⟩

end Sys2Proof

/-! A STATUS frame heard (O25): what the fault record and the heard balance record keep. -/

namespace Sys2Proof.Machine

open Host

/-! ## The fault record (R16) -/

/-- The count of CONFIG_MISMATCH stands, and a latched record keeps its fields. -/
structure Link.Latches (l l' : Link) : Prop where
  count : l'.counts.configMismatch = l.counts.configMismatch
  fault : ∀ r, l.fault = some r → l'.fault = some r

theorem Link.Latches.refl (l : Link) : l.Latches l := ⟨rfl, fun _ h => h⟩

theorem Link.Latches.trans {a b c : Link} (h : a.Latches b) (k : b.Latches c) : a.Latches c :=
  ⟨k.count.trans h.count, fun r hr => k.fault r (h.fault r hr)⟩

theorem Link.Latches.of_same {l l' : Link} (hcounts : l'.counts = l.counts) (hfault : l'.fault = l.fault) : l.Latches l' :=
  ⟨congrArg _ hcounts, fun _ h => hfault.trans h⟩

section

variable (e : LinkEnv) (f : TxFrame) (l : Link)

theorem setQueue_faults (q : QueueId) (fs : List TxFrame) :
    (l.setQueue q fs).counts = l.counts ∧ (l.setQueue q fs).fault = l.fault := by cases q <;> exact ⟨rfl, rfl⟩

theorem arbitrate_faults : (l.arbitrate e).counts = l.counts ∧ (l.arbitrate e).fault = l.fault := by
  unfold Link.arbitrate Link.arbitrate.next Link.take
  repeat' split
  all_goals first | exact ⟨rfl, rfl⟩ | exact setQueue_faults _ _ _

theorem settle_faults : (l.settle e).counts = l.counts ∧ (l.settle e).fault = l.fault := by
  have hpreempt : l.preempt.counts = l.counts ∧ l.preempt.fault = l.fault := by
    unfold Link.preempt
    repeat' split
    all_goals first | exact ⟨rfl, rfl⟩ | exact setQueue_faults _ _ _
  have harbitrate := arbitrate_faults e l.preempt
  exact ⟨harbitrate.1.trans hpreempt.1, harbitrate.2.trans hpreempt.2⟩

theorem latches_settle {l a : Link} (hcounts : a.counts = l.counts) (hfault : a.fault = l.fault) :
    l.Latches (a.settle e) := .of_same ((settle_faults e a).1.trans hcounts) ((settle_faults e a).2.trans hfault)

/-- A frame dropped for want of room is recorded as URGENT_DROP only (R9). -/
theorem latches_drop (peer : Option Nat) (frame : Option FrameKind) (seqTag : Option Nat) :
    l.Latches (l.record e .urgentDrop peer frame seqTag) := by
  unfold Link.record
  split
  · next h => exact ⟨rfl, fun r hr => by rw [h] at hr; cases hr⟩
  · exact ⟨rfl, fun _ hr => hr⟩

theorem latches_handUrgent : l.Latches (l.handUrgent e f) := by
  unfold Link.handUrgent
  split
  · exact .of_same rfl rfl
  · split
    · exact .of_same rfl rfl
    · split
      · exact latches_settle e rfl rfl
      · split
        · exact .of_same rfl rfl
        · exact latches_drop e l _ _ _

theorem latches_handRig : l.Latches (l.handRig e f) := by
  unfold Link.handRig
  split
  · exact .of_same rfl rfl
  · split
    · exact .of_same rfl rfl
    · split
      · exact latches_settle e rfl rfl
      · split
        · exact latches_settle e rfl rfl
        · split
          · exact .of_same rfl rfl
          · exact .refl l

theorem latches_handPlain (q : QueueId) : l.Latches (l.handPlain e q f) := by
  unfold Link.handPlain
  split
  · obtain ⟨hcounts, hfault⟩ := setQueue_faults l q (l.queue q ++ [f])
    exact latches_settle e hcounts hfault
  · exact .of_same rfl rfl

theorem latches_handOver (q : QueueId) : l.Latches (l.handOver e q f) := by
  unfold Link.handOver
  split
  · exact .refl l
  · split
    · exact latches_handUrgent e f l
    · cases q with
      | rig => exact latches_handRig e f l
      | urgent => exact latches_handPlain e f l _
      | exchange => exact latches_handPlain e f l _
      | bulk => exact latches_handPlain e f l _

end

theorem latches_issue (e : LinkEnv) (now dest code : Nat) (args : List Byte) (l : Link) :
    l.Latches (l.issue e now dest code args) := by
  have htable : l.Latches { l with
      tagCounter := (l.nextTag + 1) % 256
      outstanding := l.outstanding ++ [OutEntry.mk dest l.nextTag code now] } := .of_same rfl rfl
  unfold Link.issue
  exact htable.trans (latches_handOver e _ _ .exchange)

theorem walk_latches : Walk fun s t => s.link.Latches t.link where
  trans h k := h.trans k
  still h := by rw [h.link (by decide)]; exact .refl _
  hand s q f := latches_handOver _ _ _ _
  issue s dest code args := latches_issue _ _ _ _ _ _
  claimed s := .refl _
  freed s := .refl _

/-! ## The heard balance record taken (R70) -/

/-- Records after an update of the heard balance record. -/
def Retained.Hearing (r r' : Retained) : Prop :=
  r' = { r with
    balState := r'.balState
    lost := r'.lost
    gained := r'.gained
    water := r'.water
    intervals := r'.intervals
    zones := r'.zones
    unrecorded := r'.unrecorded
    billedWater := r'.billedWater
    overCeiling := r'.overCeiling
    frozen := r'.frozen
    job := r'.job
    close := r'.close }

theorem hearing_completionTest (s : State) : s.ret.Hearing s.completionTest.ret := by
  by_cases h : s.Completes
  · rw [completionTest_closes h, finishClose_eq]
    rfl
  · rw [completionTest_waits h]
    rfl

theorem Retained.Hearing.trans {a b c : Retained} (h : a.Hearing b) (k : b.Hearing c) : a.Hearing c := by
  unfold Retained.Hearing at h k ⊢
  rw [k, h]

theorem hearing_heardUpdate (s : State) (n : Heard) : s.ret.Hearing (s.heardUpdate n).ret := by
  by_cases h : s.heard = n
  · subst h
    rw [heardUpdate_of_same]
    rfl
  · by_cases hon : s.strataOn = true
    · rw [heardUpdate_of_on h hon]
      refine Retained.Hearing.trans ?_ (hearing_completionTest (s.told n))
      rw [told_eq]
      rfl
    · rw [heardUpdate_of_strataOff (Bool.eq_false_iff.mpr hon)]
      rfl

/-- The record taken in is the one formed of the peers. -/
theorem heardUpdate_heard (s : State) (n : Heard) : (s.heardUpdate n).heard = n := by
  obtain ⟨hstate, hlost, hgained, hwater, -⟩ := heardUpdate_figures s n
  unfold State.heard
  rw [hstate, hlost, hgained, hwater, heardUpdate_circ]

end Sys2Proof.Machine

/-! A STATUS frame heard: the entry, the digest and the claim (O25). -/

namespace Sys2Proof.Machine

open Host

/-- The entry with the contents of a STATUS frame (R15). -/
def PeerEntry.statused (m : StatusMsg) (differs : Bool) (p : PeerEntry) : PeerEntry :=
  { p with status := some m, differed := differs }

/-- The station with a STATUS frame in its source's entry and its digest compared, before the blocks are told. -/
def State.statusTaken (s : State) (f : RxFrame) (m : StatusMsg) : State :=
  ((s.heardFrom f).mapPeer f.source fun p => { p with status := some m }).digestCheck f.source f.seq m

section

variable (s : State) (f : RxFrame) (m : StatusMsg)

/-- The station with the entry replaced. -/
def State.statusEntered : State :=
  (s.heardFrom f).mapPeer f.source (PeerEntry.statused m (s.digestDiffers m))

theorem digestDiffers_iff : s.digestDiffers m = true ↔
    s.ret.job ≠ .noJob ∧ m.job ≠ .noJob ∧ m.digest ≠ s.ret.digest := by
  unfold State.digestDiffers
  simp only [Bool.and_eq_true, bne_iff_ne, ne_eq, and_assoc]

theorem statusEntered_leaves : LeavesOther [.link, .peers] s (s.statusEntered f m) :=
  (leavesOther_heardFrom s f).after (moves_mapPeer _ _ _).other (by decide) (by decide)

theorem statusEntered_peer? (j : Nat) :
    (s.statusEntered f m).peer? j =
      if j = f.source then (s.peer? j).map fun p => (p.refresh f.seq (3 * s.statusPeriod)).statused m (s.digestDiffers m)
      else s.peer? j := by
  refine (peer?_mapPeer (s.heardFrom f) f.source (f := PeerEntry.statused m (s.digestDiffers m)) (fun _ => rfl) j).trans ?_
  rw [heardFrom_peer?, heardFrom_peer?]
  by_cases h : j = f.source
  · rw [if_pos h, if_pos rfl, if_pos h, Option.map_map, h]
    rfl
  · rw [if_neg h, if_neg h, if_neg h]

variable {s f m} {p : PeerEntry}

/-- A digest that first differs is recorded (R15). -/
theorem statusTaken_eq (hp : s.peer? f.source = some p) :
    s.statusTaken f m =
      if (s.digestDiffers m && !p.differed) = true then
        (s.statusEntered f m).recordFault .configMismatch (some f.source) (some .status) (some f.seq)
      else s.statusEntered f m := by
  have hmapped : ((s.heardFrom f).mapPeer f.source fun p => { p with status := some m }).mapPeer f.source
      (fun p => { p with differed := s.digestDiffers m }) = s.statusEntered f m := by
    unfold State.statusEntered State.mapPeer
    dsimp only
    rw [List.map_map]
    refine congrArg (fun l : List PeerEntry => { s.heardFrom f with peers := l }) (List.map_congr_left fun q _ => ?_)
    by_cases hq : q.station = f.source
    · rw [Function.comp_apply, if_pos hq, if_pos hq, if_pos hq]
      rfl
    · rw [Function.comp_apply, if_neg hq, if_neg hq, if_neg hq]
  have hpeer : (((s.heardFrom f).mapPeer f.source fun p => { p with status := some m }).peer? f.source).any (·.differed) =
      p.differed := by
    rw [peer?_mapPeer (s.heardFrom f) f.source (f := fun p => { p with status := some m }) (fun _ => rfl), if_pos rfl,
      heardFrom_peer?, if_pos rfl, hp]
    rfl
  unfold State.statusTaken State.digestCheck
  dsimp only
  rw [hpeer]
  rw [← hmapped]
  rfl

theorem statusTaken_of (hp : s.peer? f.source = some p) :
    LeavesOther [.link, .peers] s (s.statusTaken f m) ∧ (s.statusTaken f m).peers = (s.statusEntered f m).peers := by
  have hentered := statusEntered_leaves s f m
  rw [statusTaken_eq hp]
  by_cases h : (s.digestDiffers m && !p.differed) = true
  · rw [if_pos h]
    exact ⟨hentered.after (leavesOther_link _ _) (by decide) (by decide), rfl⟩
  · rw [if_neg h]
    exact ⟨hentered, rfl⟩

/-- The fault of a digest that first differs (R15, R16). -/
theorem statusTaken_fault (hp : s.peer? f.source = some p) :
    (s.digestDiffers m = true ∧ p.differed = false →
      (s.statusTaken f m).link.counts.configMismatch = min 255 (s.link.counts.configMismatch + 1) ∧
        (s.link.fault = none → (s.statusTaken f m).link.fault =
          some ⟨.configMismatch, some f.source, some .status, some f.seq, s.ret.jobTime⟩)) ∧
    (¬(s.digestDiffers m = true ∧ p.differed = false) →
      (s.statusTaken f m).link.counts.configMismatch = s.link.counts.configMismatch) := by
  rw [statusTaken_eq hp]
  refine ⟨fun ⟨hdiffers, hfirst⟩ => ?_, fun h => ?_⟩
  · have hjob : s.ret.job ≠ .noJob := ((digestDiffers_iff s m).mp hdiffers).1
    have htime : (s.statusEntered f m).linkEnv.jobTime = s.ret.jobTime := if_neg hjob
    rw [if_pos (by rw [hdiffers, hfirst]; rfl)]
    show (Link.record _ _ _ _ _ _).counts.configMismatch = _ ∧ (_ → (Link.record _ _ _ _ _ _).fault = _)
    unfold Link.record
    split
    · exact ⟨rfl, fun _ => by rw [← htime]⟩
    · next r hr => exact ⟨rfl, fun hnone => absurd (hr.symm.trans hnone) (Option.some_ne_none r)⟩
  · rw [if_neg fun k => h ?_]
    · rfl
    · simpa using k

theorem knows_mapPeer {x : State} {k : Nat} {q : PeerEntry} {g : PeerEntry → PeerEntry} (hg : ∀ q, (g q).station = q.station)
    (hk : x.Knows k q) : (x.mapPeer k g).Knows k (g q) := by
  obtain ⟨hq, honly⟩ := hk
  refine ⟨by rw [peer?_mapPeer x k hg, if_pos rfl, hq]; rfl, fun r hr hstation => ?_⟩
  obtain ⟨v, hv, rfl⟩ := List.mem_map.mp hr
  by_cases hvk : v.station = k
  · rw [if_pos hvk, honly v hv hvk]
  · rw [if_neg hvk] at hstation
    exact absurd hstation hvk

/-- The claim a STATUS carries, as the entry has it. -/
theorem statusTaken_claim (hk : s.Knows f.source p) (hclaim : m.claim = p.claim) (hspin : s.spin.state ≠ .running) :
    (s.statusTaken f m).setPeerClaim f.source m.claim = s.statusTaken f m := by
  obtain ⟨hleaves, hpeers⟩ := statusTaken_of (m := m) hk.1
  have hknown : (s.statusEntered f m).Knows f.source _ := knows_mapPeer (fun _ => rfl) (heardFrom_known hk)
  obtain ⟨x, hx⟩ : ∃ x, x = s.statusTaken f m := ⟨_, rfl⟩
  rw [← hx] at hleaves hpeers ⊢
  have hsame : x.claimSet f.source m.claim = x := by
    have hlist : (x.peers.map fun q => if q.station = f.source then { q with claim := m.claim } else q) = x.peers := by
      refine (List.map_congr_left fun q hq => ?_).trans (List.map_id _)
      by_cases hstation : q.station = f.source
      · have hq' := hknown.2 q (hpeers ▸ hq) hstation
        rw [if_pos hstation, hq', hclaim]
        rfl
      · exact if_neg hstation
    unfold State.claimSet State.mapPeer
    rw [hlist]
  by_cases hrun : x.inRun = true
  · have hpeer : x.peer? f.source = _ := (peer?_congr hpeers f.source).trans hknown.1
    rw [setPeerClaim_of_same hrun (by rw [hleaves.spin (by decide)]; exact hspin) hpeer (congrArg Claim.phase hclaim) (by rw [hsame]), hsame]
  · exact (if_neg hrun).trans hsame

end

end Sys2Proof.Machine

/-! A STATUS frame heard: the heard balance record and the head source (O25). -/

namespace Sys2Proof.Machine

open Host

/-! ## The heard balance record (R70) -/

theorem completionTest_job (s : State) : s.completionTest.ret.job = s.ret.job ∨ s.completionTest.ret.job = .closed := by
  by_cases h : s.Completes
  · rw [completionTest_closes h, finishClose_eq]
    exact .inr rfl
  · rw [completionTest_waits h]
    exact .inl rfl

theorem heardUpdate_job (s : State) (n : Heard) :
    (s.heardUpdate n).ret.job = s.ret.job ∨ (s.heardUpdate n).ret.job = .closed := by
  by_cases h : s.heard = n
  · subst h
    rw [heardUpdate_of_same]
    exact .inl rfl
  · by_cases hon : s.strataOn = true
    · rw [heardUpdate_of_on h hon]
      have hjob : (s.told n).ret.job = s.ret.job := (told_same s n).2.1
      rw [← hjob]
      exact completionTest_job (s.told n)
    · rw [heardUpdate_of_strataOff (Bool.eq_false_iff.mpr hon)]
      exact .inl rfl

/-- The record taken from the pit peers. -/
structure State.Refreshed (x y : State) : Prop where
  other : LeavesOther [.ret, .circ, .billing, .pumps] x y
  ret : x.ret.Hearing y.ret
  own : x.isPit = true → y = x
  heard : x.isPit = false → y.heard = x.heardFromPeers
  off : x.strataOn = false → y.ret.job = x.ret.job ∧ y.ret.frozen = x.ret.frozen ∧ y.pumps = x.pumps ∧ y.billing = x.billing
  job : x.ret.job ≠ .noJob → y.ret.job ≠ .noJob

theorem heardRefresh_refreshed (x : State) : x.Refreshed x.heardRefresh := by
  have hother := (moves_heardRefresh x).other
  cases hpit : x.isPit with
  | true =>
    have hsame : x.heardRefresh = x := if_pos hpit
    rw [hsame] at hother ⊢
    exact ⟨hother, rfl, fun _ => rfl, fun h => (nomatch hpit.symm.trans h), fun _ => ⟨rfl, rfl, rfl, rfl⟩, id⟩
  | false =>
    have hupdate : x.heardRefresh = x.heardUpdate x.heardFromPeers := if_neg (by rw [hpit]; exact Bool.false_ne_true)
    rw [hupdate] at hother ⊢
    refine ⟨hother, hearing_heardUpdate x _, fun h => (nomatch hpit.symm.trans h), fun _ => heardUpdate_heard x _, fun hoff => ?_,
      fun hjob => ?_⟩
    · rw [heardUpdate_of_strataOff hoff]
      exact ⟨rfl, rfl, rfl, rfl⟩
    · obtain h | h := heardUpdate_job x x.heardFromPeers
      · rw [h]
        exact hjob
      · rw [h]
        decide

/-! ## The head source (R89) -/

/-- The head source has the values of the entries' HEAD contents. -/
theorem headValues_contents {s t : State} (hret : t.ret.turns = s.ret.turns ∧ t.ret.spinTurns = s.ret.spinTurns)
    (hhead : SameHead s.depth t.depth) (hstraps : t.straps = s.straps)
    (hpeer : ∀ k, (t.peer? k).bind (·.head) = (s.peer? k).bind (·.head)) : t.headValues = s.headValues := by
  obtain ⟨hsource, hh, hknown, hrpm⟩ := hhead
  unfold State.headValues
  rw [hsource, hh, hknown, hrpm, hret.1, hret.2, hstraps]
  cases s.depth.headSource with
  | none => rfl
  | some k =>
    dsimp only
    rw [hpeer k]

/-- The head source chosen again after a change of the peers' roles. -/
structure State.HeadChosen (s x z : State) : Prop where
  other : LeavesOther depthParts x z
  ret : x.ret.Deepens z.ret
  stood : x.straps.head = true ∨ x.chooseHead = s.depth.headSource → z = x
  moved : x.straps.head = false → x.chooseHead ≠ s.depth.headSource →
    z.depth.headSource = x.chooseHead ∧ z.depth.wear = none ∧ z.depth.bitDepth = z.depthNow ∧
      z.ret.hole = max x.ret.hole (z.depthNow.getD 0)

theorem headRefresh_chosen {s x y : State} (hrun : x.mode = .run) (hxdepth : x.depth = s.depth) (hydepth : y.depth = s.depth)
    (hinputs : x.ret.turns = y.ret.turns ∧ x.ret.spinTurns = y.ret.spinTurns ∧ x.ret.string = y.ret.string ∧
      x.ret.hold = y.ret.hold) (hstraps : x.straps = y.straps) (hrod : x.rod = y.rod)
    (hpeer : ∀ k, (x.peer? k).bind (·.head) = (y.peer? k).bind (·.head)) : s.HeadChosen x (x.headRefresh y) := by
  obtain ⟨hturns, hspins, hstring, hhold⟩ := hinputs
  have hin : x.inRun = true := (inRun_iff x).mpr hrun
  refine ⟨(moves_headRefresh x y).other, deepens_headRefresh x y, fun h => ?_, fun hhead hnew => ?_⟩
  · unfold State.headRefresh
    by_cases hhead : x.straps.head = true
    · rw [hhead]
      exact if_neg (by rw [Bool.not_true, Bool.and_false]; exact Bool.false_ne_true)
    · have hkept : x.chooseHeadAgain = x := if_pos ((h.resolve_left hhead).trans (congrArg DepthUnit.headSource hxdepth.symm))
      have hsame : x.depthInputs = y.depthInputs := by
        have hvalues : x.headValues = y.headValues := headValues_contents ⟨hturns, hspins⟩
          (by rw [hxdepth, hydepth]; exact .refl _) hstraps hpeer
        unfold State.depthInputs State.viewSure
        rw [hvalues, hxdepth, hydepth, hstring, hhold, hstraps, hrod]
      rw [if_pos (by rw [hin, Bool.eq_false_iff.mpr hhead]; rfl), hkept]
      exact depthFollows_of_same hsame
  · have hrefresh : x.headRefresh y = x.chooseHeadAgain.depthFollows y := by
      unfold State.headRefresh
      exact if_pos (by rw [hin, hhead]; rfl)
    obtain ⟨c, hc⟩ : ∃ c, c = x.chooseHeadAgain := ⟨_, rfl⟩
    rw [hrefresh, ← hc]
    rw [chooseHeadAgain_eq, if_neg (by rw [hxdepth]; exact hnew)] at hc
    have hcin : c.inRun = true := by rw [hc]; exact hin
    have hfollows : c.depthFollows y = c.recomputeDepth := depthFollows_of_changed fun h => hnew (by
      have hsource : c.depth.headSource = y.depth.headSource := congrArg DepthInputs.source h
      rw [hc, hydepth] at hsource
      exact hsource)
    rw [hfollows, recomputeDepth_depth hcin, recomputeDepth_now hcin, recomputeDepth_hole hcin, hc]
    exact ⟨rfl, rfl, rfl, rfl⟩

end Sys2Proof.Machine

/-! A STATUS frame heard: the rod view (O25). -/

namespace Sys2Proof.Machine

open Host

/-! ## What the rod view may change (R97) -/

/-- The view stands, or is no longer SURE: the records, the head's source and the wear baseline stand, and bit depth is
formed of the view. -/
structure State.Views (s t : State) : Prop where
  other : LeavesOther [.rod, .link, .ret, .depth, .alarm] s t
  ret : s.ret.Deepens t.ret
  hole : t.ret.hole = s.ret.hole
  head : t.depth.headSource = s.depth.headSource ∧ t.depth.wear = s.depth.wear
  down : t.viewSure = true → s.viewSure = true
  still : t.viewSure = s.viewSure → t.depth = s.depth ∧ t.depthNow = s.depthNow
  now : s.depth.bitDepth = s.depthNow → t.depth.bitDepth = t.depthNow
  latches : s.link.Latches t.link

namespace State.Views

variable {s t u : State}

theorem trans (h : s.Views t) (k : t.Views u) : s.Views u := by
  refine ⟨h.other.after k.other (by decide) (by decide), h.ret.trans k.ret, k.hole.trans h.hole,
    ⟨k.head.1.trans h.head.1, k.head.2.trans h.head.2⟩, h.down ∘ k.down, fun hsame => ?_, k.now ∘ h.now,
    h.latches.trans k.latches⟩
  have hmid : t.viewSure = s.viewSure := by
    cases hs : s.viewSure with
    | true => exact k.down (hsame.trans hs)
    | false => exact Bool.eq_false_iff.mpr fun ht => Bool.false_ne_true (hs.symm.trans (h.down ht))
  obtain ⟨hdepth, hnow⟩ := h.still hmid
  obtain ⟨kdepth, know⟩ := k.still (hsame.trans hmid.symm)
  exact ⟨kdepth.trans hdepth, know.trans hnow⟩

end State.Views

/-- A rod unit that stays as sure as it was. -/
theorem views_rod (s : State) {r : RodUnit} (h : r.sure = s.rod.sure) : s.Views { s with rod := r } := by
  have hview : ({ s with rod := r } : State).viewSure = s.viewSure := by
    unfold State.viewSure
    rw [h]
  have hnow : ({ s with rod := r } : State).depthNow = s.depthNow :=
    depthNow_of_position ⟨rfl, rfl, rfl, rfl⟩ hview rfl
  exact ⟨(moves_rod s r).other.mono (by decide), .refl _, rfl, ⟨rfl, rfl⟩, fun k => hview.symm.trans k,
    fun _ => ⟨rfl, hnow⟩, fun k => k.trans hnow.symm, .refl _⟩

/-! ## A view that becomes UNSURE (R97, R100) -/

/-- The view is UNSURE, with the resynchronisation at its start, and bit depth unknown. -/
structure State.Unsured (s t : State) : Prop where
  views : s.Views t
  source : t.rod.source = s.rod.source
  unsure : t.rod.sure = false ∧ t.rod.lagCount = 0 ∧ t.rod.held = [] ∧ t.rod.resync.nextPage = 0 ∧
    t.rod.resync.scratch = [] ∧ t.depth.bitDepth = none

theorem depthNow_unsure {s : State} (h : s.viewSure = false) : s.depthNow = none := by
  unfold State.depthNow
  rw [h]
  rfl

theorem viewUnsure_unsured {s : State} (hrun : s.mode = .run) (hrole : s.straps.rod = false) (hsure : s.rod.sure = true) :
    s.Unsured s.viewUnsure := by
  obtain ⟨w, hw⟩ : ∃ w : State, w = { s with rod := { s.rod with
      sure := false, lagCount := 0, held := [], resync := { Resync.begin with request := s.rod.resync.request } } } := ⟨_, rfl⟩
  have hin : w.inRun = true := by rw [hw]; exact (inRun_iff s).mpr hrun
  have hview : w.viewSure = false := by
    rw [hw]
    show (s.straps.rod || false) = false
    rw [hrole]
    rfl
  have hbefore : s.viewSure = true := by
    unfold State.viewSure
    rw [hsure, Bool.or_true]
  have hnone := depthNow_unsure hview
  have hgoes : s.viewUnsure = w.recomputeDepth := by
    have hfollows : s.viewUnsure = w.depthFollows s := by rw [hw]; rfl
    rw [hfollows]
    refine depthFollows_of_changed fun h => Bool.false_ne_true ?_
    exact hview.symm.trans ((congrArg DepthInputs.sure h).trans hbefore)
  have hdepth := recomputeDepth_depth hin
  have hmoves := (moves_recomputeDepth w).other
  have hdeepens := deepens_recomputeDepth w
  have hhole := recomputeDepth_hole hin
  have hnow := recomputeDepth_now hin
  have hlatches := walk_latches.recomputeDepth w
  have hrod : w.recomputeDepth.rod = w.rod := hmoves.rod (by decide)
  have hviewed : w.recomputeDepth.viewSure = false := by
    unfold State.viewSure at hview ⊢
    rw [hmoves.straps, hrod]
    exact hview
  rw [hnone] at hdepth hhole hnow
  have hwparts : LeavesOther [.rod] s w := by
    rw [hw]
    exact (moves_rod s _).other
  have hwret : w.ret = s.ret := hwparts.ret (by decide)
  have hwdepth : w.depth = s.depth := hwparts.depth (by decide)
  rw [hwret] at hdeepens hhole
  rw [hgoes]
  refine ⟨⟨hwparts.after hmoves (by decide) (by decide), hdeepens, hhole.trans (Nat.max_zero _), ?_, fun h => ?_, fun h => ?_,
    fun _ => ?_, ?_⟩, ?_, ?_⟩
  · rw [hdepth, hwdepth]
    exact ⟨rfl, rfl⟩
  · exact (Bool.false_ne_true (hviewed.symm.trans h)).elim
  · exact (Bool.false_ne_true (hviewed.symm.trans (h.trans hbefore))).elim
  · rw [hdepth, hnow]
  · rw [hwparts.link (by decide)] at hlatches
    exact hlatches
  · rw [hrod, hw]
  · rw [hrod, hdepth, hw]
    exact ⟨rfl, rfl, rfl, rfl, rfl, rfl⟩

theorem requestPage_latches (s : State) : s.link.Latches s.requestPage.link := by
  unfold State.requestPage
  split
  · split
    · exact .refl _
    · split
      · exact latches_issue _ _ _ _ _ _
      · exact .refl _
  · exact .refl _

theorem depthInputs_of_views {s t : State} (h : LeavesOther [.rod, .link] s t) (hview : t.viewSure = s.viewSure) :
    t.depthInputs = s.depthInputs := by
  have hvalues : t.headValues = s.headValues := headValues_stands (h.ret (by decide))
    (by rw [h.depth (by decide)]; exact .refl _) h.straps fun k _ => peer?_congr (h.peers (by decide)) k
  unfold State.depthInputs
  rw [hvalues, hview, h.depth (by decide), h.ret (by decide)]

theorem viewUnsureNow_unsured {s : State} (hrun : s.mode = .run) (hrole : s.straps.rod = false) (hsure : s.rod.sure = true) :
    s.Unsured s.viewUnsureNow := by
  have hunsured := viewUnsure_unsured hrun hrole hsure
  obtain ⟨u, hu⟩ : ∃ u, u = s.viewUnsure := ⟨_, rfl⟩
  have hgoes : s.viewUnsureNow = u.requestPage := by
    rw [hu]
    rfl
  rw [← hu] at hunsured
  obtain ⟨hviews, hsource, hlow, hlag, hheld, hpage, hscratch, hbit⟩ := hunsured
  have hmoves := (moves_requestPage u).other
  have hrod := requestPage_rod u
  have hview : u.requestPage.viewSure = u.viewSure := by
    unfold State.viewSure
    rw [hmoves.straps, hrod]
  have hnow : u.requestPage.depthNow = u.depthNow :=
    depthNow_of_inputs (depthInputs_of_views hmoves hview) (by rw [hmoves.ret (by decide)]) (by rw [hmoves.ret (by decide)])
  have hret := hmoves.ret (by decide)
  have hdepth := hmoves.depth (by decide)
  have hpart : u.Views u.requestPage := by
    refine ⟨hmoves.mono (by decide), ?_, by rw [hret], by rw [hdepth]; exact ⟨rfl, rfl⟩, fun h => hview.symm.trans h,
      fun _ => ⟨hdepth, hnow⟩, fun h => by rw [hdepth, hnow]; exact h, requestPage_latches u⟩
    rw [hret]
    exact .refl _
  rw [hgoes]
  refine ⟨hviews.trans hpart, ?_, ?_⟩
  · rw [hrod]
    exact hsource
  · rw [hrod, hdepth]
    exact ⟨hlow, hlag, hheld, hpage, hscratch, hbit⟩

/-! ## The source chosen again, and the status of the source (R97, R100) -/

theorem rodSourceAgain_same {z : State} (h : z.chooseRod = z.rod.source) : z.rodSourceAgain = z := by
  unfold State.rodSourceAgain
  refine if_neg ?_
  rw [h, bne_self_eq_false, Bool.and_false]
  exact Bool.false_ne_true

/-- A STATUS of another station, or heard by an UNSURE view, leaves the view. -/
theorem rodStatus_other {z : State} {k : Nat} (m : StatusMsg) (h : z.rod.sure = false ∨ z.rod.source ≠ some k) : z.rodStatus k m = z := by
  unfold State.rodStatus
  refine if_neg fun hall => ?_
  simp only [Bool.and_eq_true, beq_iff_eq] at hall
  obtain ⟨⟨-, hsure⟩, hsource⟩ := hall
  exact h.elim (fun h => Bool.false_ne_true (h.symm.trans hsure)) fun h => h hsource

section

variable {z : State} (hrun : z.mode = .run) (hrole : z.straps.rod = false)

include hrun hrole

/-- A source that changes makes a SURE view UNSURE, and a resynchronisation begin again. -/
theorem rodSourceAgain_new (h : z.chooseRod ≠ z.rod.source) :
    z.Views z.rodSourceAgain ∧ z.rodSourceAgain.rod.source = z.chooseRod ∧ z.rodSourceAgain.rod.sure = false ∧
      (z.rod.sure = true → z.rodSourceAgain.rod.lagCount = 0 ∧ z.rodSourceAgain.rod.held = [] ∧
        z.rodSourceAgain.rod.resync.nextPage = 0 ∧ z.rodSourceAgain.rod.resync.scratch = [] ∧
        z.rodSourceAgain.depth.bitDepth = none) ∧
      (z.rod.sure = false → z.rodSourceAgain.rod.lagCount = 0 ∧ z.rodSourceAgain.rod.held = z.rod.held ∧
        z.rodSourceAgain.rod.resync.again = true) := by
  have hin : z.inRun = true := (inRun_iff z).mpr hrun
  obtain ⟨w, hw⟩ : ∃ w : State, w = { z with rod := { z.rod with source := z.chooseRod, lagCount := 0 } } := ⟨_, rfl⟩
  have hgoes : z.rodSourceAgain = if w.rod.sure = true then w.viewUnsureNow else w.resyncAgain := by
    unfold State.rodSourceAgain
    rw [if_pos (by rw [hin, hrole, bne_iff_ne.mpr h]; rfl), hw]
  have hviews : z.Views w := by
    rw [hw]
    exact views_rod z rfl
  have hwsure : w.rod.sure = z.rod.sure := by rw [hw]
  cases hsure : z.rod.sure with
  | true =>
    rw [hwsure, if_pos hsure] at hgoes
    have hunsured := viewUnsureNow_unsured (s := w) (by rw [hw]; exact hrun) (by rw [hw]; exact hrole) (hwsure.trans hsure)
    rw [hgoes]
    obtain ⟨hlow, hrest⟩ := hunsured.unsure
    exact ⟨hviews.trans hunsured.views, hunsured.source.trans (by rw [hw]), hlow, fun _ => hrest, fun k => (nomatch k)⟩
  | false =>
    have hwlow := hwsure.trans hsure
    have hagain : w.resyncAgain = { w with rod := { w.rod with resync := w.rod.resync.beginAgain } } :=
      if_neg (by rw [hwlow]; exact Bool.false_ne_true)
    rw [hwsure, hsure, if_neg Bool.false_ne_true, hagain] at hgoes
    have hpart : w.Views { w with rod := { w.rod with resync := w.rod.resync.beginAgain } } := views_rod w rfl
    rw [hgoes]
    refine ⟨hviews.trans hpart, ?_, hwlow, fun k => (nomatch k), fun _ => ?_⟩ <;> rw [hw]
    exact ⟨rfl, rfl, rfl⟩

/-- A STATUS of the source compared with a SURE view (R97). -/
theorem rodStatus_source {k : Nat} (m : StatusMsg) (hsure : z.rod.sure = true) (hsource : z.rod.source = some k) :
    z.rodStatus k m =
      if m.eventNo = z.ret.eventNo then
        if m.stringCount = z.ret.string.length ∧ m.stringLength = z.stringLength then
          { z with rod := { z.rod with lagCount := 0 } }
        else ({ z with rod := { z.rod with lagCount := 0 } } : State).viewUnsureNow
      else if 3 ≤ z.rod.lagCount + 1 then
        ({ z with rod := { z.rod with lagCount := z.rod.lagCount + 1 } } : State).viewUnsureNow
      else { z with rod := { z.rod with lagCount := z.rod.lagCount + 1 } } := by
  unfold State.rodStatus
  rw [if_pos (by rw [(inRun_iff z).mpr hrun, hrole, hsure, hsource]; simp)]
  rfl

end

end Sys2Proof.Machine

/-! A STATUS frame heard: the rod view's two answers together, and the close of a job (O25). -/

namespace Sys2Proof.Machine

open Host

/-- An UNSURE view at the start of its resynchronisation. -/
def State.ViewUnsure (t : State) : Prop :=
  t.rod.sure = false ∧ t.rod.lagCount = 0 ∧ t.rod.held = [] ∧ t.rod.resync.nextPage = 0 ∧
    t.rod.resync.scratch = [] ∧ t.depth.bitDepth = none

/-- What a STATUS leaves of the rod view at a station without the ROD role. -/
structure State.RodHeard (z : State) (k : Nat) (m : StatusMsg) (t : State) : Prop where
  source : t.rod.source = z.chooseRod
  newSure : z.chooseRod ≠ z.rod.source → z.rod.sure = true → t.ViewUnsure
  newUnsure : z.chooseRod ≠ z.rod.source → z.rod.sure = false →
    t.rod.sure = false ∧ t.rod.lagCount = 0 ∧ t.rod.held = z.rod.held ∧ t.rod.resync.again = true
  other : z.chooseRod = z.rod.source → (z.rod.sure = false ∨ z.chooseRod ≠ some k) → t.rod = z.rod
  same : z.chooseRod = z.rod.source → z.rod.sure = true → z.chooseRod = some k → m.eventNo = z.ret.eventNo →
    (m.stringCount = z.ret.string.length ∧ m.stringLength = z.stringLength → t.rod = { z.rod with lagCount := 0 }) ∧
    (¬(m.stringCount = z.ret.string.length ∧ m.stringLength = z.stringLength) → t.ViewUnsure)
  lags : z.chooseRod = z.rod.source → z.rod.sure = true → z.chooseRod = some k → m.eventNo ≠ z.ret.eventNo →
    (z.rod.lagCount + 1 < 3 → t.rod = { z.rod with lagCount := z.rod.lagCount + 1 }) ∧
    (3 ≤ z.rod.lagCount + 1 → t.ViewUnsure)

theorem rodStatus_own {z : State} (k : Nat) (m : StatusMsg) (hrole : z.straps.rod = true) :
    z.rodSourceAgain.rodStatus k m = z := by
  have hsource : z.rodSourceAgain = z := by
    unfold State.rodSourceAgain
    rw [hrole, Bool.not_true, Bool.and_false, Bool.false_and]
    exact if_neg Bool.false_ne_true
  unfold State.rodStatus
  rw [hsource, hrole, Bool.not_true, Bool.and_false, Bool.false_and, Bool.false_and]
  exact if_neg Bool.false_ne_true

section

variable {z : State} (hrun : z.mode = .run) (hrole : z.straps.rod = false) (k : Nat) (m : StatusMsg)

include hrun hrole

/-- A STATUS of the source, the source standing. -/
theorem rodStatus_heard (hsource : z.chooseRod = z.rod.source) :
    z.Views (z.rodStatus k m) ∧ z.RodHeard k m (z.rodStatus k m) := by
  by_cases hother : z.rod.sure = false ∨ z.rod.source ≠ some k
  · rw [rodStatus_other m hother]
    refine ⟨views_rod z rfl, hsource.symm, fun h => absurd hsource h, fun h => absurd hsource h, fun _ _ => rfl,
      fun _ hsure hk => ?_, fun _ hsure hk => ?_⟩
    all_goals exact (hother.elim (fun h => Bool.false_ne_true (h.symm.trans hsure)) fun h => h (hsource.symm.trans hk)).elim
  · obtain ⟨hsure, hk⟩ := not_or.mp hother
    rw [Bool.not_eq_false] at hsure
    rw [not_not] at hk
    have hform := rodStatus_source hrun hrole m hsure hk
    have hunsured : ∀ n, z.Views ({ z with rod := { z.rod with lagCount := n } } : State).viewUnsureNow ∧
        ({ z with rod := { z.rod with lagCount := n } } : State).viewUnsureNow.rod.source = z.chooseRod ∧
        ({ z with rod := { z.rod with lagCount := n } } : State).viewUnsureNow.ViewUnsure := fun n => by
      have hviews : z.Views { z with rod := { z.rod with lagCount := n } } := views_rod z rfl
      have hnow := viewUnsureNow_unsured (s := { z with rod := { z.rod with lagCount := n } }) hrun hrole hsure
      exact ⟨hviews.trans hnow.views, hnow.source.trans hsource.symm, hnow.unsure⟩
    have hold : z.chooseRod = z.rod.source → (z.rod.sure = false ∨ z.chooseRod ≠ some k) → ∀ t : State, t.rod = z.rod :=
      fun _ h => (h.elim (fun h => Bool.false_ne_true (h.symm.trans hsure)) fun h => h (hsource.trans hk)).elim
    rw [hform]
    by_cases hevent : m.eventNo = z.ret.eventNo
    · rw [if_pos hevent]
      by_cases hsame : m.stringCount = z.ret.string.length ∧ m.stringLength = z.stringLength
      · rw [if_pos hsame]
        exact ⟨views_rod z rfl, hsource.symm, fun h => absurd hsource h, fun h => absurd hsource h, fun h k => hold h k _,
          fun _ _ _ _ => ⟨fun _ => rfl, fun h => absurd hsame h⟩, fun _ _ _ h => absurd hevent h⟩
      · rw [if_neg hsame]
        obtain ⟨hviews, hstill, hunsure⟩ := hunsured 0
        exact ⟨hviews, hstill, fun _ _ => hunsure, fun h => absurd hsource h, fun h k => hold h k _,
          fun _ _ _ _ => ⟨fun h => absurd h hsame, fun _ => hunsure⟩, fun _ _ _ h => absurd hevent h⟩
    · rw [if_neg hevent]
      by_cases hlag : 3 ≤ z.rod.lagCount + 1
      · rw [if_pos hlag]
        obtain ⟨hviews, hstill, hunsure⟩ := hunsured (z.rod.lagCount + 1)
        exact ⟨hviews, hstill, fun _ _ => hunsure, fun h => absurd hsource h, fun h k => hold h k _,
          fun _ _ _ h => absurd h hevent, fun _ _ _ _ => ⟨fun h => absurd hlag (Nat.not_le.mpr h), fun _ => hunsure⟩⟩
      · rw [if_neg hlag]
        exact ⟨views_rod z rfl, hsource.symm, fun h => absurd hsource h, fun h => absurd hsource h, fun h k => hold h k _,
          fun _ _ _ h => absurd h hevent, fun _ _ _ _ => ⟨fun _ => rfl, fun h => absurd h hlag⟩⟩

/-- The source chosen again, then the STATUS of the source. -/
theorem rodHeard_of : z.Views (z.rodSourceAgain.rodStatus k m) ∧ z.RodHeard k m (z.rodSourceAgain.rodStatus k m) := by
  by_cases hsource : z.chooseRod = z.rod.source
  · rw [rodSourceAgain_same hsource]
    exact rodStatus_heard hrun hrole k m hsource
  · obtain ⟨hviews, hnew, hlow, hwas, hlate⟩ := rodSourceAgain_new hrun hrole hsource
    rw [rodStatus_other m (.inl hlow)]
    exact ⟨hviews, hnew, fun _ hsure => ⟨hlow, hwas hsure⟩, fun _ hsure => ⟨hlow, hlate hsure⟩, fun h => absurd h hsource,
      fun h => absurd h hsource, fun h => absurd h hsource⟩

end

end Sys2Proof.Machine

/-! A STATUS frame heard: the blocks told one after the other (O25). -/

namespace Sys2Proof.Machine

open Host

section

variable {s : State} {f : RxFrame} {m : StatusMsg} {p : PeerEntry}

theorem statusFrom_config (hmode : s.mode ≠ .run) (hbody : f.body = .status m) (hk : s.Knows f.source p)
    (hclaim : m.claim = p.claim) (hspin : s.spin.state ≠ .running) : (s.heardFrom f).handOn f = s.statusTaken f m := by
  have hin : (s.statusTaken f m).inRun = false := Bool.eq_false_iff.mpr fun h => hmode
    ((statusTaken_of hk.1).1.mode.symm.trans ((inRun_iff _).mp h))
  have htaken := statusTaken_claim hk hclaim hspin
  unfold State.handOn
  rw [hbody]
  show (if ((s.statusTaken f m).setPeerClaim f.source m.claim).inRun = true then _ else
    (s.statusTaken f m).setPeerClaim f.source m.claim) = _
  rw [htaken, if_neg (by rw [hin]; exact Bool.false_ne_true)]

/-- The blocks told of a STATUS, before the test of a close. -/
def State.statusTold (s : State) (f : RxFrame) (m : StatusMsg) : State :=
  (((s.statusTaken f m).heardRefresh.headRefresh (s.heardFrom f)).rodSourceAgain.rodStatus f.source m).seqRun

theorem statusFrom_run (hmode : s.mode = .run) (hbody : f.body = .status m) (hk : s.Knows f.source p)
    (hclaim : m.claim = p.claim) (hspin : s.spin.state ≠ .running) :
    (s.heardFrom f).handOn f =
      if m.roles.record = true then (s.statusTold f m).peerCloseTest else s.statusTold f m := by
  have hin : (s.statusTaken f m).inRun = true := (inRun_iff _).mpr ((statusTaken_of hk.1).1.mode.trans hmode)
  have htaken := statusTaken_claim hk hclaim hspin
  unfold State.handOn
  rw [hbody]
  show (if ((s.statusTaken f m).setPeerClaim f.source m.claim).inRun = true then
    (if m.roles.record = true then
      (((((s.statusTaken f m).setPeerClaim f.source m.claim).heardRefresh.headRefresh
        (s.heardFrom f)).rodSourceAgain.rodStatus f.source m).seqRun).peerCloseTest
    else ((((s.statusTaken f m).setPeerClaim f.source m.claim).heardRefresh.headRefresh
        (s.heardFrom f)).rodSourceAgain.rodStatus f.source m).seqRun)
    else (s.statusTaken f m).setPeerClaim f.source m.claim) = _
  rw [htaken, if_pos hin]
  rfl

/-- The entries' HEAD contents stand. -/
theorem statusTaken_contents (hp : s.peer? f.source = some p) (k : Nat) :
    ((s.statusTaken f m).peer? k).bind (·.head) = ((s.heardFrom f).peer? k).bind (·.head) := by
  rw [peer?_congr (statusTaken_of hp).2, statusEntered_peer?, heardFrom_peer?]
  by_cases h : k = f.source
  · rw [if_pos h, if_pos h]
    cases s.peer? k <;> rfl
  · rw [if_neg h, if_neg h]

/-- What the blocks leave of a STATUS in RUN, before the test of a close. -/
structure State.StatusPassed (s : State) (f : RxFrame) (m : StatusMsg) (t : State) : Prop where
  other : LeavesOther [.peers, .link, .ret, .circ, .depth, .rod, .pumps, .billing, .alarm] s t
  peers : t.peers = (s.statusEntered f m).peers
  latches : (s.statusTaken f m).link.Latches t.link
  records : t.ret.digest = s.ret.digest ∧ t.ret.eventNo = s.ret.eventNo ∧ t.ret.string = s.ret.string
  job : s.ret.job ≠ .noJob → t.ret.job ≠ .noJob
  pit : s.isPit = true → t.circ = s.circ ∧ t.ret.balState = s.ret.balState ∧ t.ret.lost = s.ret.lost ∧
    t.ret.gained = s.ret.gained ∧ t.ret.water = s.ret.water
  heard : s.isPit = false → t.heard = (s.statusTaken f m).heardFromPeers
  plain : s.straps.record = false →
    t.ret.job = s.ret.job ∧ t.ret.frozen = s.ret.frozen ∧ t.pumps = s.pumps ∧ t.billing = s.billing
  ownHead : s.straps.head = true → t.depth.headSource = s.depth.headSource ∧ t.depth.wear = s.depth.wear
  source : s.straps.head = false → t.depth.headSource = (s.statusTaken f m).chooseHead
  newSource : s.straps.head = false → t.depth.headSource ≠ s.depth.headSource →
    t.depth.wear = none ∧ t.depth.bitDepth = t.depthNow ∧ s.ret.hole ≤ t.ret.hole ∧
      (t.viewSure = s.viewSure → t.ret.hole = max s.ret.hole (t.depthNow.getD 0))
  oldSource : t.depth.headSource = s.depth.headSource →
    t.ret.hole = s.ret.hole ∧ (t.viewSure = s.viewSure → t.depth = s.depth)
  ownRod : s.straps.rod = true → t.rod = s.rod
  rod : s.straps.rod = false → ∃ z : State, z.RodHeard f.source m t ∧ z.chooseRod = (s.statusTaken f m).chooseRod ∧
    z.rod = s.rod ∧ z.ret.eventNo = s.ret.eventNo ∧ z.ret.string = s.ret.string ∧ z.stringLength = s.stringLength

end

end Sys2Proof.Machine

/-! What the blocks leave of a STATUS (O25), put together. -/

namespace Sys2Proof.Machine

open Host

theorem headRefresh_latches (s before : State) : s.link.Latches (s.headRefresh before).link := by
  have hchosen : s.chooseHeadAgain.link = s.link := by rw [chooseHeadAgain_eq]
  have hfollows := walk_latches.depthFollows s.chooseHeadAgain before
  rw [hchosen] at hfollows
  unfold State.headRefresh
  split
  · exact hfollows
  · exact .refl _

section

variable {s : State} {f : RxFrame} {m : StatusMsg} {p : PeerEntry}

/-- The rod view's part, whatever the role. -/
theorem rodStage (z : State) (hrun : z.mode = .run) (k : Nat) (m : StatusMsg) :
    z.Views (z.rodSourceAgain.rodStatus k m) ∧ (z.straps.rod = true → z.rodSourceAgain.rodStatus k m = z) ∧
      (z.straps.rod = false → z.RodHeard k m (z.rodSourceAgain.rodStatus k m)) := by
  cases hrole : z.straps.rod with
  | true =>
    have hown := rodStatus_own k m hrole
    rw [hown]
    exact ⟨views_rod z rfl, fun _ => rfl, fun h => (nomatch h)⟩
  | false =>
    obtain ⟨hviews, hheard⟩ := rodHeard_of hrun hrole k m
    exact ⟨hviews, fun h => (nomatch h), fun _ => hheard⟩

theorem statusPassed (hmode : s.mode = .run) (hp : s.peer? f.source = some p) (hrest : s.seq.state ≠ .running) :
    s.StatusPassed f m (s.statusTold f m) := by
  obtain ⟨htaken, hpeers⟩ := statusTaken_of (m := m) hp
  have hcontents := statusTaken_contents (m := m) hp
  have hheardFrom := leavesOther_heardFrom s f
  obtain ⟨x, hx⟩ : ∃ x, x = s.statusTaken f m := ⟨_, rfl⟩
  obtain ⟨y, hy⟩ : ∃ y, y = x.heardRefresh := ⟨_, rfl⟩
  obtain ⟨z, hz⟩ : ∃ z, z = y.headRefresh (s.heardFrom f) := ⟨_, rfl⟩
  obtain ⟨t, ht⟩ : ∃ t, t = z.rodSourceAgain.rodStatus f.source m := ⟨_, rfl⟩
  have hrefreshed := heardRefresh_refreshed x
  rw [← hx] at htaken hpeers hcontents
  rw [← hy] at hrefreshed
  have hxret : x.ret = s.ret := htaken.ret (by decide)
  have hxdepth : x.depth = s.depth := htaken.depth (by decide)
  have hhearing := hrefreshed.ret
  rw [hxret] at hhearing
  have hyother : LeavesOther [.link, .peers, .ret, .circ, .billing, .pumps] s y :=
    htaken.after hrefreshed.other (by decide) (by decide)
  have hydepth : y.depth = s.depth := hyother.depth (by decide)
  have hypeers : y.peers = x.peers := hrefreshed.other.peers (by decide)
  have hchosen : s.HeadChosen y z := by
    rw [hz]
    refine headRefresh_chosen (hyother.mode.trans hmode) hydepth (hheardFrom.depth (by decide)) ?_
      (hyother.straps.trans hheardFrom.straps.symm) ((hyother.rod (by decide)).trans (hheardFrom.rod (by decide)).symm)
      fun k => ?_
    · unfold Retained.Hearing at hhearing
      rw [hheardFrom.ret (by decide), hhearing]
      exact ⟨rfl, rfl, rfl, rfl⟩
    · rw [peer?_congr hypeers]
      exact hcontents k
  have hzother : LeavesOther [.link, .peers, .ret, .circ, .billing, .pumps, .depth, .alarm] s z :=
    hyother.after hchosen.other (by decide) (by decide)
  obtain ⟨hviews, hownRod, hheard⟩ := rodStage z (hzother.mode.trans hmode) f.source m
  rw [← ht] at hviews hownRod hheard
  have htother : LeavesOther [.peers, .link, .ret, .circ, .depth, .rod, .pumps, .billing, .alarm] s t :=
    hzother.after hviews.other (by decide) (by decide)
  have htold : s.statusTold f m = t := by
    have hrun : (z.rodSourceAgain.rodStatus f.source m).seqRun = z.rodSourceAgain.rodStatus f.source m := by
      rw [← ht]
      refine seqRun_of_not_running ?_
      rw [htother.seq (by decide)]
      exact hrest
    rw [ht, ← hrun, hz, hy, hx]
    rfl
  rw [htold]
  have hdeepens : y.ret.Deepens t.ret := hchosen.ret.trans hviews.ret
  have hzpeers : z.peers = x.peers := (hchosen.other.peers (by decide)).trans hypeers
  have htpeers : t.peers = x.peers := (hviews.other.peers (by decide)).trans hzpeers
  have hzrod : z.rod = s.rod := hzother.rod (by decide)
  have hzstraps : z.straps = s.straps := hzother.straps
  have hxstraps : x.straps = s.straps := htaken.straps
  have hystraps : y.straps = s.straps := hyother.straps
  have hyhole : y.ret.hole = s.ret.hole := by
    unfold Retained.Hearing at hhearing
    rw [hhearing]
  have hchoose : y.chooseHead = x.chooseHead := by
    unfold State.chooseHead
    rw [hystraps, hxstraps, hypeers]
  have hpit : x.isPit = s.isPit := by
    unfold State.isPit
    rw [hxstraps]
  have hzview : z.viewSure = s.viewSure := by
    unfold State.viewSure
    rw [hzstraps, hzrod]
  have hold : z = y ∨ (s.straps.head = false ∧ y.chooseHead ≠ s.depth.headSource) := by
    by_cases h : y.straps.head = true ∨ y.chooseHead = s.depth.headSource
    · exact .inl (hchosen.stood h)
    · obtain ⟨hhead, hnew⟩ := not_or.mp h
      exact .inr ⟨by rw [← hystraps]; exact Bool.eq_false_iff.mpr hhead, hnew⟩
  have hsourceOf : s.straps.head = false → z.depth.headSource = x.chooseHead := fun hhead => by
    rw [← hchoose]
    by_cases hkept : y.chooseHead = s.depth.headSource
    · rw [hchosen.stood (.inr hkept), hydepth, hkept]
    · exact (hchosen.moved (by rw [hystraps]; exact hhead) hkept).1
  have hfigures : t.ret.digest = s.ret.digest ∧ t.ret.eventNo = s.ret.eventNo ∧ t.ret.string = s.ret.string ∧
      t.ret.job = y.ret.job ∧ t.ret.frozen = y.ret.frozen ∧ t.ret.balState = y.ret.balState ∧ t.ret.lost = y.ret.lost ∧
      t.ret.gained = y.ret.gained ∧ t.ret.water = y.ret.water := by
    unfold Retained.Deepens at hdeepens
    unfold Retained.Hearing at hhearing
    rw [hdeepens]
    refine ⟨?_, ?_, ?_, rfl, rfl, rfl, rfl, rfl, rfl⟩ <;> rw [hhearing]
  obtain ⟨hdigest, hevent, hstring, hjob, hfrozen, hbal, hlost, hgained, hwater⟩ := hfigures
  have htcirc : t.circ = y.circ := (hviews.other.circ (by decide)).trans (hchosen.other.circ (by decide))
  refine ⟨htother, htpeers.trans hpeers, ?_, ⟨hdigest, hevent, hstring⟩, fun h => ?_, fun h => ?_, fun h => ?_, fun h => ?_, fun h => ?_,
    fun h => ?_, fun h hnew => ?_, fun hsame => ?_, fun h => ?_, fun h => ?_⟩
  · have hylink : y.link = x.link := hrefreshed.other.link (by decide)
    have hhead : y.link.Latches z.link := by
      rw [hz]
      exact headRefresh_latches y _
    rw [hylink, hx] at hhead
    exact hhead.trans hviews.latches
  · rw [hjob]
    exact hrefreshed.job (by rw [hxret]; exact h)
  · have hown := hrefreshed.own (hpit.trans h)
    rw [htcirc, hbal, hlost, hgained, hwater, hown, hxret, htaken.circ (by decide)]
    exact ⟨rfl, rfl, rfl, rfl, rfl⟩
  · have htheard : t.heard = y.heard := by
      unfold State.heard
      rw [htcirc, hbal, hlost, hgained, hwater]
    rw [htheard, hrefreshed.heard (hpit.trans h), hx]
  · have hoff : x.strataOn = false := by
      unfold State.strataOn
      rw [hxstraps, h, Bool.and_false, Bool.false_and]
    obtain ⟨hyjob, hyfrozen, hypumps, hybilling⟩ := hrefreshed.off hoff
    have htpumps : t.pumps = y.pumps := (hviews.other.pumps (by decide)).trans (hchosen.other.pumps (by decide))
    have htbilling : t.billing = y.billing := (hviews.other.billing (by decide)).trans (hchosen.other.billing (by decide))
    rw [hjob, hfrozen, htpumps, htbilling, hyjob, hyfrozen, hypumps, hybilling, hxret, htaken.pumps (by decide),
      htaken.billing (by decide)]
    exact ⟨rfl, rfl, rfl, rfl⟩
  · obtain ⟨hsource, hwear⟩ := hviews.head
    have hsame : z = y := hchosen.stood (.inl (by rw [hystraps]; exact h))
    rw [hsource, hwear, hsame, hydepth]
    exact ⟨rfl, rfl⟩
  · rw [hviews.head.1, hsourceOf h, hx]
  · obtain ⟨hsource, hwear⟩ := hviews.head
    rw [hsource, hsourceOf h, ← hchoose] at hnew
    obtain ⟨-, hzwear, hzbit, hzhole⟩ := hchosen.moved (by rw [hystraps]; exact h) hnew
    rw [hyhole] at hzhole
    refine ⟨hwear.trans hzwear, hviews.now hzbit, ?_, fun hview => ?_⟩
    · rw [hviews.hole, hzhole]
      exact Nat.le_max_left _ _
    · rw [hviews.hole, hzhole, (hviews.still (hview.trans hzview.symm)).2]
  · have hzy : z = y := by
      refine hold.resolve_right fun ⟨hhead, hnew⟩ => hnew ?_
      rw [hchoose, ← hsourceOf hhead, ← hviews.head.1, hsame]
    refine ⟨?_, fun hview => ?_⟩
    · rw [hviews.hole, hzy, hyhole]
    · rw [(hviews.still (hview.trans hzview.symm)).1, hzy, hydepth]
  · rw [hownRod (by rw [hzstraps]; exact h), hzrod]
  · have hzret : z.ret.eventNo = s.ret.eventNo ∧ z.ret.string = s.ret.string ∧ z.ret.items = s.ret.items ∧
        z.ret.rods = s.ret.rods := by
      have hzdeepens := hchosen.ret
      unfold Retained.Deepens at hzdeepens
      unfold Retained.Hearing at hhearing
      rw [hzdeepens]
      refine ⟨?_, ?_, ?_, ?_⟩ <;> rw [hhearing]
    obtain ⟨hzevent, hzstring, hzitems, hzrods⟩ := hzret
    refine ⟨z, hheard (by rw [hzstraps]; exact h), ?_, hzrod, hzevent, hzstring, ?_⟩
    · unfold State.chooseRod
      rw [hzstraps, hzpeers, hx, (statusTaken_of hp).1.straps]
    · unfold State.stringLength State.lengthOf State.rodLength State.typeLength State.cfg
      rw [hzstring, hzitems, hzrods]

end

end Sys2Proof.Machine

/-! A STATUS frame heard, settled (O25). -/

namespace Sys2Proof.Machine

open Host

/-! ## The pit peer picked (R70) -/

/-- An entry whose last STATUS carries balance figures. -/
def PeerEntry.carries (q : PeerEntry) : Bool := q.status.any fun n => n.balance.isSome

theorem figures_isSome (q : PeerEntry) : q.figures.isSome = q.carries := by
  unfold PeerEntry.figures PeerEntry.carries
  cases q.status with
  | none => rfl
  | some n => exact Option.isSome_map

/-- The pit peer whose figures are heard: the first fresh one, or the first stale one. -/
def State.pitPeer (s : State) : Option PeerEntry :=
  (s.peers.find? fun q => q.carries && !q.stale).or (s.peers.find? PeerEntry.carries)

theorem pitPeer_eq (s : State) : ((s.peers.filter fun p => p.figures.isSome).find? fun p => !p.stale).orElse
    (fun _ => (s.peers.filter fun p => p.figures.isSome).head?) = s.pitPeer := by
  unfold State.pitPeer
  simp only [figures_isSome]
  rw [List.find?_filter, List.head?_filter]
  simp only [Bool.decide_and, Bool.decide_eq_true]
  cases s.peers.find? fun q => q.carries && !q.stale <;> rfl

theorem heardFromPeers_none {s : State} (h : s.pitPeer = none) :
    s.heardFromPeers = ⟨.suspended, none, s.ret.lost, s.ret.gained, s.ret.water, none, false⟩ := by
  unfold State.heardFromPeers
  dsimp only
  rw [pitPeer_eq, h]
  rfl

theorem heardFromPeers_some {s : State} {q : PeerEntry} {n : StatusMsg} {b : BalanceFigures} (h : s.pitPeer = some q)
    (hn : q.status = some n) (hb : n.balance = some b) :
    s.heardFromPeers = ⟨b.state, b.ret, b.lost, b.gained, n.water, some q.station, q.stale⟩ := by
  have hfigures : q.figures = some (b, n.water) := by
    unfold PeerEntry.figures
    rw [hn, Option.bind_some, hb]
    rfl
  unfold State.heardFromPeers
  dsimp only
  rw [pitPeer_eq, h, Option.bind_some, hfigures]
  rfl

/-! ## The test of a close (R161) -/

/-- What the test of a close makes of a station that has taken a STATUS. -/
structure State.CloseTested (t : State) (m : StatusMsg) (w : State) : Prop where
  other : LeavesOther [.ret, .billing, .pumps] t w
  ret : w.ret = { t.ret with job := w.ret.job, close := w.ret.close, closeKind := w.ret.closeKind }
  job : t.ret.job ≠ .noJob → w.ret.job ≠ .noJob
  ends : t.straps.record = false → t.ret.job = .closing ∧ m.roles.record = true ∧ t.peersClosed = true →
    w.ret.job = .closed ∧ w.ret.close = .complete ∧ w.ret.closeKind = some .normal ∧ w.billing.jobTimer = none
  stays : ¬(t.straps.record = false ∧ t.ret.job = .closing ∧ m.roles.record = true ∧ t.peersClosed = true) → w = t

theorem closeTested {t : State} (hrun : t.mode = .run) (m : StatusMsg) :
    t.CloseTested m (if m.roles.record = true then t.peerCloseTest else t) := by
  by_cases hends : t.straps.record = false ∧ t.ret.job = .closing ∧ m.roles.record = true ∧ t.peersClosed = true
  · obtain ⟨hrec, hjob, hrole, hclosed⟩ := hends
    have hmoves := (moves_peerCloseTest t).other
    rw [if_pos hrole]
    rw [peerCloseTest_closes hrun hrec hjob hclosed] at hmoves ⊢
    exact ⟨hmoves, rfl, fun _ => JobState.noConfusion, fun _ _ => ⟨rfl, rfl, rfl, rfl⟩,
      fun h => absurd ⟨hrec, hjob, hrole, hclosed⟩ h⟩
  · have hsame : (if m.roles.record = true then t.peerCloseTest else t) = t := by
      by_cases hrole : m.roles.record = true
      · rw [if_pos hrole]
        refine if_neg fun k => hends ?_
        simp only [Bool.and_eq_true, Bool.not_eq_true', beq_iff_eq] at k
        obtain ⟨⟨⟨-, hrec⟩, hjob⟩, hclosed⟩ := k
        exact ⟨hrec, hjob, hrole, hclosed⟩
      · exact if_neg hrole
    rw [hsame]
    exact ⟨.refl _ t, rfl, id, fun hrec h => absurd ⟨hrec, h⟩ hends, fun _ => rfl⟩

end Sys2Proof.Machine

/-! A STATUS frame heard, in the obligation's words (O25). -/

namespace Sys2Proof.Machine

open Host

theorem latches_finish (s w : State) (hpending : w.pending = s.pending) : w.link.Latches (s.finish w).link := by
  have halarming : Alarming Link.Latches := ⟨.refl, fun k h => h.trans k, fun e l f _ _ => latches_handOver e f l .urgent⟩
  rw [(finish_settles s w hpending).link]
  exact halarming.alarmsFollow w

section

variable {s w : State} {f : RxFrame} {m : StatusMsg} {p : PeerEntry}

/-- The entry of a STATUS frame, in the obligation's words. -/
theorem statusEntered_entry (hp : s.peer? f.source = some p) (hpeers : w.peers = (s.statusEntered f m).peers) :
    w.peer? f.source = some { p with
        lastSeq := f.seq
        gaps := if f.seq = (p.lastSeq + 1) % 256 then p.gaps else min 255 (p.gaps + 1)
        silence := some (3 * s.statusPeriod)
        status := some m
        differed := decide (s.ret.job ≠ .noJob ∧ m.job ≠ .noJob ∧ m.digest ≠ s.ret.digest) } ∧
      ∀ j, j ≠ f.source → w.peer? j = s.peer? j := by
  have hpeer : ∀ j, w.peer? j = (s.statusEntered f m).peer? j := peer?_congr hpeers
  have hdiffers : s.digestDiffers m = decide (s.ret.job ≠ .noJob ∧ m.job ≠ .noJob ∧ m.digest ≠ s.ret.digest) :=
    Bool.eq_iff_iff.mpr ((digestDiffers_iff s m).trans decide_eq_true_iff.symm)
  refine ⟨?_, fun j hj => ?_⟩
  · rw [hpeer, statusEntered_peer?, if_pos rfl, hp, hdiffers]
    rfl
  · rw [hpeer, statusEntered_peer?, if_neg hj]

/-- The fault record once a STATUS is taken, in the obligation's words. -/
theorem statusTaken_latched (hp : s.peer? f.source = some p) {l : Link} (hl : (s.statusTaken f m).link.Latches l) :
    ((s.ret.job ≠ .noJob ∧ m.job ≠ .noJob ∧ m.digest ≠ s.ret.digest) ∧ p.differed = false →
      l.counts.configMismatch = min 255 (s.link.counts.configMismatch + 1) ∧
        (s.link.fault = none →
          l.fault = some ⟨.configMismatch, some f.source, some .status, some f.seq, s.ret.jobTime⟩)) ∧
    (¬((s.ret.job ≠ .noJob ∧ m.job ≠ .noJob ∧ m.digest ≠ s.ret.digest) ∧ p.differed = false) →
      l.counts.configMismatch = s.link.counts.configMismatch) := by
  obtain ⟨hfirst, hother⟩ := statusTaken_fault (m := m) hp
  rw [digestDiffers_iff] at hfirst hother
  refine ⟨fun h => ?_, fun h => hl.count.trans (hother h)⟩
  obtain ⟨hcount, hfault⟩ := hfirst h
  exact ⟨hl.count.trans hcount, fun hnone => hl.fault _ (hfault hnone)⟩

end

end Sys2Proof.Machine

namespace Sys2Proof

open Machine Host

/-- Settles O25: the blocks told in the model's order, each leaving what the others read. -/
theorem statusHeard : Obligations.StatusHeard := by
  unfold Obligations.StatusHeard
  intro bytes f m p s hears hs hbody hknows hfresh hclaim hspin hseq
  dsimp only
  have hp := hknows.1
  obtain ⟨w, hw⟩ : ∃ w, w = (s.heardFrom f).handOn f := ⟨_, rfl⟩
  have hexec := exec_frameReceived hears hp hfresh
  rw [← hw] at hexec
  obtain ⟨htaken, htakenPeers⟩ := statusTaken_of (m := m) hp
  by_cases hmode : s.mode = .run
  · have hruns : ¬s.mode = .config := by rw [hmode]; decide
    have hpassed := statusPassed (m := m) hmode hp hseq
    obtain ⟨t, ht⟩ : ∃ t, t = s.statusTold f m := ⟨_, rfl⟩
    have hclose := closeTested (t := t) (by rw [ht, hpassed.other.mode]; exact hmode) m
    rw [ht, ← statusFrom_run hmode hbody hknows hclaim hspin, ← hw, ← ht] at hclose
    rw [← ht] at hpassed
    have hother : LeavesOther [.peers, .link, .ret, .circ, .depth, .rod, .pumps, .billing, .alarm] s w :=
      hpassed.other.after hclose.other (by decide) (by decide)
    have hrest := finish_rest s w hother.pending
    have hpeers : (s.finish w).peers = (s.statusEntered f m).peers :=
      (hrest.peers (by decide)).trans ((hclose.other.peers (by decide)).trans hpassed.peers)
    obtain ⟨hentry, hothers⟩ := statusEntered_entry hp hpeers
    have hlatches : (s.statusTaken f m).link.Latches (s.finish w).link := by
      have hlink : w.link = t.link := hclose.other.link (by decide)
      have hfinish := latches_finish s w hother.pending
      rw [hlink] at hfinish
      exact hpassed.latches.trans hfinish
    obtain ⟨hfirst, hsecond⟩ := statusTaken_latched hp hlatches
    obtain ⟨hchanges, himages, houts⟩ := finish_changes s w hother
    refine ⟨s.finish w, hexec, hentry, hothers, hfirst, hsecond, fun h => absurd h hruns, fun _ => ?_,
      ⟨hchanges.mono (by decide), himages, houts⟩⟩
    have htpeers : (s.finish w).peers = t.peers := hpeers.trans hpassed.peers.symm
    have hdepth : (s.finish w).depth = t.depth := (hrest.depth (by decide)).trans (hclose.other.depth (by decide))
    have hrod : (s.finish w).rod = t.rod := (hrest.rod (by decide)).trans (hclose.other.rod (by decide))
    have hcirc : (s.finish w).circ = t.circ := (hrest.circ (by decide)).trans (hclose.other.circ (by decide))
    have hstraps : (s.finish w).straps = t.straps := hrest.straps.trans hclose.other.straps
    have hret : (s.finish w).ret = { t.ret with job := w.ret.job, close := w.ret.close, closeKind := w.ret.closeKind } :=
      (hrest.ret (by decide)).trans hclose.ret
    have hview : (s.finish w).viewSure = t.viewSure := by
      unfold State.viewSure
      rw [hstraps, hrod]
    have hnow : (s.finish w).depthNow = t.depthNow := by
      refine depthNow_of_position (by rw [hret]; exact ⟨rfl, rfl, rfl, rfl⟩) hview ?_
      have hvalues : (s.finish w).headValues = t.headValues := headValues_contents (by rw [hret]; exact ⟨rfl, rfl⟩)
        (by rw [hdepth]; exact .refl _) hstraps fun k => by rw [peer?_congr htpeers]
      unfold State.headPosition
      rw [hvalues]
    have htakenPeers' : (s.statusTaken f m).peers = t.peers := htakenPeers.trans hpassed.peers.symm
    rw [htpeers, hdepth, hrod, hcirc, hview, hnow, hret]
    dsimp only
    refine ⟨fun hdiffers => ?_, hpassed.pit, fun hpit => ?_, hpassed.ownHead, fun hhead => ?_,
      fun hsame => (hpassed.oldSource hsame).1, hpassed.ownRod, fun hrole => ?_, fun hrec => ?_⟩
    · rw [finish_isActive s ((inRun_iff w).mpr (hother.mode.trans hmode)) (by decide)]
      have hpeer : w.peer? f.source = _ :=
        (statusEntered_entry hp ((hclose.other.peers (by decide)).trans hpassed.peers)).1
      have hdigest : w.ret.digest = s.ret.digest := by
        rw [hclose.ret]
        exact hpassed.records.1
      refine List.any_eq_true.mpr ⟨_, mem_of_peer? hpeer, ?_⟩
      exact (digestDiffers_iff w m).mpr ⟨hclose.job (hpassed.job hdiffers.1), hdiffers.2.1, by rw [hdigest]; exact hdiffers.2.2⟩
    · have hheard := hpassed.heard hpit
      have hpick : (s.statusTaken f m).pitPeer = (t.peers.find? fun q => q.carries && !q.stale).or
          (t.peers.find? PeerEntry.carries) := by
        rw [← htakenPeers']
        rfl
      have htuple : ∀ {h : Heard}, (s.statusTaken f m).heardFromPeers = h → (t.ret.balState, t.circ.heardReturn, t.ret.lost,
          t.ret.gained, t.ret.water, t.circ.heardSource, t.circ.heardStale) =
          (h.state, h.ret, h.lost, h.gained, h.water, h.source, h.stale) := fun h =>
        congrArg (fun h : Heard => (h.state, h.ret, h.lost, h.gained, h.water, h.source, h.stale)) (hheard.trans h)
      refine ⟨fun hnone => ?_, fun q hq n hn b hb => htuple (heardFromPeers_some (hpick.trans hq) hn hb)⟩
      have hformed := htuple (heardFromPeers_none (hpick.trans hnone))
      rw [htaken.ret (by decide)] at hformed
      exact hformed
    · have hchosen : (s.statusTaken f m).chooseHead =
          (t.peers.find? fun q => !q.stale && (q.status.any fun n => n.roles.head) && q.headFresh).map (·.station) := by
        rw [← htakenPeers']
        exact if_neg (by rw [htaken.straps, hhead]; exact Bool.false_ne_true)
      exact ⟨(hpassed.source hhead).trans hchosen, hpassed.newSource hhead, fun hsame => (hpassed.oldSource hsame).2⟩
    · obtain ⟨z, hheard, hchoose, hzrod, hevent, hstring, hlength⟩ := hpassed.rod hrole
      have hsource : (t.peers.find? fun q => q.status.any fun n => n.roles.rod).map (·.station) = z.chooseRod := by
        rw [hchoose, ← htakenPeers']
        exact (if_neg (by rw [htaken.straps, hrole]; exact Bool.false_ne_true)).symm
      obtain ⟨his, hnewSure, hnewUnsure, hstill, hsame, hlags⟩ := hheard
      rw [hzrod] at hnewSure hnewUnsure hstill hsame hlags
      rw [hevent] at hsame hlags
      rw [hstring, hlength] at hsame
      rw [hsource]
      exact ⟨his, hpassed.records.2.1, hpassed.records.2.2, hnewSure, hnewUnsure, hstill, fun hold hsure hk =>
        ⟨fun he => (hsame hold hsure hk he).1, fun he => (hsame hold hsure hk he).2,
          fun he => (hlags hold hsure hk he).1, fun he => (hlags hold hsure hk he).2⟩⟩
    · obtain ⟨hjob, hfrozen, hpumps, hbilling⟩ := hpassed.plain hrec
      have htrec : t.straps.record = false := by rw [hpassed.other.straps]; exact hrec
      have hclosed : t.peersClosed = true ↔
          ∀ q ∈ t.peers, ∀ n, q.status = some n → n.roles.record = true → n.job = .closed := by
        rw [peersClosed_iff]
        simp only [not_exists, not_and, ne_eq, not_not]
      refine ⟨fun hends => ?_, fun hstays => ?_⟩
      · obtain ⟨hclosing, hrole, hall⟩ := hends
        obtain ⟨hwjob, hwclose, hwkind, hwtimer⟩ := hclose.ends htrec ⟨hjob.trans hclosing, hrole, hclosed.mpr hall⟩
        exact ⟨hwjob, hwclose, hwkind, (congrArg BillingUnit.jobTimer (hrest.billing (by decide))).trans hwtimer, hfrozen⟩
      · have hsame : w = t := hclose.stays fun h => hstays ⟨hjob.symm.trans h.2.1, h.2.2.1, hclosed.mp h.2.2.2⟩
        rw [hrest.pumps (by decide), hrest.billing (by decide), hsame]
        exact ⟨hjob, hpumps, hbilling⟩
  · have hconfig : w = s.statusTaken f m := hw.trans (statusFrom_config hmode hbody hknows hclaim hspin)
    have hquiet := finish_quiet s w (hconfig ▸ htaken) (settled_of_mode (by rw [hconfig, htaken.mode]; exact hmode))
    have hpending : w.pending = s.pending := by rw [hconfig]; exact htaken.pending
    have hpeers : (s.finish w).peers = (s.statusEntered f m).peers :=
      ((finish_rest s w hpending).peers (by decide)).trans (by rw [hconfig]; exact htakenPeers)
    obtain ⟨hentry, hothers⟩ := statusEntered_entry hp hpeers
    have hlatches : (s.statusTaken f m).link.Latches (s.finish w).link := by
      have hfinish := latches_finish s w hpending
      rw [hconfig] at hfinish ⊢
      exact hfinish
    obtain ⟨hfirst, hsecond⟩ := statusTaken_latched hp hlatches
    exact ⟨s.finish w, hexec, hentry, hothers, hfirst, hsecond,
      fun _ => ⟨hquiet.other.mono (by decide), hquiet.images, hquiet.outs⟩, fun h => absurd h hmode,
      ⟨hquiet.other.mono (by decide), hquiet.images, hquiet.outs⟩⟩

end Sys2Proof
